-- ==== Sys2Proof/Word.lean ====
section
/-! DEFINITION. The words of the SX24: bytes, sequence numbers and transport packets, and the small sets of names that index its
ports, time inputs, channels, modules and lines. -/

namespace Sys2Proof

/-- A byte of a link frame, of a packet or of attached memory. -/
abbrev Byte := BitVec 8

/-- A frame sequence number, 16 bits, wrapping (00, "Sequence numbers and serial comparison"). -/
abbrev Seq := BitVec 16

/-- A transport packet: 188 bytes, the first one 0x47 unless damaged (00, "Transport packets"). -/
abbrev Packet := List Byte

/-- A site time or an interval in STU. The running count itself stays in 0 to 2^64 − 1 (R1); stored instants may be moved
below 0 by a step (R2). -/
abbrev SiteTime := Int

/-- Feed ports A and B. -/
inductive PortId where
  | a | b
deriving DecidableEq, Repr

/-- Time inputs 1, 2 and 3. -/
inductive InputId where
  | in1 | in2 | in3
deriving DecidableEq, Repr

/-- The numbers 1 to 4 of insertion channels, amplifier modules and alarm lines. -/
inductive Four where
  | n1 | n2 | n3 | n4
deriving DecidableEq, Repr

/-- One value for each feed port. -/
structure PerPort (α : Type) where
  a : α
  b : α
deriving DecidableEq, Repr

/-- One value for each time input. -/
structure PerInput (α : Type) where
  in1 : α
  in2 : α
  in3 : α
deriving DecidableEq, Repr

/-- One value for each of the numbers 1 to 4. -/
structure PerFour (α : Type) where
  n1 : α
  n2 : α
  n3 : α
  n4 : α
deriving DecidableEq, Repr

def PerPort.get {α : Type} (x : PerPort α) : PortId → α
  | .a => x.a
  | .b => x.b

def PerPort.set {α : Type} (x : PerPort α) (p : PortId) (v : α) : PerPort α :=
  match p with
  | .a => { x with a := v }
  | .b => { x with b := v }

def PerPort.map {α β : Type} (f : α → β) (x : PerPort α) : PerPort β := ⟨f x.a, f x.b⟩

def PerInput.get {α : Type} (x : PerInput α) : InputId → α
  | .in1 => x.in1
  | .in2 => x.in2
  | .in3 => x.in3

def PerInput.set {α : Type} (x : PerInput α) (n : InputId) (v : α) : PerInput α :=
  match n with
  | .in1 => { x with in1 := v }
  | .in2 => { x with in2 := v }
  | .in3 => { x with in3 := v }

def PerInput.map {α β : Type} (f : α → β) (x : PerInput α) : PerInput β := ⟨f x.in1, f x.in2, f x.in3⟩

def PerFour.get {α : Type} (x : PerFour α) : Four → α
  | .n1 => x.n1
  | .n2 => x.n2
  | .n3 => x.n3
  | .n4 => x.n4

def PerFour.set {α : Type} (x : PerFour α) (n : Four) (v : α) : PerFour α :=
  match n with
  | .n1 => { x with n1 := v }
  | .n2 => { x with n2 := v }
  | .n3 => { x with n3 := v }
  | .n4 => { x with n4 := v }

def PerFour.map {α β : Type} (f : α → β) (x : PerFour α) : PerFour β := ⟨f x.n1, f x.n2, f x.n3, f x.n4⟩

/-- The port, input or channel number the manual gives: A is 1, B is 2 (10.5); the others count from 1. -/
def PortId.num : PortId → Nat
  | .a => 1
  | .b => 2

def InputId.num : InputId → Nat
  | .in1 => 1
  | .in2 => 2
  | .in3 => 3

def Four.num : Four → Nat
  | .n1 => 1
  | .n2 => 2
  | .n3 => 3
  | .n4 => 4

def InputId.all : List InputId := [.in1, .in2, .in3]
def Four.all : List Four := [.n1, .n2, .n3, .n4]

/-- The input of a number 1 to 3, if it is one. -/
def InputId.ofNum : Nat → Option InputId
  | 1 => some .in1
  | 2 => some .in2
  | 3 => some .in3
  | _ => none

/-- The channel, module or line of a number 1 to 4, if it is one. -/
def Four.ofNum : Nat → Option Four
  | 1 => some .n1
  | 2 => some .n2
  | 3 => some .n3
  | 4 => some .n4
  | _ => none

/-- The distance from `b` to `a`: their difference modulo 65,536 read as a signed number, so that a difference of exactly
32,768 reads as −32,768 (00, "Sequence numbers and serial comparison"). -/
def Seq.distance (b a : Seq) : Int := (a - b).toInt

end Sys2Proof
end

