-- ==== Sys2Proof/Syntax.lean ====
section
/-! DEFINITION. The commands of the SX24: one constructor for each row of spec/opcode_table.json. The table gives no operands;
each constructor has those of the rule its row names. A request carries its tag and the fields that section 10.4 lays out. -/

namespace Sys2Proof

/-- A cue entry as its nine bytes give it (10.2): the kind is not judged here. -/
structure CueData where
  kind : Byte
  avail : BitVec 16
  service : BitVec 16
  seq : Seq
  duration : BitVec 16
deriving DecidableEq, Repr

/-- The eight monitoring inputs of one sample (R143). -/
structure Samples where
  forward : Nat
  reflected : Nat
  temperature : Nat
  supply : Nat
  current : PerFour Nat
deriving DecidableEq, Repr

/-- One pair of a stream map: clip stream and target stream (05, section 5.5). -/
abbrev StreamPair := BitVec 16 × BitVec 16

/-- The commands, in the order of the table. -/
inductive Instr where
  -- power, starts and the control link (09)
  | powerOn
  | restartStart
  /-- These bytes arrive on the control link, one after another (R169; log 6). -/
  | requestFrame (bytes : List Byte)
  | gapExpiry
  | transmitComplete
  | lineRateApply
  | unknownKind (kind tag : Byte) (body : List Byte)
  | identify (tag : Byte)
  | status (tag : Byte)
  | ackStart (tag : Byte)
  | restart (tag : Byte)
  | getSetting (tag : Byte) (id : BitVec 16)
  | setSetting (tag : Byte) (id : BitVec 16) (value : BitVec 32)
  | commitSettings (tag : Byte)
  | commitCompletion
  | revertSettings (tag : Byte)
  -- requests of Site Time (01)
  | clockStatus (tag : Byte)
  | referenceStatus (tag : Byte)
  | selectReference (tag n : Byte)
  | reseedReference (tag n : Byte)
  -- requests of Feed Intake (02) and the Frame Store (03)
  | feedStatus (tag port clear : Byte)
  | feedHold (tag selection : Byte)
  | feedCounts (tag clear : Byte)
  | storeStatus (tag : Byte)
  -- requests of Emission (04)
  | startEmission (tag : Byte)
  | stopEmission (tag : Byte)
  | reAnchor (tag : Byte)
  | mute (tag : Byte)
  | unmute (tag : Byte)
  | setOffset (tag : Byte) (o : BitVec 32)
  | emissionStatus (tag clear : Byte)
  -- services, clips and avail plans (05)
  | defineService (tag : Byte) (number : BitVec 16) (eligible : Byte) (streams : List (BitVec 16))
  | deleteService (tag : Byte) (number : BitVec 16)
  | serviceList (tag : Byte)
  | clipOpen (tag n : Byte) (f k : BitVec 16) (crc : BitVec 32)
  | clipData (tag n : Byte) (packets : List Packet)
  | clipSeek (tag n : Byte) (position : BitVec 32)
  | clipClose (tag n : Byte)
  | clipDelete (tag n : Byte)
  | clipStatus (tag n : Byte)
  | verificationStepEnd
  | planSet (tag keyKind : Byte) (avail service : BitVec 16) (clip harvest early : Byte) (map : List StreamPair)
  | planDelete (tag keyKind : Byte) (avail service : BitVec 16)
  | planList (tag start : Byte)
  -- Splicing (06)
  | cue (tag : Byte) (entry : CueData)
  | cueList (tag clear : Byte)
  | channelStatus (tag n : Byte)
  | abortSplice (tag n : Byte)
  -- requests of the Drive Controller (07) and the Alarm Unit (08)
  | rfEnable (tag : Byte)
  | rfDisable (tag : Byte)
  | setPower (tag : Byte) (p : BitVec 16)
  | clearTrips (tag : Byte)
  | rfStatus (tag clear : Byte)
  | moduleStatus (tag n : Byte)
  | alarmRead (tag : Byte)
  | alarmClear (tag : Byte) (epoch : BitVec 32) (items : BitVec 40)
  -- events of the Site Clock (01)
  | oscillatorSecond
  | secondNumberReceived (n : InputId) (number : BitVec 40)
  | timePulse (n : InputId)
  | missingPulse (n : InputId)
  | suspectTimeout (n : InputId)
  | holdOffExpiry (n : InputId)
  | secondBoundary
  -- events of Feed Intake (02)
  | feedByte (p : PortId) (byte : Byte)
  /-- The last byte of an aligned packet has arrived: these are its first byte, where 0x47 is expected, and its other 187 (R27, R31;
  log 7). -/
  | feedPacket (p : PortId) (sync : Byte) (rest : List Byte)
  | lineActivityExpiry (p : PortId)
  | silenceDeadline (p : PortId)
  -- events of the Emission Scheduler (04)
  | take
  | anchorReached
  | packetDeparture
  | freeGridPacket
  -- events of the Drive Controller (07)
  | monitoringSample (samples : Samples)
  | rampTick
  | retryEnd
  | steadyPeriodExpiry
  -- power
  | powerFail
deriving DecidableEq, Repr

end Sys2Proof
end

