-- ==== Sys2Proof/Decode.lean ====
section
/-! DEFINITION. Reading a command from a word. -/

/-- The command that a word spells by the bits of spec/opcode_table.json: none, since no row of that table gives bits (log 37).
Requests reach the part as the bytes of a frame (`Sys2Proof.Instr.requestFrame`), which `Sys2Proof.Machine.serve` reads. -/
def Sys2Proof.decodeTableWord (_nbits _w : Nat) : Option Sys2Proof.Instr := none
end

