-- ==== Sys2Proof/Config.lean ====
section
/-! DEFINITION. What one SX24 fixes: its sizes, and the values the manual leaves open (opaque constants, so that nothing can be
proved of their value). -/

namespace Sys2Proof.Config

/-- One second, 10,000,000 STU; also the cycles of one oscillator second (R1). -/
def second : Nat := 10000000

/-- The stage lead λs, 2,000 STU, by which cut-off precedes an emission instant (R46). -/
def stageLead : Int := 2000

/-- The sixty-four slots of the Frame Store (03). -/
def slots : Nat := 64

/-- The 770,048 bytes of one slot in the frame region: 4,096 packets of 188 bytes (03, section 3.1). -/
def slotBytes : Nat := 770048

/-- The size of attached memory (00, "Attached memory"). -/
def memoryBytes : Nat := 268435456

/-- The first byte of the clip region (05, section 5.2). -/
def clipBase : Nat := 49283072

/-- The packet positions of the clip region (R96). -/
def clipPositions : Nat := 1165704

/-- Free value. What the byte at an address of attached memory holds after the start of that number, before anything writes it:
"whatever attached memory holds after the start" (R96, R109; log 2). -/
opaque powerUpByte : Nat → Nat → BitVec 8

/-- Free value. The silicon revision, "fixed at manufacture" (R175; log 8). -/
opaque siliconRevision : BitVec 8

/-- Free value. The device number, "unique to the part" (R175; log 8). -/
opaque deviceNumber : BitVec 32

end Sys2Proof.Config
end

