-- ==== Sys2Proof/Machine/Bytes.lean ====
section
/-! DEFINITION. Byte order, the two check codes, and the fields of a transport packet header (00, 10.1). -/

namespace Sys2Proof.Machine
open Sys2Proof

/-- `x` in `n` bytes, most significant byte first; a negative number is in two's complement (10). -/
def be : Nat → Int → List Byte
  | 0, _ => []
  | n + 1, x => BitVec.ofInt 8 (x / (256 : Int) ^ n) :: be n x

/-- The unsigned number that bytes give, most significant first. -/
def fromBE (bs : List Byte) : Nat := bs.foldl (fun acc b => acc * 256 + b.toNat) 0

/-- The bytes of all ones that stand for an absent value (R22, R43, R153). -/
def allOnes (n : Nat) : List Byte := List.replicate n 0xFF

/-- A yes-or-no field: 0 no, 1 yes (10.5). -/
def flagByte (b : Bool) : List Byte := if b then [1] else [0]

/-- A byte whose bits 0, 1, 2, … are the flags given. -/
def flagBits : List Bool → Nat
  | [] => 0
  | b :: rest => (if b then 1 else 0) + 2 * flagBits rest

/-- A counter that stops at its highest value (00, "Numbers and arithmetic"). -/
def sat (highest n : Nat) : Nat := min n highest

/-- To clamp a value into a range (00, "Numbers and arithmetic"). -/
def clamp (lo hi x : Int) : Int := if x < lo then lo else if hi < x then hi else x

/-! ## Check codes -/

/-- One bit of a CRC register of width w, most significant bit first, with the generator polynomial given. -/
def crcBit {w : Nat} (poly : BitVec w) (c : BitVec w) : BitVec w :=
  if c.msb then (c <<< 1) ^^^ poly else c <<< 1

/-- One byte of a CRC. -/
def crcByte {w : Nat} (poly : BitVec w) (c : BitVec w) (b : Byte) : BitVec w :=
  (List.range 8).foldl (fun c _ => crcBit poly c) (c ^^^ (b.setWidth w <<< (w - 8)))

/-- CRC-32 continued over bytes; it starts from all ones and is taken as it stands (00, "Check codes"). -/
def crc32 (c : BitVec 32) (bs : List Byte) : BitVec 32 := bs.foldl (crcByte 0x04C11DB7) c

/-- CRC-16 over bytes, from 0xFFFF (00, "Check codes"). -/
def crc16 (bs : List Byte) : BitVec 16 := bs.foldl (crcByte 0x1021) 0xFFFF

/-- The value both CRCs start from. -/
def crcStart : BitVec 32 := 0xFFFFFFFF

/-! ## The packet header (10.1) -/

/-- Byte i of a packet. -/
def pbyte (p : Packet) (i : Nat) : Byte := p.getD i 0

/-- A first byte of 0x47. -/
def hasSync (p : Packet) : Bool := pbyte p 0 == 0x47

/-- The transport error flag. -/
def transportError (p : Packet) : Bool := (pbyte p 1).getLsbD 7

/-- The stream number: the low 5 bits of byte 1 and byte 2. -/
def streamOf (p : Packet) : Nat := (pbyte p 1).toNat % 32 * 256 + (pbyte p 2).toNat

/-- A packet carries payload when its adaptation control is 1 or 3: bit 4 of byte 3. -/
def carriesPayload (p : Packet) : Bool := (pbyte p 3).getLsbD 4

/-- The continuity count: bits 3 to 0 of byte 3. -/
def continuityOf (p : Packet) : Nat := (pbyte p 3).toNat % 16

/-- The null stream. -/
def nullStream : Nat := 8191

/-- Remapping changes the 13 stream bits alone (10.1). -/
def setStream (p : Packet) (stream : Nat) : Packet :=
  (p.set 1 (BitVec.ofNat 8 ((pbyte p 1).toNat / 32 * 32 + stream / 256 % 32))).set 2 (BitVec.ofNat 8 (stream % 256))

/-- The continuity rewrite changes bits 3 to 0 of byte 3 alone (10.1). -/
def setContinuity (p : Packet) (count : Nat) : Packet :=
  p.set 3 (BitVec.ofNat 8 ((pbyte p 3).toNat / 16 * 16 + count % 16))

/-- The null packet that the part makes (10.1, R82). -/
def nullPacket : Packet := [0x47, 0x1F, 0xFF, 0x10] ++ List.replicate 184 0xFF

/-- The substitute of a damaged packet: a null packet with its transport error flag set (R27). -/
def substitutePacket : Packet := [0x47, 0x9F, 0xFF, 0x10] ++ List.replicate 184 0xFF

end Sys2Proof.Machine
end

