-- ==== Sys2Proof/Machine/State.lean ====
section
/-! DEFINITION. The state of the SX24 as plain data: everything the manual gives the part, block by block, the settings, attached
memory, and the queue of commands that wait; and the state right after reset. -/

namespace Sys2Proof.Machine
open Sys2Proof

/-! ## Settings (R178): every setting that has a parameter id -/

/-- Section 1.9. Seconds, STU and counts are natural numbers; yes-or-no settings are Bool. -/
structure ClockParams where
  beta : Nat := 3
  betaFast : Nat := 1
  jitter : Nat := 5
  entryCount : Nat := 5
  suspectBand : Nat := 50
  returnCount : Nat := 3
  suspectTimeout : Nat := 30
  holdOff : Nat := 10
  crossLimit : Nat := 10
  crossCount : Nat := 4
  nonRevertive : Bool := false
  lockWindow : Nat := 2
  lockCount : Nat := 10
  relockWindow : Nat := 20
  stepThreshold : Nat := 1000
  slewShift : Nat := 2
  learnShift : Nat := 6
  holdoverRate : Nat := 50
  guardLimit : Nat := 10
  enabled : PerInput Bool := ⟨true, true, true⟩
  priority : PerInput Nat := ⟨1, 2, 3⟩
deriving DecidableEq, Repr

/-- Section 2.8. -/
structure FeedParams where
  enabled : PerPort Bool := ⟨true, true⟩
  timingStream : Nat := 8180
  healthShift : Nat := 3
  impair : Nat := 8192
  fail : Nat := 32768
  hysteresis : Nat := 4096
  enter : Nat := 3
  exit : Nat := 8
deriving DecidableEq, Repr

/-- R89. -/
structure EmissionParams where
  period : Nat := 1000000
  packets : Nat := 1604
  chainDelay : Nat := 0
  singleSite : Bool := false
  bufferDelay : Nat := 1000000
  mismatch : Nat := 10
  lead : Nat := 20000
  gapLimit : Nat := 8
  resume : Nat := 4
  siteId : Nat := 1
  autoStart : Bool := false
deriving DecidableEq, Repr

/-- Section 7.7. -/
structure DriveParams where
  installed : Nat := 4
  rampCode : Nat := 3
  smooth : Bool := false
  tempKnee : Nat := 650
  tempGain : Nat := 8
  reflKnee : Nat := 900
  reflGain : Nat := 4
  foldHyst : Nat := 32
  reflTrip : Nat := 1200
  reflFilter : Nat := 2
  retryLimit : Nat := 3
  retryDelay : Nat := 10
  tempWarn : Nat := 750
  tempShut : Nat := 850
  tempHyst : Nat := 50
  supplyLow : Nat := 2900
  supplyHigh : Nat := 3500
  supplyHyst : Nat := 40
  overThreshold : Nat := 3600
  openThreshold : Nat := 200
  moduleFilter : Nat := 3
  lowTol : Nat := 200
deriving DecidableEq, Repr

/-- The record of an alarm line (R165): the source code, and the two values each of polarity, output mode and direct value. -/
structure LineParams where
  source : Nat
  activeLow : Bool := false
  openDrain : Bool := false
  direct : Bool := false
deriving DecidableEq, Repr

/-- The settings of the Alarm Unit: report enables of items 1 to 36, enables of the eight notice kinds in the order of section
8.5, and the four alarm-line records (R156, R163, R165). -/
structure AlarmParams where
  report : List Bool := List.replicate 36 true
  notice : List Bool := List.replicate 8 false
  lines : PerFour LineParams := ⟨⟨37, false, false, false⟩, ⟨38, false, false, false⟩, ⟨39, false, false, false⟩, ⟨22, false, false, false⟩⟩
deriving DecidableEq, Repr

/-- Every setting with a parameter id; its default values are the factory defaults. -/
structure Params where
  clock : ClockParams := {}
  feed : FeedParams := {}
  em : EmissionParams := {}
  armingLead : Nat := 2
  drive : DriveParams := {}
  alarm : AlarmParams := {}
  lineRate : Nat := 115200
deriving DecidableEq, Repr

/-! ## The Site Clock (01) -/

/-- The clock states of section 1.5. -/
inductive ClockMode where
  | free | acquiring | locked | holdover | expired
deriving DecidableEq, Repr

/-- The input states of section 1.3. -/
inductive InputMode where
  | absent | qualifying | qualified | suspect | disqualified
deriving DecidableEq, Repr

/-- The record of a time input (section 1.2). `received` is the number that the next pulse will carry (R3); `expiries` is how
many missing-pulse expiries have passed since the last pulse (R4; log 24). -/
structure InputRec where
  mode : InputMode := .absent
  rawErr : Int := 0
  eps : Int := 0
  good : Nat := 0
  missing : Nat := 0
  disagree : Nat := 0
  reseed : Bool := false
  suspectStart : Int := 0
  lastPulse : Option Int := none
  disqTime : Int := 0
  holdDone : Bool := false
  lastSecond : Option Nat := none
  received : Option Nat := none
  expiries : Nat := 0
deriving DecidableEq, Repr

structure ClockState where
  time : Int := 0
  corr : Int := 0
  residue : Int := 0
  quotient : Int := 0
  cycles : Nat := 0
  secondsTaken : Nat := 0
  slew : Int := 0
  slewPos : Nat := 0
  slewLeft : Nat := 0
  mode : ClockMode := .free
  lockCount : Nat := 0
  u : Nat := 4294967295
  boundary : Int := 0
  secondsSet : Bool := false
  governing : Option InputId := none
  forced : Option InputId := none
  inputs : PerInput InputRec := ⟨{}, {}, {}⟩
deriving DecidableEq, Repr

/-! ## Feed Intake (02) -/

/-- The port states of section 2.1. -/
inductive PortMode where
  | disabled | dark | searching | good | impaired | failed
deriving DecidableEq, Repr

/-- A directive entry as its seven bytes give it (10.2). -/
structure Directive where
  kind : Byte
  target : BitVec 16
  value : BitVec 32
deriving DecidableEq, Repr

/-- The timing record of a valid candidate (R29). -/
structure TimingRec where
  seq : Seq
  stamp : Nat
  delay : Nat
  period : Nat
  packets : Nat
  cues : List CueData
  directives : List Directive
deriving DecidableEq, Repr

/-- The assembly record of a port and its assembly buffer (section 2.3). -/
structure Assembly where
  timing : TimingRec
  arrival : Int
  count : Nat
  transportErrors : Nat
  continuityErrors : Nat
  hash : BitVec 32
  buffer : List Packet
deriving DecidableEq, Repr

/-- The port counts, in the order FEED STATUS sends them (R43); each is 16 bits and saturates. -/
structure PortCounts where
  clean : Nat := 0
  flawed : Nat := 0
  short : Nat := 0
  badTiming : Nat := 0
  format : Nat := 0
  silence : Nat := 0
  offered : Nat := 0
  heldBack : Nat := 0
  frameAlignment : Nat := 0
  syncErrors : Nat := 0
  alignmentLosses : Nat := 0
  darkness : Nat := 0
  transportErrors : Nat := 0
  continuityErrors : Nat := 0
deriving DecidableEq, Repr

/-- A port record (02). After a completed frame the phase stays ASSEMBLING with no record open, until the next packet (R33; log
20). A continuity entry is a stream with its last count, or with none while unset. `firstByte` is the site time at which the first
byte of the packet now arriving at an aligned port arrived, or none before that byte (R28; log 7). -/
structure PortRec where
  mode : PortMode := .dark
  runs : List Nat := List.replicate 188 0
  phase : Nat := 0
  packetPhase : Option Nat := none
  firstByte : Option Int := none
  wrongSync : Nat := 0
  assembling : Bool := false
  opened : Option Assembly := none
  continuity : List (Nat × Option Nat) := []
  average : Nat := 65535
  degrade : Nat := 0
  recover : Nat := 0
  deadline : Option Int := none
  lastByte : Nat := 0
  counts : PortCounts := {}
deriving DecidableEq, Repr

/-- The feed hold selection (R41): `some p` confines offers to port p. -/
structure FeedState where
  hold : Option PortId := none
  ports : PerPort PortRec := ⟨{}, {}⟩
deriving DecidableEq, Repr

/-! ## The Frame Store (03) -/

/-- The verdict of a copy that was offered. -/
inductive Quality where
  | clean | flawed
deriving DecidableEq, Repr

/-- The fields of a slot that holds a frame (section 3.1). -/
structure Held where
  seq : Seq
  source : PortId
  quality : Quality
  hash : BitVec 32
  arrival : Int
  emission : Int
  cues : List CueData
  directives : List Directive
deriving DecidableEq, Repr

/-- A slot record: FREE with every field absent, HELD with a frame, or TAKEN with the sequence and a frame or none (R45). -/
inductive Slot where
  | free
  | held (h : Held)
  | taken (seq : Seq) (content : Option Held)
deriving DecidableEq, Repr

/-- The eight admission counts of a port, in the order of R65; each is 16 bits and saturates. -/
structure AdmissionCounts where
  admitted : Nat := 0
  duplicateSame : Nat := 0
  duplicateDivergent : Nat := 0
  upgraded : Nat := 0
  stale : Nat := 0
  ahead : Nat := 0
  late : Nat := 0
  mismatch : Nat := 0
deriving DecidableEq, Repr

structure StoreState where
  slots : List Slot := List.replicate 64 .free
  base : Option Seq := none
  jumpRun : Nat := 0
  mismatchRun : Nat := 0
  marks : PerPort Bool := ⟨false, false⟩
  counts : PerPort AdmissionCounts := ⟨{}, {}⟩
deriving DecidableEq, Repr

/-! ## The Emission Scheduler (04) -/

inductive EmissionMode where
  | off | anchoring | running
deriving DecidableEq, Repr

/-- The anchor record (R75): s_anchor, E_anchor, the frame counter k_b, and the next frame number to be taken. -/
structure Anchor where
  seq : Seq
  instant : Int
  counter : Nat := 0
  next : Nat := 0
deriving DecidableEq, Repr

/-- The mute-reason set (R68). -/
structure MuteSet where
  feed : Bool := false
  time : Bool := false
  network : Bool := false
  host : Bool := false
deriving DecidableEq, Repr

/-- The emission counts, in the order of R90; each is 32 bits and saturates. -/
structure EmissionCounts where
  real : Nat := 0
  null : Nat := 0
  cut : Nat := 0
  anchorsTaken : Nat := 0
  anchorsAbandoned : Nat := 0
  depthRefusals : Nat := 0
  reAnchors : Nat := 0
  directivesActed : Nat := 0
  directivesPassed : Nat := 0
deriving DecidableEq, Repr

/-- A packet that left the output port, and its instant. -/
structure OutPacket where
  instant : Int
  bytes : Packet
deriving DecidableEq, Repr

structure EmissionState where
  mode : EmissionMode := .off
  anchor : Option Anchor := none
  runFrame : Nat := 0
  runPacket : Nat := 0
  mute : MuteSet := {}
  offset : Int := 0
  pendingOffset : Option Int := none
  dLast : Nat := 0
  gapRun : Nat := 0
  resumeRun : Nat := 0
  origin : Int := 0
  freePeriod : Nat := 0
  freePacket : Nat := 0
  lastCount : Nat := 15
  counts : EmissionCounts := {}
  out : Option OutPacket := none
deriving DecidableEq, Repr

/-! ## The Clip Store (05) -/

inductive ClipMode where
  | empty | loading | verifying | ready | rejected
deriving DecidableEq, Repr

/-- The rejection reasons (section 5.2). -/
inductive Rejection where
  | crc | streams | sync | coverage
deriving DecidableEq, Repr

/-- A clip record. An EMPTY clip has every other field 0 or absent. -/
structure Clip where
  mode : ClipMode := .empty
  frames : Nat := 0
  perFrame : Nat := 0
  base : Nat := 0
  length : Nat := 0
  writePos : Nat := 0
  highWater : Nat := 0
  wraps : Nat := 0
  expected : BitVec 32 := 0
  computed : Option (BitVec 32) := none
  streams : List Nat := []
  reason : Option Rejection := none
  verified : Nat := 0
  uses : Nat := 0
deriving DecidableEq, Repr

/-- The clip records, the verification queue, and the pass in progress at its head (R101). -/
structure ClipState where
  clips : List Clip := List.replicate 32 {}
  queue : List Nat := []
  stepStart : Nat := 0
  crc : BitVec 32 := 0xFFFFFFFF
  syncFailed : Bool := false
  streamFailed : Bool := false
deriving DecidableEq, Repr

/-! ## Splicing (05, 06) -/

/-- A service table entry (section 5.1). -/
structure Service where
  number : Nat
  streams : List Nat
  eligible : Bool
deriving DecidableEq, Repr

/-- The key of an avail plan: an exact avail id, or any avail of a service (section 5.5). -/
inductive PlanKey where
  | exact (avail : Nat)
  | any (service : Nat)
deriving DecidableEq, Repr

/-- An avail-plan entry; each pair of the map is a clip stream and its target. -/
structure Plan where
  key : PlanKey
  service : Nat
  clip : Nat
  map : List (Nat × Nat)
  harvest : Bool
  early : Bool
deriving DecidableEq, Repr

inductive CueSource where
  | network | host
deriving DecidableEq, Repr

inductive CueMode where
  | waiting | unfilled | armed | active
deriving DecidableEq, Repr

/-- A cue table entry (section 6.1). -/
structure CueEntry where
  avail : Nat
  service : Nat
  start : Seq
  duration : Nat
  ending : Seq
  source : CueSource
  carrying : Seq
  mode : CueMode
  channel : Option Four
  order : BitVec 32
deriving DecidableEq, Repr

/-- A return that is to be made at the next frame start (section 6.4). -/
inductive PendingReturn where
  | none | early | aborted
deriving DecidableEq, Repr

/-- A channel that is ARMED, or ACTIVE when `active` (section 6.4). An IDLE channel has no record. -/
structure Channel where
  active : Bool
  avail : Nat
  service : Nat
  start : Seq
  ending : Seq
  clip : Nat
  perFrame : Nat
  length : Nat
  map : List (Nat × Nat)
  harvest : Bool
  early : Bool
  read : Nat := 0
  due : Nat := 0
  exhausted : Bool := false
  pending : PendingReturn := .none
deriving DecidableEq, Repr

/-- A record of the continuity offset table (section 6.8). -/
structure OffsetRec where
  stream : Nat
  last : Option Nat := none
  offset : Nat := 0
  resync : Bool := false
deriving DecidableEq, Repr

/-- The cue counts, in the order of R130; each is 16 bits and saturates. -/
structure CueCounts where
  new : Nat := 0
  repeats : Nat := 0
  revision : Nat := 0
  lateRevision : Nat := 0
  dropped : Nat := 0
  missed : Nat := 0
  unfilled : Nat := 0
  endMoved : Nat := 0
  inIgnored : Nat := 0
  cancelled : Nat := 0
  cancelIgnored : Nat := 0
deriving DecidableEq, Repr

structure SpliceState where
  services : List Service := []
  plans : List Plan := []
  cues : List CueEntry := []
  cueRef : Seq := 0
  accepted : BitVec 32 := 0
  channels : PerFour (Option Channel) := ⟨none, none, none, none⟩
  offsets : List OffsetRec := []
  lastStarted : Option Seq := none
  counts : CueCounts := {}
deriving DecidableEq, Repr

/-! ## The Drive Controller (07) -/

inductive DriveMode where
  | standby | ramping | steady | retryWait | tripped
deriving DecidableEq, Repr

inductive SupplyMode where
  | unjudged | inside | low | high
deriving DecidableEq, Repr

/-- A module record and its enable line (R135). Whether the module is installed follows from the installed module count. -/
structure Module where
  latchedOff : Bool := false
  overRun : Nat := 0
  opened : Nat := 0
  current : Nat := 0
  enable : Bool := true
deriving DecidableEq, Repr

/-- The drive counts, in the order of R152; each is 16 bits and saturates. -/
structure DriveCounts where
  reflectedTrips : Nat := 0
  retriesEnded : Nat := 0
  shutdowns : Nat := 0
  modulesOff : Nat := 0
  clearRequests : Nat := 0
deriving DecidableEq, Repr

structure DriveState where
  mode : DriveMode := .standby
  level : Nat := 0
  /-- The value last sent on the drive line, which the exciter holds (R134). -/
  line : Nat := 0
  power : Nat := 1000
  directive : Nat := 1000
  rfEnabled : Bool := false
  compTheta : Nat := 4095
  effTheta : Nat := 4095
  compRho : Nat := 4095
  effRho : Nat := 4095
  ceiling : Nat := 4095
  supply : SupplyMode := .unjudged
  reflLatch : Bool := false
  shutLatch : Bool := false
  retries : Nat := 0
  retryEnd : Option Int := none
  steadySince : Option Int := none
  reflRun : Nat := 0
  warn : Bool := false
  lowRun : Nat := 0
  forward : Nat := 0
  reflected : Nat := 0
  temperature : Nat := 0
  supplySample : Nat := 0
  modules : PerFour Module := ⟨{}, {}, {}, {}⟩
  counts : DriveCounts := {}
  rampTicks : Nat := 0
  samplesTaken : Nat := 0
deriving DecidableEq, Repr

/-! ## The Alarm Unit (08) -/

/-- An alarm record (R156); the report enable is a setting. -/
structure AlarmRec where
  latched : Bool := false
  setEpoch : BitVec 32 := 0
  count : Nat := 0
deriving DecidableEq, Repr

/-- The level of an alarm-line pin (R166). -/
inductive Pin where
  | high | low | released
deriving DecidableEq, Repr

/-- A notice: its kind code and its body (10.5). -/
structure Notice where
  kind : Byte
  body : List Byte
deriving DecidableEq, Repr

/-- The Alarm Unit; the record of item i stands at place i − 1. -/
structure AlarmState where
  epoch : BitVec 32 := 0
  records : List AlarmRec := List.replicate 36 {}
  notices : List Notice := []
  lost : Bool := false
  alert : Bool := false
  pins : PerFour Pin := ⟨.low, .low, .low, .low⟩
deriving DecidableEq, Repr

/-! ## The Control Link and the settings store (09) -/

/-- A complete request (R169). -/
structure Request where
  kind : Byte
  tag : Byte
  body : List Byte
deriving DecidableEq, Repr

/-- The receiver's framing phase with the bytes received so far (R169): in LENGTH the length bytes; in CONTENT the length and
the bytes from the kind on; in CHECK the same and the CRC bytes. -/
inductive Receiver where
  | hunt
  | length (got : List Byte)
  | content (length : Nat) (got : List Byte)
  | check (length : Nat) (content : List Byte) (got : List Byte)
deriving DecidableEq, Repr

/-- The frame that is being sent. -/
structure TxFrame where
  isReply : Bool
  bytes : List Byte
deriving DecidableEq, Repr

/-- The kind of the frame sent last (R174). -/
inductive LastSent where
  | none | reply | notice
deriving DecidableEq, Repr

/-- A restart asked for (R177): waiting for its reply to leave, or due. -/
inductive RestartMode where
  | none | afterReply | due
deriving DecidableEq, Repr

inductive StartCause where
  | powerOn | restart
deriving DecidableEq, Repr

inductive LoadSource where
  | store | factory
deriving DecidableEq, Repr

/-- What the settings store holds (R180); its default values are the factory defaults (R182). -/
structure Contents where
  params : Params := {}
  power : Nat := 1000
  rfEnabled : Bool := false
  hostMute : Bool := false
  siteOffset : Int := 0
  corr : Int := 0
  services : List Service := []
  plans : List Plan := []
  count : BitVec 32 := 0
deriving DecidableEq, Repr

structure LinkState where
  rx : Receiver := .hunt
  rxLast : Nat := 0
  queue : List Request := []
  reply : Option (List Byte) := none
  tx : Option TxFrame := none
  lastSent : LastSent := .none
  protocolError : Bool := false
  startFlag : Bool := true
  cause : StartCause := .powerOn
  source : LoadSource := .store
  held : Contents := {}
  /-- The stored contents; none when their CRC-32 fails (R182; log 31). -/
  stored : Option Contents := none
  /-- The commit snapshot while the store is busy (R180). -/
  busy : Option Contents := none
  restart : RestartMode := .none
  rate : Nat := 115200
  rateNew : Option Nat := none
  rateDue : Option Nat := none
deriving DecidableEq, Repr

/-! ## What one command reports -/

/-- A SPLICE occasion with the values it had (R130): occasion and reason are the codes of 10.5. -/
structure SpliceNote where
  channel : Four
  avail : Nat
  service : Nat
  occasion : Nat
  reason : Nat
  read : Nat
  seq : Seq
deriving DecidableEq, Repr

/-- A CLIP occasion (R102): the clip, its new state, the rejection reason and the computed CRC. -/
structure ClipNote where
  clip : Nat
  mode : ClipMode
  reason : Option Rejection
  crc : BitVec 32
deriving DecidableEq, Repr

/-- A change of port state in this command: the state before it, and the average at the (last) change (R42). -/
structure PortNote where
  before : PortMode
  average : Nat
deriving DecidableEq, Repr

/-- What the command in progress has reported so far: alarm occurrences and notice occasions, which are taken at its end (R157,
R163; log 9). It is empty between commands. Emission and drive occasions are the codes of 10.5. -/
structure Report where
  items : List Nat := []
  clockNote : Bool := false
  inputNotes : PerInput Bool := ⟨false, false, false⟩
  stepped : Bool := false
  portNotes : PerPort (Option PortNote) := ⟨none, none⟩
  emission : List Nat := []
  splice : List SpliceNote := []
  clips : List ClipNote := []
  drive : List Nat := []
  committed : Option (BitVec 32) := none
deriving DecidableEq, Repr

/-! ## The whole part -/

/-- The state of the SX24 and of the queue before it. `mem` is attached memory: address and byte, addresses strictly rising; a
byte not listed has no value the model knows (log 2). -/
structure State where
  powered : Bool := true
  starts : Nat := 0
  clock : ClockState := {}
  feed : FeedState := {}
  store : StoreState := {}
  em : EmissionState := {}
  clips : ClipState := {}
  splice : SpliceState := {}
  drive : DriveState := {}
  alarms : AlarmState := {}
  link : LinkState := {}
  live : Params := {}
  mem : List Host.Cell := []
  ev : Report := {}
  pending : List Instr := []
deriving DecidableEq, Repr

/-- The reasons for which a step stops with a fault: none. The manual gives every command an effect in every state, so that
nothing stops the part (log 33). -/
inductive Fault where
deriving DecidableEq, Repr

/-- The reasons for which a command is refused. -/
inductive Refusal where
  /-- A command that the model does not give its meaning to; raised only by a refused arm of `exec`, of which there is none.
  Safe: the run stops. -/
  | notModelled (mnemonic : String)
deriving DecidableEq, Repr

/-- The state right after reset: power has come on, and the settings store's CRC-32 has failed (log 1), so that the held contents
are the factory defaults (R182). Every field has the start value of R23, R44, R67, R92, R109, R133, R155, R167 and R182.
SETTINGS LOST has latched with epoch 1 and asserts the alert line, and alarm line 1 shows ANY ALARM (R165, R167). -/
def State.reset : State :=
  { alarms :=
      { epoch := 1
        records := List.replicate 35 {} ++ [{ latched := true, setEpoch := 1, count := 1 }]
        alert := true
        pins := ⟨.high, .low, .low, .low⟩ }
    link := { source := .factory } }

end Sys2Proof.Machine
end

