-- ==== Sys2Proof/Machine/Flags.lean ====
section
/-! DEFINITION. The conditions and codes that rules read from the state: fitness of the clock, the permission to radiate, the
drive's conditions, live conditions, the alert line, the indications and pins of the alarm lines, and the status summary. -/

namespace Sys2Proof.Machine
open Sys2Proof

/-! ## Codes (10.5) -/

def clockCode : ClockMode → Nat
  | .free => 0
  | .acquiring => 1
  | .locked => 2
  | .holdover => 3
  | .expired => 4

def inputCode : InputMode → Nat
  | .absent => 0
  | .qualifying => 1
  | .qualified => 2
  | .suspect => 3
  | .disqualified => 4

def portCode : PortMode → Nat
  | .disabled => 0
  | .dark => 1
  | .searching => 2
  | .good => 3
  | .impaired => 4
  | .failed => 5

def emissionCode : EmissionMode → Nat
  | .off => 0
  | .anchoring => 1
  | .running => 2

def driveCode : DriveMode → Nat
  | .standby => 0
  | .ramping => 1
  | .steady => 2
  | .retryWait => 3
  | .tripped => 4

def supplyCode : SupplyMode → Nat
  | .unjudged => 0
  | .inside => 1
  | .low => 2
  | .high => 3

def clipCode : ClipMode → Nat
  | .empty => 0
  | .loading => 1
  | .verifying => 2
  | .ready => 3
  | .rejected => 4

def rejectionCode : Option Rejection → Nat
  | none => 0
  | some .crc => 1
  | some .streams => 2
  | some .sync => 3
  | some .coverage => 4

def cueCode : CueMode → Nat
  | .waiting => 0
  | .unfilled => 1
  | .armed => 2
  | .active => 3

/-- An input, port or channel number, 0 for none. -/
def inputNum : Option InputId → Nat
  | none => 0
  | some n => n.num

def portNum : Option PortId → Nat
  | none => 0
  | some p => p.num

def channelNum : Option Four → Nat
  | none => 0
  | some n => n.num

def muteBits (m : MuteSet) : Nat := flagBits [m.feed, m.time, m.network, m.host]

/-! ## The clock -/

/-- The largest value of the time uncertainty, 2^32 − 1 (R18). -/
def maxUncertainty : Nat := 4294967295

/-- u exceeds g × 1000 (R17, R18). -/
def beyondGuard (s : State) : Bool := s.live.clock.guardLimit * 1000 < s.clock.u

/-- The clock is fit: LOCKED, or HOLDOVER with u at most g × 1000 (R74). -/
def clockFit (s : State) : Bool :=
  match s.clock.mode with
  | .locked => true
  | .holdover => !beyondGuard s
  | _ => false

/-! ## Emission and the drive -/

def MuteSet.isEmpty (m : MuteSet) : Bool := !(m.feed || m.time || m.network || m.host)

/-- The permission to radiate: RUNNING with an empty mute-reason set (R68). -/
def permission (s : State) : Bool := s.em.mode == .running && s.em.mute.isEmpty

/-- The five conditions of R139, in the order listed there. -/
def driveConditions (s : State) : List Bool :=
  [permission s, s.drive.rfEnabled, s.drive.supply == .inside, !(s.drive.reflLatch || s.drive.shutLatch), s.drive.mode != .retryWait]

/-- The drive is permitted (R139). -/
def permitted (s : State) : Bool := (driveConditions s).all id

/-- Module n is installed when n is at most the installed module count (R135). -/
def moduleInstalled (s : State) (n : Four) : Bool := n.num ≤ s.live.drive.installed

/-- A module is healthy when it is installed and not latched off (R135). -/
def moduleHealthy (s : State) (n : Four) : Bool := moduleInstalled s n && !(s.drive.modules.get n).latchedOff

def healthyCount (s : State) : Nat := (Four.all.filter (moduleHealthy s)).length

def installedCount (s : State) : Nat := (Four.all.filter (moduleInstalled s)).length

/-- The level of a power figure in 0.1 % (R136). -/
def levelOf (power : Nat) : Nat := (power * 4095 + 500) / 1000

/-- The ceiling that the present limits and modules give (R138). -/
def ceilingOf (s : State) : Nat :=
  min (min (levelOf s.drive.power) (levelOf s.drive.directive)) (min s.drive.effTheta s.drive.effRho) * healthyCount s / installedCount s

/-- The temperature of a sample, in 0.1 °C (R143). -/
def tempOf (sample : Nat) : Int := (sample : Int) - 400

/-! ## Alarms (08) -/

/-- The items with a live condition (section 8.1). -/
def hasLive (item : Nat) : Bool :=
  [1, 2, 4, 5, 6, 8, 9, 10, 11, 13, 21, 22, 23, 24, 25, 26, 27, 28, 29, 30, 31, 32, 33, 34, 35].contains item

def inputLost (s : State) (n : InputId) : Bool := (s.clock.inputs.get n).mode == .disqualified

def portImpaired (s : State) (p : PortId) : Bool := (s.feed.ports.get p).mode == .impaired

/-- FEED x FAILED is live while the port is FAILED, DARK or SEARCHING (R42). -/
def portFailed (s : State) (p : PortId) : Bool :=
  match (s.feed.ports.get p).mode with
  | .failed | .dark | .searching => true
  | _ => false

def moduleOpen (s : State) (n : Four) : Bool := (s.drive.modules.get n).opened == s.live.drive.moduleFilter

/-- The live condition of an item, read from its owner (section 8.1; R20, R42, R90, R152). -/
def liveCondition (s : State) (item : Nat) : Bool :=
  match item with
  | 1 => s.clock.mode == .holdover
  | 2 => s.clock.mode == .expired
  | 4 => inputLost s .in1
  | 5 => inputLost s .in2
  | 6 => inputLost s .in3
  | 8 => portImpaired s .a
  | 9 => portImpaired s .b
  | 10 => portFailed s .a
  | 11 => portFailed s .b
  | 13 => s.em.mute.feed
  | 21 => s.drive.mode == .retryWait
  | 22 => s.drive.reflLatch
  | 23 => s.drive.warn
  | 24 => s.drive.shutLatch
  | 25 => s.drive.supply == .low
  | 26 => s.drive.supply == .high
  | 27 => s.drive.modules.n1.latchedOff
  | 28 => s.drive.modules.n2.latchedOff
  | 29 => s.drive.modules.n3.latchedOff
  | 30 => s.drive.modules.n4.latchedOff
  | 31 => moduleOpen s .n1
  | 32 => moduleOpen s .n2
  | 33 => moduleOpen s .n3
  | 34 => moduleOpen s .n4
  | 35 => s.drive.lowRun == 500
  | _ => false

/-- The record of an item 1 to 36. -/
def alarmRec (s : State) (item : Nat) : AlarmRec := s.alarms.records.getD (item - 1) {}

/-- The report enable of an item 1 to 36 (R156). -/
def reportEnabled (s : State) (item : Nat) : Bool := s.live.alarm.report.getD (item - 1) false

/-- The enable of a notice kind, counted from 0 in the order of section 8.5 (R163). -/
def noticeEnabled (s : State) (kind : Nat) : Bool := s.live.alarm.notice.getD kind false

/-- The item numbers 1 to 36. -/
def items : List Nat := (List.range 36).map (· + 1)

/-- The alert line is asserted while an item has its latch set and its report enable yes (R162). -/
def alertOf (s : State) : Bool := items.any (fun i => (alarmRec s i).latched && reportEnabled s i)

/-- The channel is ACTIVE (R165, sources 40 to 43). -/
def channelActive (s : State) (n : Four) : Bool :=
  match s.splice.channels.get n with
  | some c => c.active
  | none => false

/-- The indication of an alarm line (R165). `alert` is the alert line. -/
def indication (s : State) (alert : Bool) (l : LineParams) : Bool :=
  match l.source with
  | 0 => l.direct
  | 37 => alert
  | 38 => s.drive.mode == .steady
  | 39 => s.clock.mode == .locked
  | 40 => channelActive s .n1
  | 41 => channelActive s .n2
  | 42 => channelActive s .n3
  | 43 => channelActive s .n4
  | i => i ≤ 36 && (alarmRec s i).latched

/-- The pin of an alarm line from its indication, polarity and output mode (R166). -/
def pinOf (l : LineParams) (shown : Bool) : Pin :=
  match l.openDrain, l.activeLow, shown with
  | false, false, true => .high
  | false, false, false => .low
  | false, true, true => .low
  | false, true, false => .high
  | true, false, true => .released
  | true, false, false => .low
  | true, true, true => .low
  | true, true, false => .released

/-! ## The status summary (R173, 10.3) -/

def statusSummary (s : State) : List Byte :=
  [BitVec.ofNat 8 (flagBits [s.alarms.alert, s.link.startFlag, s.link.protocolError, s.alarms.lost, s.link.busy.isSome]),
   BitVec.ofNat 8 (clockCode s.clock.mode + 16 * emissionCode s.em.mode),
   BitVec.ofNat 8 (driveCode s.drive.mode),
   BitVec.ofNat 8 (muteBits s.em.mute)]

end Sys2Proof.Machine
end

