-- ==== Sys2Proof/Machine/Memory.lean ====
section
/-! DEFINITION. Attached memory: a list of (address, byte) pairs, addresses strictly rising, every address below 268,435,456. An
address that is not listed has no value (log 2). -/

namespace Sys2Proof.Machine
open Sys2Proof

/-- Attached memory's contents (00, "Attached memory"). -/
abbrev Memory := List Host.Cell

/-- The canonical form: addresses strictly rise, and each lies in attached memory. -/
def Memory.wf : Memory → Bool
  | [] => true
  | [c] => c.1 < Config.memoryBytes
  | c :: d :: rest => c.1 < d.1 && Memory.wf (d :: rest)

/-- The byte at an address, or none where nothing has been written since the start. -/
def Memory.read : Memory → Nat → Option Byte
  | [], _ => none
  | c :: rest, a => if c.1 = a then some c.2 else Memory.read rest a

/-- The cells of a block of bytes from an address on. -/
def Memory.cells (a : Nat) : List Byte → Memory
  | [] => []
  | b :: bs => (a, b) :: Memory.cells (a + 1) bs

/-- A block written at an address. No command writes outside attached memory (log 33); a byte that would lie outside is not
stored. -/
def Memory.write (m : Memory) (a : Nat) (bs : List Byte) : Memory :=
  m.filter (fun c => c.1 < a) ++ Memory.cells a (bs.take (Config.memoryBytes - a)) ++ m.filter (fun c => a + bs.length ≤ c.1)

end Sys2Proof.Machine
end

