-- ==== Sys2Proof/Machine/Ops.lean ====
section
/-! DEFINITION. The named operations that every block uses: one update per block of the state, the reports a block makes while a
command runs, the Alarm Unit's latching and notice queue, and reads and writes of attached memory. -/

namespace Sys2Proof.Machine
open Sys2Proof

/-! ## One update per block -/

def State.setClock (s : State) (x : ClockState) : State := { s with clock := x }
def State.setFeed (s : State) (x : FeedState) : State := { s with feed := x }
def State.setStore (s : State) (x : StoreState) : State := { s with store := x }
def State.setEm (s : State) (x : EmissionState) : State := { s with em := x }
def State.setClips (s : State) (x : ClipState) : State := { s with clips := x }
def State.setSplice (s : State) (x : SpliceState) : State := { s with splice := x }
def State.setDrive (s : State) (x : DriveState) : State := { s with drive := x }
def State.setAlarms (s : State) (x : AlarmState) : State := { s with alarms := x }
def State.setLink (s : State) (x : LinkState) : State := { s with link := x }
def State.setLive (s : State) (x : Params) : State := { s with live := x }
def State.setMem (s : State) (x : Memory) : State := { s with mem := x }
def State.setEv (s : State) (x : Report) : State := { s with ev := x }

/-! ## Reports made while a command runs (log 9) -/

/-- An owner reports an occurrence of an alarm item; the Alarm Unit takes it at the end of the command (R157). -/
def occur (item : Nat) (s : State) : State := s.setEv { s.ev with items := s.ev.items ++ [item] }

/-- A change of clock state or of governing input (R20). -/
def noteClock (s : State) : State := s.setEv { s.ev with clockNote := true }

/-- A change of an input's state (R20). -/
def noteInput (n : InputId) (s : State) : State := s.setEv { s.ev with inputNotes := s.ev.inputNotes.set n true }

/-- An occasion of an EMISSION notice, by its code (R90, 10.5). -/
def noteEmission (occasion : Nat) (s : State) : State := s.setEv { s.ev with emission := s.ev.emission ++ [occasion] }

/-- An occasion of a DRIVE notice, by its code (R152, 10.5). -/
def noteDrive (occasion : Nat) (s : State) : State := s.setEv { s.ev with drive := s.ev.drive ++ [occasion] }

/-- An occasion of a SPLICE notice (R130). -/
def noteSplice (n : SpliceNote) (s : State) : State := s.setEv { s.ev with splice := s.ev.splice ++ [n] }

/-- An occasion of a CLIP notice (R102). -/
def noteClip (n : ClipNote) (s : State) : State := s.setEv { s.ev with clips := s.ev.clips ++ [n] }

/-! ## The Alarm Unit: the notice queue and the latches (R157, R158, R163) -/

/-- The notice kind codes 0xF0 to 0xF7 in the order of section 8.5 (10.5). -/
def noticeKind (kind : Nat) : Byte := BitVec.ofNat 8 (0xF0 + kind)

/-- A notice offered at an occasion of its kind, numbered from 0 (R163): formed only when the kind is enabled, queued when the
queue holds fewer than 16, and otherwise dropped with the notices-lost flag set. -/
def offerNotice (kind : Nat) (body : List Byte) (s : State) : State :=
  if noticeEnabled s kind then
    if s.alarms.notices.length < 16 then
      s.setAlarms { s.alarms with notices := s.alarms.notices ++ [⟨noticeKind kind, body⟩] }
    else s.setAlarms { s.alarms with lost := true }
  else s

/-- A set latch that would lie 2^31 or more behind the epoch `e` is brought forward (R158). -/
def ageRecord (e : BitVec 32) (r : AlarmRec) : AlarmRec :=
  if r.latched && 0x80000000 ≤ (e - r.setEpoch).toNat then { r with setEpoch := e - 0x80000000 + 1 } else r

/-- The setting of a clear latch: the epoch is incremented with the ageing of R158, the latch takes it with a count of 1, and an
ALARM notice is queued where the item's report enable allows (R157, R160). -/
def setLatch (item : Nat) (s : State) : State :=
  let e := s.alarms.epoch + 1
  let s := s.setAlarms
    { s.alarms with
      epoch := e
      records := (s.alarms.records.map (ageRecord e)).set (item - 1) { latched := true, setEpoch := e, count := 1 } }
  if reportEnabled s item then offerNotice 0 (be 1 item ++ be 4 e.toNat) s else s

/-- An occurrence of an item at the Alarm Unit (R157). -/
def latchItem (s : State) (item : Nat) : State :=
  let r := alarmRec s item
  if r.latched then
    s.setAlarms { s.alarms with records := s.alarms.records.set (item - 1) { r with count := sat 65535 (r.count + 1) } }
  else setLatch item s

/-- The alert line and every alarm-line pin, judged afresh (R162, R165, R166). -/
def judgeLines (s : State) : State :=
  let alert := alertOf s
  s.setAlarms { s.alarms with alert := alert, pins := s.live.alarm.lines.map (fun l => pinOf l (indication s alert l)) }

/-! ## Attached memory -/

/-- The bytes of a packet that lies at an address of attached memory. A byte that nothing has written since the start has a free
value (R96; log 2). -/
def readPacket (s : State) (a : Nat) : Packet :=
  let window := s.mem.filter (fun c => a ≤ c.1 && c.1 < a + 188)
  (List.range 188).map (fun i => (Memory.read window (a + i)).getD (Config.powerUpByte s.starts (a + i)))

/-- Packets written one after another from an address on. -/
def writePackets (s : State) (a : Nat) (ps : List Packet) : State := s.setMem (Memory.write s.mem a ps.flatten)

/-- The address of packet j of a slot (03, section 3.1). -/
def slotAddress (slot j : Nat) : Nat := slot * Config.slotBytes + j * 188

/-- The address of a packet position of the clip region (05, section 5.2). -/
def clipAddress (position : Nat) : Nat := Config.clipBase + position * 188

end Sys2Proof.Machine
end

