-- ==== Sys2Proof/Machine/DriveOps.lean ====
section
/-! DEFINITION. The Drive Controller's shared operations: the level, the drive states, the ceiling, permission, trips, and the parts
of a monitoring sample (07). -/

namespace Sys2Proof.Machine
open Sys2Proof

/-! ## Level and drive states -/

/-- The level, sent on the drive line in the event that changes it (R134). -/
def setLevel (level : Nat) (s : State) : State := s.setDrive { s.drive with level := level, line := level }

/-- Entry to STEADY: the steady-since time is the current site time (R140). -/
def enterSteady (occasion : Nat) (s : State) : State :=
  noteDrive occasion (s.setDrive { s.drive with mode := .steady, steadySince := some s.clock.time })

/-- In RAMPING the state becomes STEADY whenever the level equals the ceiling (R140). -/
def steadyAtCeiling (occasion : Nat) (s : State) : State :=
  if s.drive.mode = .ramping ∧ s.drive.level = s.drive.ceiling then enterSteady occasion s else s

/-- Entry to RAMPING; with ramp time code 0 the level is set to the ceiling in the same event (R140, R141). The code read is the one
that stands at the entry (log 48). An entry to STEADY in the same event is given the occasion of the entry to RAMPING (log 54). -/
def enterRamping (occasion : Nat) (s : State) : State :=
  let s := noteDrive occasion (s.setDrive { s.drive with mode := .ramping, steadySince := none })
  let s := if s.live.drive.rampCode = 0 then setLevel s.drive.ceiling s else s
  steadyAtCeiling occasion s

/-- Entry to STANDBY, RETRY_WAIT or TRIPPED: the level and the reflected run become 0 (R139, R144, R146). -/
def enterSilent (mode : DriveMode) (occasion : Nat) (s : State) : State :=
  let s := setLevel 0 s
  noteDrive occasion (s.setDrive { s.drive with mode := mode, reflRun := 0, steadySince := none })

/-! ## The ceiling -/

/-- The ceiling computed afresh; a level above it comes down to it at once (R138). -/
def lowerToCeiling (s : State) : State :=
  if ceilingOf s < s.drive.level then setLevel (ceilingOf s) (s.setDrive { s.drive with ceiling := ceilingOf s })
  else s.setDrive { s.drive with ceiling := ceilingOf s }

/-- What the drive state makes of a ceiling that stood at `old`: a rise leaves the level to the ramp (R140), but with ramp time
code 0 a rise while RAMPING takes it along (R141), by the code that stands at the rise (log 48). -/
def followCeiling (old : Nat) (s : State) : State :=
  match s.drive.mode with
  | .ramping =>
    steadyAtCeiling 3 (if s.live.drive.rampCode = 0 ∧ old < s.drive.ceiling then setLevel s.drive.ceiling s else s)
  | .steady => if s.drive.level < s.drive.ceiling then enterRamping 3 s else s
  | _ => s

/-- The ceiling recomputed (R138). -/
def recomputeCeiling (s : State) : State := followCeiling s.drive.ceiling (lowerToCeiling s)

/-- The directive power, clamped into 0 to 1000 (R86, R136). -/
def setDirectivePower (p : Int) (s : State) : State :=
  recomputeCeiling (s.setDrive { s.drive with directive := (clamp 0 1000 p).toNat })

/-! ## Permission -/

/-- Permission judged afresh (R139, R140): gained in STANDBY it begins a ramp; lost in STANDBY, RAMPING or STEADY it brings the
level to 0 and the state to STANDBY; in RETRY_WAIT and TRIPPED the state is kept. -/
def judgePermission (s : State) : State :=
  match s.drive.mode with
  | .standby => if permitted s then enterRamping 1 s else s
  | .ramping => if permitted s then s else enterSilent .standby 1 s
  | .steady => if permitted s then s else enterSilent .standby 1 s
  | _ => s

/-! ## Site time -/

/-- A step event moves the retry end time and the steady-since time by Δ (R145). -/
def moveDriveTimes (delta : Int) (s : State) : State :=
  s.setDrive { s.drive with
    retryEnd := s.drive.retryEnd.map (· + delta)
    steadySince := s.drive.steadySince.map (· + delta) }

/-! ## The parts of a monitoring sample, in the order of R143 -/

/-- The supply state after a sample; the first row of R147's table that fits decides. -/
def supplyAfter (p : DriveParams) (m : SupplyMode) (v : Nat) : SupplyMode :=
  if m = .unjudged ∧ p.supplyLow ≤ v ∧ v ≤ p.supplyHigh then .inside
  else if m ≠ .low ∧ v < p.supplyLow then .low
  else if m ≠ .high ∧ p.supplyHigh < v then .high
  else if (m = .low ∨ m = .high) ∧ p.supplyLow + p.supplyHyst ≤ v ∧ v + p.supplyHyst ≤ p.supplyHigh then .inside
  else m

/-- Step 1: the supply window (R147). -/
def judgeSupply (v : Nat) (s : State) : State :=
  let m := supplyAfter s.live.drive s.drive.supply v
  let entered := decide (m ≠ s.drive.supply)
  let s := s.setDrive { s.drive with supply := m }
  if entered && m == .low then occur 25 s
  else if entered && m == .high then occur 26 s
  else s

/-- The temperature warning flag (R146). -/
def judgeWarning (theta : Int) (s : State) : State :=
  let p := s.live.drive
  if !s.drive.warn && (p.tempWarn : Int) ≤ theta then occur 23 (s.setDrive { s.drive with warn := true })
  else if s.drive.warn && theta < (p.tempWarn : Int) - p.tempHyst then s.setDrive { s.drive with warn := false }
  else s

/-- The temperature shutdown: from any drive state to TRIPPED (R146). -/
def judgeShutdown (theta : Int) (s : State) : State :=
  if !s.drive.shutLatch && (s.live.drive.tempShut : Int) ≤ theta then
    let s := s.setDrive { s.drive with
      shutLatch := true
      retryEnd := none
      counts := { s.drive.counts with shutdowns := sat 65535 (s.drive.counts.shutdowns + 1) } }
    let s := occur 24 s
    if s.drive.mode = .tripped then s else enterSilent .tripped 5 s
  else s

/-- Step 2: the temperature (R146). -/
def judgeTemperature (theta : Int) (s : State) : State := judgeShutdown theta (judgeWarning theta s)

/-- One module's overcurrent check (R148). -/
def judgeOvercurrent (current : Nat) (n : Four) (s : State) : State :=
  if moduleHealthy s n then
    let m := s.drive.modules.get n
    let run := if s.live.drive.overThreshold < current then sat 15 (m.overRun + 1) else 0
    if s.live.drive.moduleFilter ≤ run then
      let s := s.setDrive { s.drive with
        modules := s.drive.modules.set n { m with latchedOff := true, enable := false, overRun := 0, opened := 0 }
        counts := { s.drive.counts with modulesOff := sat 65535 (s.drive.counts.modulesOff + 1) } }
      noteDrive 8 (occur (26 + n.num) s)
    else s.setDrive { s.drive with modules := s.drive.modules.set n { m with overRun := run } }
  else s

/-- One module's open check (R149). -/
def judgeOpen (current : Nat) (n : Four) (s : State) : State :=
  if moduleHealthy s n then
    let m := s.drive.modules.get n
    let filter := s.live.drive.moduleFilter
    let run := if 410 ≤ s.drive.level ∧ current < s.live.drive.openThreshold then min (m.opened + 1) filter else 0
    let s' := s.setDrive { s.drive with modules := s.drive.modules.set n { m with opened := run } }
    if run = filter ∧ m.opened ≠ filter then occur (30 + n.num) s' else s'
  else s

/-- Step 3: one module's current, kept and judged (R148, R149). -/
def judgeModule (current : PerFour Nat) (s : State) (n : Four) : State :=
  let s := s.setDrive { s.drive with modules := s.drive.modules.set n { s.drive.modules.get n with current := current.get n } }
  judgeOpen (current.get n) n (judgeOvercurrent (current.get n) n s)

/-- A reflected trip, judged against the retry counter (R144). -/
def reflectedTrip (s : State) : State :=
  let s := occur 21 (s.setDrive { s.drive with
    reflRun := 0
    counts := { s.drive.counts with reflectedTrips := sat 65535 (s.drive.counts.reflectedTrips + 1) } })
  if s.drive.retries < s.live.drive.retryLimit then
    let s := enterSilent .retryWait 4 s
    s.setDrive { s.drive with
      retries := s.drive.retries + 1
      retryEnd := some (s.clock.time + (s.live.drive.retryDelay * Config.second : Nat)) }
  else
    let s := occur 22 (s.setDrive { s.drive with reflLatch := true })
    enterSilent .tripped 4 s

/-- Step 4: the reflected run (R144). -/
def judgeReflected (rho : Nat) (s : State) : State :=
  if s.drive.mode = .ramping ∨ s.drive.mode = .steady then
    let run := if s.live.drive.reflTrip ≤ rho then sat 15 (s.drive.reflRun + 1) else 0
    let s := s.setDrive { s.drive with reflRun := run }
    if s.live.drive.reflFilter ≤ run then reflectedTrip s else s
  else s

/-- A computed foldback limit (R137). -/
def foldback (gain : Nat) (value knee : Int) : Nat := (clamp 0 4095 (4095 - gain * max 0 (value - knee))).toNat

/-- The effective limit after a computed one (R137). -/
def effectiveAfter (hysteresis computed effective : Nat) : Nat :=
  if computed < effective then computed
  else if computed = 4095 then 4095
  else if effective + hysteresis < computed then computed
  else effective

/-- Step 5: the foldback limits move and the ceiling is recomputed (R137, R138). -/
def judgeFoldback (theta : Int) (rho : Nat) (s : State) : State :=
  let p := s.live.drive
  let ct := foldback p.tempGain theta p.tempKnee
  let cr := foldback p.reflGain rho p.reflKnee
  recomputeCeiling (s.setDrive { s.drive with
    compTheta := ct
    compRho := cr
    effTheta := effectiveAfter p.foldHyst ct s.drive.effTheta
    effRho := effectiveAfter p.foldHyst cr s.drive.effRho })

/-- Step 6: low output, against the level that results (R150); the drive state, too, is the one that results from the steps before
(log 58). -/
def judgeLowOutput (forward : Nat) (s : State) : State :=
  if s.drive.mode = .steady ∧ forward * 1000 < s.drive.level * (1000 - s.live.drive.lowTol) then
    let s' := s.setDrive { s.drive with lowRun := min 500 (s.drive.lowRun + 1) }
    if s.drive.lowRun = 499 then occur 35 s' else s'
  else s.setDrive { s.drive with lowRun := 0 }

/-! ## Modules -/

/-- A write of the installed module count (R135): a module leaving the installed set has its enable line off and its flag and runs
cleared; one entering it is enabled with its runs at 0. A latched-off module that leaves is re-enabled thereby (R148), which is an
occasion of a DRIVE notice (R152). -/
def installedWrite (count : Nat) (s : State) : State :=
  let one (n : Four) (m : Module) : Module :=
    if n.num ≤ count ∧ ¬ n.num ≤ s.live.drive.installed then { m with latchedOff := false, enable := true, overRun := 0, opened := 0 }
    else if ¬ n.num ≤ count ∧ n.num ≤ s.live.drive.installed then { m with latchedOff := false, enable := false, overRun := 0, opened := 0 }
    else m
  let ms := s.drive.modules
  let released (n : Four) : Bool := (ms.get n).latchedOff && decide (¬ n.num ≤ count ∧ n.num ≤ s.live.drive.installed)
  let s := if Four.all.any released then noteDrive 9 s else s
  let s := s.setDrive { s.drive with modules := ⟨one .n1 ms.n1, one .n2 ms.n2, one .n3 ms.n3, one .n4 ms.n4⟩ }
  recomputeCeiling (s.setLive { s.live with drive := { s.live.drive with installed := count } })

/-- One module re-enabled by CLEAR TRIPS (R151). -/
def reEnable (s : State) (n : Four) : State :=
  let m := s.drive.modules.get n
  if m.latchedOff then
    noteDrive 9 (s.setDrive { s.drive with
      modules := s.drive.modules.set n { m with latchedOff := false, enable := moduleInstalled s n, overRun := 0, opened := 0 } })
  else s

end Sys2Proof.Machine
end

