-- ==== Sys2Proof/Machine/Event.lean ====
section
/-! DEFINITION. The end of a command: what it reported is taken by the Alarm Unit and queued as notices, and the lines are judged
(R157, R162 to R166). Then the forming of replies, the dispatch of a request, and the transmitter (R171 to R174, R185). Every
command of the model is `event` applied to its effect. -/

namespace Sys2Proof.Machine
open Sys2Proof

abbrev Outcome := Host.Outcome State Fault Refusal

/-! ## Notice bodies (10.5) -/

/-- A CLOCK notice; `n` is the input whose state changed (R20). -/
def clockNotice (s : State) (n : Option InputId) : List Byte :=
  be 1 (clockCode s.clock.mode) ++ be 1 (inputNum s.clock.governing) ++ be 1 (inputNum n) ++
  be 1 (match n with | some i => inputCode (s.clock.inputs.get i).mode | none => 0) ++ flagByte s.ev.stepped

/-- The CLOCK notices of a command: one for each input whose state changed, or one when none did (R20). -/
def clockNotices (s : State) : List (List Byte) :=
  match InputId.all.filter s.ev.inputNotes.get with
  | [] => if s.ev.clockNote || s.ev.stepped then [clockNotice s none] else []
  | ns => ns.map (fun n => clockNotice s (some n))

/-- A FEED notice (R42). -/
def feedNotice (s : State) (p : PortId) : List (List Byte) :=
  match s.ev.portNotes.get p with
  | some n => [be 1 p.num ++ be 1 (portCode n.before) ++ be 1 (portCode (s.feed.ports.get p).mode) ++ be 2 n.average]
  | none => []

/-- The anchor sequence, or 0 when there is no anchor. -/
def anchorSeq (s : State) : Seq :=
  match s.em.anchor with
  | some a => a.seq
  | none => 0

/-- The EMISSION notice of a command names the first of its occasions in the order of R90. -/
def emissionNotice (s : State) : List (List Byte) :=
  match s.ev.emission.min? with
  | some o => [be 1 (emissionCode s.em.mode) ++ be 1 (muteBits s.em.mute) ++ be 1 o ++ be 2 (anchorSeq s).toNat]
  | none => []

/-- A SPLICE notice (R130). -/
def spliceNotice (n : SpliceNote) : List Byte :=
  be 1 n.channel.num ++ be 2 n.avail ++ be 2 n.service ++ be 1 n.occasion ++ be 1 n.reason ++ be 4 n.read ++ be 2 n.seq.toNat

/-- The SPLICE notices of a command, in channel order (R130; log 11). -/
def spliceNotices (s : State) : List (List Byte) :=
  (Four.all.flatMap (fun c => s.ev.splice.filter (fun n => n.channel = c))).map spliceNotice

/-- A CLIP notice (R102). -/
def clipNotice (n : ClipNote) : List Byte :=
  be 1 n.clip ++ be 1 (clipCode n.mode) ++ be 1 (rejectionCode n.reason) ++ be 4 n.crc.toNat

/-- The set of healthy modules: bit n − 1 for module n (10.5). -/
def healthyBits (s : State) : Nat := flagBits (Four.all.map (moduleHealthy s))

/-- The DRIVE notice of a command names the first of its occasions in the order of R152. -/
def driveNotice (s : State) : List (List Byte) :=
  match s.ev.drive.min? with
  | some o => [be 1 (driveCode s.drive.mode) ++ be 2 s.drive.level ++ be 2 s.drive.ceiling ++ be 1 s.drive.retries ++
      be 1 (healthyBits s) ++ be 1 o]
  | none => []

/-- The SETTINGS notice (R180). -/
def settingsNotice (s : State) : List (List Byte) :=
  match s.ev.committed with
  | some c => [be 4 c.toNat]
  | none => []

/-- Every notice of a command other than ALARM, with its kind counted from 0, in the order of section 8.5 (log 9). -/
def noticesOf (s : State) : List (Nat × List Byte) :=
  (clockNotices s).map (1, ·) ++ (feedNotice s .a ++ feedNotice s .b).map (2, ·) ++ (emissionNotice s).map (3, ·) ++
  (spliceNotices s).map (4, ·) ++ (s.ev.clips.map clipNotice).map (5, ·) ++ (driveNotice s).map (6, ·) ++
  (settingsNotice s).map (7, ·)

/-! ## The end of a command -/

/-- The occurrences of a command, in ascending item number (R157). -/
def occurrences (s : State) : List Nat := items.flatMap (fun i => s.ev.items.filter (· = i))

/-- The occurrences latch, item by item (R157). -/
def latchAll (s : State) : State := (occurrences s).foldl latchItem s

/-- The notices of a command are offered to the queue (R163). -/
def queueNotices (s : State) : State := (noticesOf s).foldl (fun s n => offerNotice n.1 n.2 s) s

/-- The end of a command: permission is judged (R139; log 10), the occurrences latch, the notices are queued, the lines are
judged, and nothing reported remains. The enables read are those that stand at the end (log 49). -/
def closeEvent (s : State) : State :=
  (judgeLines (queueNotices (latchAll (judgePermission s)))).setEv {}

/-! ## Replies (R172, R185) -/

/-- The result codes of 10.3. -/
inductive Result where
  | ok | adjusted | refusedState | badParameter | notFound | noRoom | busy | unknown
deriving DecidableEq, Repr

def resultCode : Result → Nat
  | .ok => 0
  | .adjusted => 1
  | .refusedState => 2
  | .badParameter => 3
  | .notFound => 4
  | .noRoom => 5
  | .busy => 6
  | .unknown => 7

/-- What an owner answers to a request: the state after it, the result, and the owner's body. -/
structure Answer where
  state : State
  result : Result
  body : List Byte

/-- Carried out, with a body. -/
def ok (s : State) (body : List Byte := []) : Answer := ⟨s, .ok, body⟩

/-- Answered with a result other than OK or ADJUSTED: nothing changes and the body is empty (R172). -/
def turnDown (s : State) (r : Result) : Answer := ⟨s, r, []⟩

/-- A frame of the control link: start byte, length, kind, tag, body, CRC-16 (section 9.2, 10.3). -/
def linkFrame (kind tag : Byte) (body : List Byte) : List Byte :=
  let content := be 2 (body.length + 2) ++ [kind, tag] ++ body
  [0xA5] ++ content ++ be 2 (crc16 content).toNat

/-- The reply frame to a request: its kind with bit 7 set, its tag, the result code, the status summary as the state stands, and
the owner's body for OK and ADJUSTED (R172, R185). -/
def replyFrame (s : State) (kind tag : Byte) (result : Result) (body : List Byte) : List Byte :=
  let owner := if result = .ok ∨ result = .adjusted then body else []
  linkFrame (kind ||| 0x80) tag (be 1 (resultCode result) ++ statusSummary s ++ owner)

/-- The forming of a reply: the frame goes into the reply buffer, and the two flags that are cleared when they are reported are
cleared (R170, R164). -/
def formReply (kind tag : Byte) (a : Answer) : State :=
  let s := closeEvent a.state
  let frame := replyFrame s kind tag a.result a.body
  let s := s.setAlarms { s.alarms with lost := false }
  s.setLink { s.link with reply := some frame, protocolError := false }

/-- No restart is pending (R177), and the line rate in use is the one that holds: a rate whose reply has left holds from the instant
the reply left, so that nothing is dispatched or sent before LINE_RATE_APPLY has put it in use (R168; log 27). -/
def lineSettled (s : State) : Bool := s.link.restart == .none && s.link.rateDue.isNone

/-- A request can be dispatched at once: the reply buffer is empty, no request waits, and the line is settled (R171). -/
def linkFree (s : State) : Bool := s.link.reply.isNone && s.link.queue.isEmpty && lineSettled s

/-- A complete request (R171): dispatched at once where the link is free; otherwise queued, or, with 4 in the queue, discarded
with the protocol-error flag set. -/
def submit (kind tag : Byte) (body : List Byte) (op : State → Answer) (s : State) : State :=
  if linkFree s then formReply kind tag (op s)
  else if s.link.queue.length < 4 then
    s.setLink { s.link with queue := s.link.queue ++ [⟨kind, tag, body⟩] }
  else s.setLink { s.link with protocolError := true }

/-! ## The transmitter (R174) -/

/-- The reply in the reply buffer starts. -/
def sendReply (s : State) (frame : List Byte) : State :=
  s.setLink { s.link with tx := some ⟨true, frame⟩, lastSent := .reply }

/-- The head notice leaves the queue and starts (R164); its frame has tag 0 (R185). -/
def sendNotice (s : State) (n : Notice) (rest : List Notice) : State :=
  let s := s.setAlarms { s.alarms with notices := rest }
  s.setLink { s.link with tx := some ⟨false, linkFrame n.kind 0 n.body⟩, lastSent := .notice }

/-- A free transmitter takes the next frame at once: of a reply and a notice that both wait, the notice after a reply, and the
reply otherwise (R174). Nothing starts at the instant of a restart (R177), nor before a new line rate is in use (R168). -/
def transmit (s : State) : State :=
  if s.link.tx.isSome || s.link.restart == .due || s.link.rateDue.isSome then s
  else
    match s.link.reply, s.alarms.notices with
    | none, [] => s
    | some f, [] => sendReply s f
    | none, n :: rest => sendNotice s n rest
    | some f, n :: rest => if s.link.lastSent = .reply then sendNotice s n rest else sendReply s f

/-! ## Commands -/

/-- A command with its effect: what it reports is closed and the transmitter chooses. Without power nothing happens (log 21). -/
def event (effect : State → State) (s : State) : Outcome :=
  if s.powered then .next (transmit (closeEvent (effect (s.setEv {})))) else .next s

/-- A request command: the request is complete and its owner answers with `op` (log 5). -/
def request (kind tag : Byte) (body : List Byte) (op : State → Answer) (s : State) : Outcome :=
  event (submit kind tag body op) s

/-- The reports that take a `clear` parameter: above 1 it is BAD_PARAMETER; with 1 the counts are set to 0 after the report. -/
def reportAndClear (clear : Byte) (body : List Byte) (cleared : State → State) (s : State) : Answer :=
  if 1 < clear.toNat then turnDown s .badParameter
  else if clear = 1 then ok (cleared s) body
  else ok s body

end Sys2Proof.Machine
end

