-- ==== Sys2Proof/Machine/Operands.lean ====
section
/-! DEFINITION. The operands that bytes carry: the timing data of a timing packet (10.2, R183), the cue and directive areas, the null
frame's timing packet (R82), and the bodies of requests (10.4). -/

namespace Sys2Proof.Machine
open Sys2Proof

/-- Bytes from a place on, as many as asked for. -/
def slice (bs : List Byte) (start count : Nat) : List Byte := (bs.drop start).take count

/-- The unsigned number in bytes `start` on of a packet or a body. -/
def field (bs : List Byte) (start count : Nat) : Nat := fromBE (slice bs start count)

def field16 (bs : List Byte) (start : Nat) : BitVec 16 := BitVec.ofNat 16 (field bs start 2)
def field32 (bs : List Byte) (start : Nat) : BitVec 32 := BitVec.ofNat 32 (field bs start 4)

/-! ## Cue and directive areas (10.2) -/

/-- A cue area of 9 bytes. -/
def readCue (bs : List Byte) (start : Nat) : CueData :=
  { kind := pbyte bs start, avail := field16 bs (start + 1), service := field16 bs (start + 3), seq := field16 bs (start + 5),
    duration := field16 bs (start + 7) }

/-- The nine bytes of a cue entry. -/
def cueBytes (d : CueData) : List Byte :=
  [d.kind] ++ be 2 d.avail.toNat ++ be 2 d.service.toNat ++ be 2 d.seq.toNat ++ be 2 d.duration.toNat

/-- A directive area of 7 bytes. -/
def readDirective (bs : List Byte) (start : Nat) : Directive :=
  { kind := pbyte bs start, target := field16 bs (start + 1), value := field32 bs (start + 3) }

/-! ## The timing packet (10.2) -/

/-- The timing record of a timing packet: the first cue-count cue areas and the first directive-count directive areas (R29,
R183). -/
def readTiming (p : Packet) : TimingRec :=
  { seq := field16 p 4
    stamp := field p 6 4
    delay := field p 10 4
    period := field p 14 4
    packets := field p 18 2
    cues := (List.range (pbyte p 21).toNat).map (fun i => readCue p (23 + 9 * i))
    directives := (List.range (pbyte p 22).toNat).map (fun i => readDirective p (59 + 7 * i)) }

/-- The CRC-32 over bytes 4 to 86 (R183). -/
def timingCrc (p : Packet) : BitVec 32 := crc32 crcStart (slice p 4 83)

/-- A timing candidate is valid (R28, R183). -/
def validTiming (p : Packet) : Bool :=
  !transportError p && carriesPayload p && timingCrc p == field32 p 87 &&
  field p 6 4 < 10000000 && field p 10 4 < 10000000 && (pbyte p 21).toNat ≤ 4 && (pbyte p 22).toNat ≤ 4

/-- The synthesized timing packet of a null frame (R82, R183): `stamp` is its release stamp, `count` its continuity count. -/
def nullTiming (stream : Nat) (seq : Seq) (stamp delay period packets count : Nat) : Packet :=
  let header := [0x47, BitVec.ofNat 8 (0x40 + stream / 256 % 32), BitVec.ofNat 8 (stream % 256), BitVec.ofNat 8 (0x10 + count % 16)]
  let data := be 2 seq.toNat ++ be 4 stamp ++ be 4 delay ++ be 4 period ++ be 2 packets ++ [0x01, 0, 0] ++ List.replicate 64 0xFF
  header ++ data ++ be 4 (crc32 crcStart data).toNat ++ List.replicate 97 0xFF

/-! ## Request bodies (10.4) -/

/-- The two-byte numbers of a body from a place on. -/
def words16 (bs : List Byte) (start count : Nat) : List (BitVec 16) := (List.range count).map (fun i => field16 bs (start + 2 * i))

/-- The stream pairs of a body from a place on. -/
def pairsAt (bs : List Byte) (start count : Nat) : List StreamPair :=
  (List.range count).map (fun i => (field16 bs (start + 4 * i), field16 bs (start + 4 * i + 2)))

/-- The whole packets of a CLIP DATA body (10.3). -/
def packetsAt (bs : List Byte) (start count : Nat) : List Packet := (List.range count).map (fun i => slice bs (start + 188 * i) 188)

def byteBody (b : Byte) : List Byte := [b]
def word16Bytes (w : BitVec 16) : List Byte := be 2 w.toNat
def word32Bytes (w : BitVec 32) : List Byte := be 4 w.toNat

def pairBytes (m : StreamPair) : List Byte := be 2 m.1.toNat ++ be 2 m.2.toNat

/-- DEFINE SERVICE: number 2, eligible 1, count 1, streams 2 each. -/
def defineServiceBody (number : BitVec 16) (eligible : Byte) (streams : List (BitVec 16)) : List Byte :=
  word16Bytes number ++ [eligible, BitVec.ofNat 8 streams.length] ++ streams.flatMap word16Bytes

/-- CLIP OPEN: n 1, f 2, k 2, expected CRC 4. -/
def clipOpenBody (n : Byte) (f k : BitVec 16) (crc : BitVec 32) : List Byte :=
  [n] ++ word16Bytes f ++ word16Bytes k ++ word32Bytes crc

/-- CLIP DATA: n 1, count 1, packets. -/
def clipDataBody (n : Byte) (packets : List Packet) : List Byte := [n, BitVec.ofNat 8 packets.length] ++ packets.flatten

/-- PLAN SET: key kind 1, avail id 2, service 2, clip 1, harvest 1, return early 1, count 1, pairs 4 each. -/
def planSetBody (keyKind : Byte) (avail service : BitVec 16) (clip harvest early : Byte) (map : List StreamPair) : List Byte :=
  [keyKind] ++ word16Bytes avail ++ word16Bytes service ++ [clip, harvest, early, BitVec.ofNat 8 map.length] ++ map.flatMap pairBytes

/-- PLAN DELETE: key kind 1, avail id 2, service 2. -/
def planDeleteBody (keyKind : Byte) (avail service : BitVec 16) : List Byte := [keyKind] ++ word16Bytes avail ++ word16Bytes service

/-- ALARM CLEAR: Er 4, item set 5. -/
def alarmClearBody (epoch : BitVec 32) (items : BitVec 40) : List Byte := word32Bytes epoch ++ be 5 items.toNat

/-- The request that a request command stands for: its kind, its tag and its body as 10.4 lays it out; none for an event. -/
def requestOf : Instr → Option Request
  | .unknownKind kind tag body => some ⟨kind, tag, body⟩
  | .identify tag => some ⟨0x01, tag, []⟩
  | .status tag => some ⟨0x02, tag, []⟩
  | .ackStart tag => some ⟨0x03, tag, []⟩
  | .restart tag => some ⟨0x04, tag, []⟩
  | .getSetting tag id => some ⟨0x05, tag, word16Bytes id⟩
  | .setSetting tag id value => some ⟨0x06, tag, word16Bytes id ++ word32Bytes value⟩
  | .commitSettings tag => some ⟨0x07, tag, []⟩
  | .revertSettings tag => some ⟨0x08, tag, []⟩
  | .clockStatus tag => some ⟨0x10, tag, []⟩
  | .referenceStatus tag => some ⟨0x11, tag, []⟩
  | .selectReference tag n => some ⟨0x12, tag, [n]⟩
  | .reseedReference tag n => some ⟨0x13, tag, [n]⟩
  | .feedStatus tag port clear => some ⟨0x18, tag, [port, clear]⟩
  | .feedHold tag selection => some ⟨0x19, tag, [selection]⟩
  | .feedCounts tag clear => some ⟨0x1A, tag, [clear]⟩
  | .storeStatus tag => some ⟨0x1B, tag, []⟩
  | .startEmission tag => some ⟨0x20, tag, []⟩
  | .stopEmission tag => some ⟨0x21, tag, []⟩
  | .reAnchor tag => some ⟨0x22, tag, []⟩
  | .mute tag => some ⟨0x23, tag, []⟩
  | .unmute tag => some ⟨0x24, tag, []⟩
  | .setOffset tag o => some ⟨0x25, tag, word32Bytes o⟩
  | .emissionStatus tag clear => some ⟨0x26, tag, [clear]⟩
  | .defineService tag number eligible streams => some ⟨0x28, tag, defineServiceBody number eligible streams⟩
  | .deleteService tag number => some ⟨0x29, tag, word16Bytes number⟩
  | .serviceList tag => some ⟨0x2A, tag, []⟩
  | .clipOpen tag n f k crc => some ⟨0x30, tag, clipOpenBody n f k crc⟩
  | .clipData tag n packets => some ⟨0x31, tag, clipDataBody n packets⟩
  | .clipSeek tag n position => some ⟨0x32, tag, [n] ++ word32Bytes position⟩
  | .clipClose tag n => some ⟨0x33, tag, [n]⟩
  | .clipDelete tag n => some ⟨0x34, tag, [n]⟩
  | .clipStatus tag n => some ⟨0x35, tag, [n]⟩
  | .planSet tag keyKind avail service clip harvest early map =>
    some ⟨0x38, tag, planSetBody keyKind avail service clip harvest early map⟩
  | .planDelete tag keyKind avail service => some ⟨0x39, tag, planDeleteBody keyKind avail service⟩
  | .planList tag start => some ⟨0x3A, tag, [start]⟩
  | .cue tag entry => some ⟨0x40, tag, cueBytes entry⟩
  | .cueList tag clear => some ⟨0x41, tag, [clear]⟩
  | .channelStatus tag n => some ⟨0x42, tag, [n]⟩
  | .abortSplice tag n => some ⟨0x43, tag, [n]⟩
  | .rfEnable tag => some ⟨0x48, tag, []⟩
  | .rfDisable tag => some ⟨0x49, tag, []⟩
  | .setPower tag p => some ⟨0x4A, tag, word16Bytes p⟩
  | .clearTrips tag => some ⟨0x4B, tag, []⟩
  | .rfStatus tag clear => some ⟨0x4C, tag, [clear]⟩
  | .moduleStatus tag n => some ⟨0x4D, tag, [n]⟩
  | .alarmRead tag => some ⟨0x50, tag, []⟩
  | .alarmClear tag epoch items => some ⟨0x51, tag, alarmClearBody epoch items⟩
  | .powerOn => none
  | .restartStart => none
  | .requestFrame _ => none
  | .gapExpiry => none
  | .transmitComplete => none
  | .lineRateApply => none
  | .commitCompletion => none
  | .verificationStepEnd => none
  | .oscillatorSecond => none
  | .secondNumberReceived _ _ => none
  | .timePulse _ => none
  | .missingPulse _ => none
  | .suspectTimeout _ => none
  | .holdOffExpiry _ => none
  | .secondBoundary => none
  | .feedByte _ _ => none
  | .feedPacket _ _ _ => none
  | .lineActivityExpiry _ => none
  | .silenceDeadline _ => none
  | .take => none
  | .anchorReached => none
  | .packetDeparture => none
  | .freeGridPacket => none
  | .monitoringSample _ => none
  | .rampTick => none
  | .retryEnd => none
  | .steadyPeriodExpiry => none
  | .powerFail => none

end Sys2Proof.Machine
end

