-- ==== Sys2Proof/Machine/Alarms.lean ====
section
/-! DEFINITION. The Alarm Unit's requests (08): ALARM READ and ALARM CLEAR. -/

namespace Sys2Proof.Machine
open Sys2Proof

/-- The record of an item in ALARM READ, 7 bytes (R159). -/
def alarmBytes (s : State) (item : Nat) : List Byte :=
  let r := alarmRec s item
  be 1 (flagBits [r.latched, liveCondition s item, reportEnabled s item, hasLive item]) ++ be 4 r.setEpoch.toNat ++ be 2 r.count

/-- ALARM READ (R159). -/
def reqAlarmRead (s : State) : Answer := ok s (be 4 s.alarms.epoch.toNat ++ items.flatMap (alarmBytes s))

def execAlarmRead (tag : Byte) (s : State) : Outcome := request 0x50 tag [] reqAlarmRead s

/-- Er is at or before the current epoch, and less than 2^31 behind it (R158, R160). -/
def epochAccepted (s : State) (er : BitVec 32) : Bool := (s.alarms.epoch - er).toNat < 0x80000000

/-- Epoch y is at or before x (R158). -/
def epochAtOrBefore (y x : BitVec 32) : Bool := decide ((y - x).toInt ≤ 0)

/-- ALARM CLEAR at one item, with the items cleared so far and the counts they held (R160, steps 1 to 3). A latch set again at an
earlier item of the set may have aged this item's set-epoch past Er; it is then left as step 1 says (log 55). -/
def clearItem (er : BitVec 32) (acc : State × List (Nat × Nat)) (item : Nat) : State × List (Nat × Nat) :=
  let s := acc.1
  let r := alarmRec s item
  if r.latched && epochAtOrBefore r.setEpoch er then
    let s' := s.setAlarms { s.alarms with records := s.alarms.records.set (item - 1) {} }
    (if liveCondition s' item then setLatch item s' else s', acc.2 ++ [(item, r.count)])
  else acc

/-- The items of a set in ascending number; item i is bit i − 1 (R160). -/
def itemsOf (set : BitVec 40) : List Nat := items.filter (fun i => set.getLsbD (i - 1))

/-- An item set in 5 bytes (R160). -/
def setBytes (is : List Nat) : List Byte := be 5 (flagBits (items.map is.contains))

/-- ALARM CLEAR (R160). -/
def reqAlarmClear (er : BitVec 32) (set : BitVec 40) (s : State) : Answer :=
  if 2 ^ 36 ≤ set.toNat then turnDown s .badParameter
  else if !epochAccepted s er then turnDown s .badParameter
  else
    let r := (itemsOf set).foldl (clearItem er) (s, [])
    let latched := items.filter (fun i => (alarmRec r.1 i).latched)
    ok r.1 (be 4 r.1.alarms.epoch.toNat ++ setBytes (r.2.map Prod.fst) ++ setBytes latched ++
      r.2.flatMap (fun c : Nat × Nat => be 2 c.2))

def execAlarmClear (tag : Byte) (epoch : BitVec 32) (items : BitVec 40) (s : State) : Outcome :=
  request 0x51 tag (alarmClearBody epoch items) (reqAlarmClear epoch items) s

end Sys2Proof.Machine
end

