-- ==== Sys2Proof/Machine/SpliceOps.lean ====
section
/-! DEFINITION. Splicing's shared operations (06): the cue table, judging cues, binding, arbitration, returns, frame starts and ends,
substitution and continuity. They read the service and avail-plan tables and the clip records (05). -/

namespace Sys2Proof.Machine
open Sys2Proof

/-! ## Tables that Splicing reads (05) -/

/-- The service table entry of a number. -/
def serviceOf (s : State) (number : Nat) : Option Service := s.splice.services.find? (fun v => v.number = number)

/-- Every stream that a service of the table names (section 5.1). -/
def serviceStreams (s : State) : List Nat := s.splice.services.flatMap Service.streams

/-- The clip record of a number. -/
def clipRec (s : State) (n : Nat) : Clip := s.clips.clips.getD n {}

def setClip (n : Nat) (c : Clip) (s : State) : State := s.setClips { s.clips with clips := s.clips.clips.set n c }

/-- The plan lookup for an avail id and a service number (R108): the exact entry that names the service, else its any-avail
entry. -/
def planFor (s : State) (avail service : Nat) : Option Plan :=
  match s.splice.plans.find? (fun p => p.key = .exact avail && p.service = service) with
  | some p => some p
  | none => s.splice.plans.find? (fun p => p.key = .any service)

/-- The plan's clip can be armed: READY, with k below the configured N (R113, R119). -/
def clipUsable (s : State) (n : Nat) : Bool := (clipRec s n).mode == .ready && (clipRec s n).perFrame < s.live.em.packets

/-! ## The cue table -/

def countCue (f : CueCounts → CueCounts) (s : State) : State := s.setSplice { s.splice with counts := f s.splice.counts }

def countDropped : State → State := countCue (fun c => { c with dropped := sat 65535 (c.dropped + 1) })
def countMissed : State → State := countCue (fun c => { c with missed := sat 65535 (c.missed + 1) })
def countUnfilled : State → State := countCue (fun c => { c with unfilled := sat 65535 (c.unfilled + 1) })
def countRepeat : State → State := countCue (fun c => { c with repeats := sat 65535 (c.repeats + 1) })

def setCues (cues : List CueEntry) (s : State) : State := s.setSplice { s.splice with cues := cues }

/-- The entry of an avail id; at most one (R110). -/
def cueOf (s : State) (avail : Nat) : Option CueEntry := s.splice.cues.find? (fun e => e.avail = avail)

/-- The entry of an avail changed. -/
def editCue (avail : Nat) (f : CueEntry → CueEntry) (s : State) : State :=
  setCues (s.splice.cues.map (fun e => if e.avail = avail then f e else e)) s

/-- The entry of an avail removed. -/
def removeCue (avail : Nat) (s : State) : State := setCues (s.splice.cues.filter (fun e => e.avail ≠ avail)) s

/-- The table order: by distance from the cue reference to the start, then by acceptance order (R110). -/
def cueBefore (ref : Seq) (x y : CueEntry) : Bool :=
  let dx := Seq.distance ref x.start
  let dy := Seq.distance ref y.start
  dx < dy || (dx == dy && x.order.toNat < y.order.toNat)

def insertCue (ref : Seq) (e : CueEntry) : List CueEntry → List CueEntry
  | [] => [e]
  | x :: rest => if cueBefore ref e x then e :: x :: rest else x :: insertCue ref e rest

/-- The entries in table order (R110). -/
def orderedCues (s : State) : List CueEntry := s.splice.cues.foldr (insertCue s.splice.cueRef) []

/-- The cue reference follows the window base while it exists, and keeps its last value (R110). -/
def setBase (b : Option Seq) (s : State) : State :=
  let s := s.setStore { s.store with base := b }
  match b with
  | some x => s.setSplice { s.splice with cueRef := x }
  | none => s

/-! ## Channels -/

def setChannel (n : Four) (c : Option Channel) (s : State) : State :=
  s.setSplice { s.splice with channels := s.splice.channels.set n c }

/-- A service is bound to an ARMED or ACTIVE channel (R118). -/
def serviceBound (s : State) (service : Nat) : Bool :=
  Four.all.any (fun n => match s.splice.channels.get n with | some c => c.service == service | none => false)

/-- The lowest-numbered IDLE channel (R113). -/
def idleChannel (s : State) : Option Four := Four.all.find? (fun n => (s.splice.channels.get n).isNone)

/-- The last started sequence, or 0 when it is absent (R130). -/
def startedSeq (s : State) : Seq := s.splice.lastStarted.getD 0

/-- A SPLICE occasion of a channel as it stands (R130). -/
def noteChannel (n : Four) (c : Channel) (occasion reason : Nat) (s : State) : State :=
  noteSplice ⟨n, c.avail, c.service, occasion, reason, c.read, startedSeq s⟩ s

/-- Binding a channel to an entry under a plan (R115). -/
def bindChannel (n : Four) (e : CueEntry) (p : Plan) (s : State) : State :=
  let clip := clipRec s p.clip
  let c : Channel :=
    { active := false, avail := e.avail, service := e.service, start := e.start, ending := e.ending, clip := p.clip,
      perFrame := clip.perFrame, length := clip.length, map := p.map, harvest := p.harvest, early := p.early }
  let s := setClip p.clip { clip with uses := clip.uses + 1 } (setChannel n (some c) s)
  let s := editCue e.avail (fun e => { e with mode := .armed, channel := some n }) s
  noteChannel n c 1 0 s

/-- A channel released: it becomes IDLE, the clip's use count is decremented, and the cue entry of the avail is removed (steps 1
to 3 of R124). -/
def releaseChannel (n : Four) (c : Channel) (s : State) : State :=
  let clip := clipRec s c.clip
  removeCue c.avail (setClip c.clip { clip with uses := clip.uses - 1 } (setChannel n none s))

/-- An entry turned UNFILLED (R113, R119, R130; log 12). -/
def turnUnfilled (avail : Nat) (s : State) : State :=
  occur 18 (countUnfilled (editCue avail (fun e => { e with mode := .unfilled, channel := none }) s))

/-- The first WAITING entry, in table order, whose service no channel is bound to (R119). -/
def candidate (s : State) : Option CueEntry :=
  (orderedCues s).find? (fun e => e.mode = .waiting && !serviceBound s e.service)

/-- Arbitration for an IDLE channel, looking at no more candidates than the fuel (R119). Each candidate that is not bound ceases
to be WAITING, so the number of entries is fuel enough. -/
def arbitrateLoop : Nat → Four → State → State
  | 0, _, s => s
  | fuel + 1, n, s =>
    match candidate s with
    | none => s
    | some e =>
      if !((serviceOf s e.service).any Service.eligible) then
        arbitrateLoop fuel n (occur 18 (countDropped (removeCue e.avail s)))
      else
        match planFor s e.avail e.service with
        | none => arbitrateLoop fuel n (turnUnfilled e.avail s)
        | some p =>
          if clipUsable s p.clip then bindChannel n e p s
          else arbitrateLoop fuel n (turnUnfilled e.avail s)

/-- Arbitration for channel n (R119). -/
def arbitrate (n : Four) (s : State) : State :=
  if (s.splice.channels.get n).isNone then arbitrateLoop s.splice.cues.length n s else s

/-! ## Returns and disarming (R124) -/

/-- The reasons of a return, with the codes of 10.5. -/
inductive ReturnReason where
  | ended | early | starved | aborted | reAnchor | stopped
deriving DecidableEq, Repr

def reasonCode : ReturnReason → Nat
  | .ended => 1
  | .early => 2
  | .starved => 3
  | .aborted => 4
  | .reAnchor => 5
  | .stopped => 6

/-- Every stream of a service marked for resynchronisation (R124). -/
def markResync (service : Nat) (s : State) : State :=
  match serviceOf s service with
  | some v =>
    s.setSplice { s.splice with
      offsets := s.splice.offsets.map (fun r => if v.streams.contains r.stream then { r with resync := true } else r) }
  | none => s

/-- Steps 1 to 6 of a return (R124). -/
def endSplice (n : Four) (c : Channel) (reason : ReturnReason) (s : State) : State :=
  let s := noteChannel n c 3 (reasonCode reason) s
  let s := markResync c.service (releaseChannel n c s)
  if reason = .starved ∨ reason = .reAnchor then occur 17 s else s

/-- A return with its arbitration; at entry to OFF there is none (R124). -/
def returnChannel (n : Four) (c : Channel) (reason : ReturnReason) (s : State) : State :=
  let s := endSplice n c reason s
  if reason = .stopped then s else arbitrate n s

/-- Disarming, before any arbitration: steps 1, 2, 3 and the notice (R124). -/
def disarm (n : Four) (c : Channel) (s : State) : State := releaseChannel n c (noteChannel n c 4 0 s)

/-! ## Judging cues (R111 to R117) -/

/-- An OUT cue as it is judged. -/
structure OutCue where
  avail : Nat
  service : Nat
  start : Seq
  duration : Nat
  source : CueSource
  carrying : Seq

/-- The outcome codes of a CUE request (R112). -/
inductive CueOutcome where
  | armed | waiting | unfilled | repeated | lateRevision | dropped | missed | endMoved | inIgnored | cancelled | cancelIgnored
deriving DecidableEq, Repr

def outcomeCode : CueOutcome → Nat
  | .armed => 1
  | .waiting => 2
  | .unfilled => 3
  | .repeated => 4
  | .lateRevision => 5
  | .dropped => 6
  | .missed => 7
  | .endMoved => 8
  | .inIgnored => 9
  | .cancelled => 10
  | .cancelIgnored => 11

/-- An entry made (R113), or, for an entry judged again, given its new state in place (R114). The acceptance order of an entry is the
counter's value after the gain of one that the entry makes, so that the first is 1 (log 53). -/
def enterCue (c : OutCue) (again : Bool) (mode : CueMode) (s : State) : State :=
  if again then editCue c.avail (fun e => { e with mode := mode, channel := none }) s
  else
    let e : CueEntry :=
      { avail := c.avail, service := c.service, start := c.start, duration := c.duration,
        ending := c.start + BitVec.ofNat 16 c.duration, source := c.source, carrying := c.carrying, mode := mode,
        channel := none, order := s.splice.accepted + 1 }
    let s := s.setSplice { s.splice with cues := s.splice.cues ++ [e], accepted := s.splice.accepted + 1 }
    countCue (fun k => { k with new := sat 65535 (k.new + 1) }) s

/-- The entry made UNFILLED (steps 5 and 7 of R113). -/
def enterUnfilled (c : OutCue) (again : Bool) (s : State) : State := occur 18 (countUnfilled (enterCue c again .unfilled s))

/-- Steps 3 to 8 of R113; `again` is the judging again of an UNFILLED entry, which passes over step 4 (R114). -/
def placeCue (c : OutCue) (again : Bool) (s : State) : State × CueOutcome :=
  if !((serviceOf s c.service).any Service.eligible) then
    (occur 18 (countDropped (if again then removeCue c.avail s else s)), .dropped)
  else if !again && 16 ≤ s.splice.cues.length then (occur 19 (countMissed s), .missed)
  else
    match planFor s c.avail c.service with
    | none => (enterUnfilled c again s, .unfilled)
    | some p =>
      match (if serviceBound s c.service then none else idleChannel s) with
      | none => (enterCue c again .waiting s, .waiting)
      | some n =>
        if clipUsable s p.clip then
          let s := enterCue c again .armed s
          match cueOf s c.avail with
          | some e => (bindChannel n e p s, .armed)
          | none => (s, .armed)
        else (enterUnfilled c again s, .unfilled)

/-- A new cue from step 2 of R113: the arming lead, then the rest. -/
def judgeNewCue (c : OutCue) (s : State) : State × CueOutcome :=
  if Seq.distance c.carrying c.start < s.live.armingLead then (occur 19 (countMissed s), .missed)
  else placeCue c false s

/-- A revision (R114): the held entry is removed, its channel freed without arbitration; the cue is judged as new; then
arbitration for the freed channel if it is still IDLE. -/
def reviseCue (c : OutCue) (held : CueEntry) (s : State) : State × CueOutcome :=
  let s := countCue (fun k => { k with revision := sat 65535 (k.revision + 1) }) s
  match held.channel with
  | some n =>
    let s := match s.splice.channels.get n with
      | some ch => disarm n ch s
      | none => removeCue c.avail s
    let r := judgeNewCue c s
    (arbitrate n r.1, r.2)
  | none => judgeNewCue c (removeCue c.avail s)

/-- Identity: equal service number, start and duration (section 6.1). -/
def sameContent (c : OutCue) (e : CueEntry) : Bool := e.service == c.service && e.start == c.start && e.duration == c.duration

/-- An OUT cue (R113, R114). -/
def judgeOut (c : OutCue) (s : State) : State × CueOutcome :=
  match cueOf s c.avail with
  | none => judgeNewCue c s
  | some e =>
    if sameContent c e then
      let s := countRepeat s
      if e.mode = .unfilled ∧ (s.live.armingLead : Int) ≤ Seq.distance c.carrying c.start then placeCue c true s
      else (s, .repeated)
    else if e.mode = .active then
      (countCue (fun k => { k with lateRevision := sat 65535 (k.lateRevision + 1) }) s, .lateRevision)
    else reviseCue c e s

/-- An IN cue (R116): of an ACTIVE avail it moves the end to x, when x lies after the last started sequence and before the
current end. -/
def judgeIn (avail : Nat) (x : Seq) (s : State) : State × CueOutcome :=
  let ignored := (countCue (fun k => { k with inIgnored := sat 65535 (k.inIgnored + 1) }) s, CueOutcome.inIgnored)
  match cueOf s avail, s.splice.lastStarted with
  | some e, some q =>
    if e.mode = .active ∧ 1 ≤ (x - q).toNat ∧ (x - q).toNat < (e.ending - q).toNat then
      let s := editCue avail (fun e => { e with ending := x }) s
      let s := match e.channel with
        | some n =>
          match s.splice.channels.get n with
          | some c => setChannel n (some { c with ending := x }) s
          | none => s
        | none => s
      (countCue (fun k => { k with endMoved := sat 65535 (k.endMoved + 1) }) s, .endMoved)
    else ignored
  | _, _ => ignored

/-- A CANCEL cue (R117). -/
def judgeCancel (avail : Nat) (s : State) : State × CueOutcome :=
  let ignored := (countCue (fun k => { k with cancelIgnored := sat 65535 (k.cancelIgnored + 1) }) s, CueOutcome.cancelIgnored)
  match cueOf s avail with
  | none => ignored
  | some e =>
    if e.mode = .active then ignored
    else
      let s := match e.channel with
        | some n =>
          match s.splice.channels.get n with
          | some c => arbitrate n (disarm n c s)
          | none => removeCue avail s
        | none => removeCue avail s
      (countCue (fun k => { k with cancelled := sat 65535 (k.cancelled + 1) }) s, .cancelled)

/-- A cue entry is malformed (R111), or a CUE request's fields are invalid (R112). -/
def malformed (d : CueData) : Bool :=
  !(d.kind == 1 || d.kind == 2 || d.kind == 3) || d.avail == 0 || (d.kind == 1 && (d.service == 0 || d.duration == 0))

/-- A cue that is not malformed, judged by its kind (R111). -/
def judgeCue (d : CueData) (source : CueSource) (carrying : Seq) (s : State) : State × CueOutcome :=
  if d.kind = 1 then
    judgeOut
      { avail := d.avail.toNat, service := d.service.toNat, start := d.seq, duration := d.duration.toNat, source := source,
        carrying := carrying } s
  else if d.kind = 2 then judgeIn d.avail.toNat d.seq s
  else judgeCancel d.avail.toNat s

/-- The cue entries of an admitted or upgraded copy, in list order (R57, R111). -/
def networkCues (carrying : Seq) (cues : List CueData) (s : State) : State :=
  cues.foldl (fun s d => if malformed d then countDropped s else (judgeCue d .network carrying s).1) s

/-! ## Frame starts and ends (R120, R123) -/

/-- The returns of one channel at the frame start of s (step 1 of R120). -/
def returnsAt (seq : Seq) (s : State) (n : Four) : State :=
  match s.splice.channels.get n with
  | some c =>
    if c.active then
      if c.ending = seq then returnChannel n c .ended s
      else
        match c.pending with
        | .early => returnChannel n c .early s
        | .aborted => returnChannel n c .aborted s
        | .none => s
    else s
  | none => s

/-- An avail activated: its channel and its entry become ACTIVE, with a SPLICE notice (R120). -/
def activate (e : CueEntry) (s : State) : State :=
  match e.channel with
  | some n =>
    match s.splice.channels.get n with
    | some c =>
      let s := setChannel n (some { c with active := true }) s
      noteChannel n c 2 0 (editCue e.avail (fun e => { e with mode := .active }) s)
    | none => s
  | none => s

/-- The start of one entry whose start is the frame (step 2 of R120). -/
def startEntry (s : State) (e : CueEntry) : State :=
  match e.mode with
  | .armed => activate e s
  | .waiting => occur 19 (countMissed (removeCue e.avail s))
  | .unfilled => removeCue e.avail s
  | .active => s

/-- Clip packets made due to a channel (step 3 of R120). -/
def makeDue (c : Channel) : Channel :=
  if c.active then
    let due := c.due + min c.perFrame (c.length - (c.read + c.due))
    { c with due := due, exhausted := c.exhausted || decide (c.read + due = c.length) }
  else c

/-- The frame start of sequence s at Splicing (R120). -/
def spliceFrameStart (seq : Seq) (s : State) : State :=
  let s := s.setSplice { s.splice with lastStarted := some seq }
  let s := Four.all.foldl (returnsAt seq) s
  let s := ((orderedCues s).filter (fun e => e.start = seq)).foldl startEntry s
  s.setSplice { s.splice with channels := s.splice.channels.map (fun c => c.map makeDue) }

/-- One channel at the end of a frame (R123). A pending ABORTED return is kept (log 13). -/
def backlogAt (s : State) (n : Four) : State :=
  match s.splice.channels.get n with
  | some c =>
    if c.active then
      if 64 < c.due then returnChannel n c .starved s
      else if c.exhausted ∧ c.due = 0 ∧ c.early ∧ c.pending = .none then setChannel n (some { c with pending := .early }) s
      else s
    else s
  | none => s

/-- The end of a frame at Splicing (R123). -/
def spliceFrameEnd (s : State) : State := Four.all.foldl backlogAt s

/-! ## Substitution and continuity (R121, R122, R128) -/

def offsetRec (s : State) (stream : Nat) : Option OffsetRec := s.splice.offsets.find? (fun r => r.stream = stream)

def setOffsetRec (r : OffsetRec) (s : State) : State :=
  s.setSplice { s.splice with offsets := s.splice.offsets.map (fun x => if x.stream = r.stream then r else x) }

/-- The count written on an inserted packet (R128). -/
def insertedCount (r : OffsetRec) (p : Packet) : Nat :=
  match r.last with
  | some l => if carriesPayload p then (l + 1) % 16 else l
  | none => if carriesPayload p then 0 else continuityOf p

/-- The record of a stream after the offset is set at a resynchronisation (R128). -/
def resynced (r : OffsetRec) (p : Packet) : OffsetRec :=
  if r.resync && carriesPayload p then
    { r with
      resync := false
      offset := match r.last with
        | some l => (l + 1 + 16 - continuityOf p) % 16
        | none => 0 }
  else r

/-- The count written on a network packet, with the record as `resynced` leaves it (R128). -/
def networkCount (r : OffsetRec) (p : Packet) : Nat :=
  if r.resync then
    match r.last with
    | some l => l
    | none => continuityOf p
  else (continuityOf p + r.offset) % 16

/-- The continuity rewrite of a packet that leaves on a service stream; any other packet is unchanged (R128). -/
def rewrite (inserted : Bool) (p : Packet) (s : State) : Packet × State :=
  match offsetRec s (streamOf p) with
  | none => (p, s)
  | some r =>
    let r := if inserted then r else resynced r p
    let count := if inserted then insertedCount r p else networkCount r p
    (setContinuity p count, setOffsetRec { r with last := some count } s)

/-- The ACTIVE channel whose service lists a stream (R121). -/
def freedBy (s : State) (stream : Nat) : Option (Four × Channel) :=
  Four.all.findSome? (fun n =>
    match s.splice.channels.get n with
    | some c =>
      if c.active && (serviceOf s c.service).any (fun v => v.streams.contains stream) then some (n, c) else none
    | none => none)

/-- The lowest-numbered ACTIVE channel with harvest nulls set and a due count above 0 (R122). -/
def harvester (s : State) : Option (Four × Channel) :=
  Four.all.findSome? (fun n =>
    match s.splice.channels.get n with
    | some c => if c.active && c.harvest && 0 < c.due then some (n, c) else none
    | none => none)

/-- The channel takes a position (R121): with a due count above 0 it places its next clip packet, remapped, or a null packet for
a stream the map does not name; otherwise a null packet. -/
def takePosition (n : Four) (c : Channel) (s : State) : Packet × State :=
  if c.due = 0 then (nullPacket, s)
  else
    let p := readPacket s (clipAddress ((clipRec s c.clip).base + c.read))
    let s := setChannel n (some { c with read := c.read + 1, due := c.due - 1 }) s
    match c.map.find? (fun m => m.1 = streamOf p) with
    | some m => rewrite true (setStream p m.2) s
    | none => (nullPacket, s)

/-- What Splicing gives back for a packet at a position 1 to N − 1 (R121, R122, R128). -/
def substitute (p : Packet) (s : State) : Packet × State :=
  if streamOf p = nullStream then
    match harvester s with
    | some (n, c) => takePosition n c s
    | none => (p, s)
  else
    match freedBy s (streamOf p) with
    | some (n, c) => takePosition n c s
    | none => rewrite false p s

/-! ## The emission state (R126, R129) and the service table (R127) -/

/-- The continuity offset table cleared (R129), and the last started sequence absent (R126). -/
def clearOffsets (s : State) : State :=
  s.setSplice { s.splice with
    lastStarted := none
    offsets := s.splice.offsets.map (fun r => { r with last := none, offset := 0, resync := false }) }

/-- One channel at entry to ANCHORING (R126). -/
def reAnchorChannel (s : State) (n : Four) : State :=
  match s.splice.channels.get n with
  | some c => if c.active then returnChannel n c .reAnchor s else s
  | none => s

/-- Entry to ANCHORING at Splicing (R126). -/
def spliceAnchoring (s : State) : State := clearOffsets (Four.all.foldl reAnchorChannel s)

/-- One channel at entry to OFF (R126). -/
def stopChannel (s : State) (n : Four) : State :=
  match s.splice.channels.get n with
  | some c => if c.active then returnChannel n c .stopped s else disarm n c s
  | none => s

/-- Entry to OFF at Splicing (R126). -/
def spliceOff (s : State) : State := clearOffsets (setCues [] (Four.all.foldl stopChannel s))

/-- One entry whose start is not after b, at entry to RUNNING (R126). -/
def passedEntry (s : State) (e : CueEntry) : State :=
  match e.mode with
  | .unfilled => removeCue e.avail s
  | .waiting => occur 19 (countMissed (removeCue e.avail s))
  | .armed =>
    let s := match e.channel with
      | some n =>
        match s.splice.channels.get n with
        | some c => disarm n c s
        | none => removeCue e.avail s
      | none => removeCue e.avail s
    occur 19 (countMissed s)
  | .active => s

/-- Entry to RUNNING at Splicing (R126): the entries whose start is not after b are removed, and arbitration is made for each
channel freed. -/
def spliceRunning (b : Seq) (s : State) : State :=
  let before := s.splice.channels
  let s := ((orderedCues s).filter (fun e => Seq.distance b e.start ≤ 0)).foldl passedEntry s
  Four.all.foldl (fun s n => if (before.get n).isSome then arbitrate n s else s) s

/-- The continuity offset records brought into line with the service streams (R127). -/
def alignOffsets (s : State) : State :=
  s.setSplice { s.splice with
    offsets := (serviceStreams s).map (fun st => (offsetRec s st).getD { stream := st }) }

end Sys2Proof.Machine
end

