-- ==== Sys2Proof/WellFormed.lean ====
section
/-! DEFINITION. Which commands the ports and the control link can carry: packets are whole, and a request's lists fit the count byte
and the 1,024 bytes of a body (R184). -/

namespace Sys2Proof

/-- The request kinds of section 10.4. -/
def requestKinds : List Nat :=
  [0x01, 0x02, 0x03, 0x04, 0x05, 0x06, 0x07, 0x08, 0x10, 0x11, 0x12, 0x13, 0x18, 0x19, 0x1A, 0x1B] ++
  [0x20, 0x21, 0x22, 0x23, 0x24, 0x25, 0x26, 0x28, 0x29, 0x2A, 0x30, 0x31, 0x32, 0x33, 0x34, 0x35] ++
  [0x38, 0x39, 0x3A, 0x40, 0x41, 0x42, 0x43, 0x48, 0x49, 0x4A, 0x4B, 0x4C, 0x4D, 0x50, 0x51]

/-- A packet is whole: 188 bytes. -/
def Packet.whole (p : Packet) : Bool := p.length == 188

/-- The well-formed commands. -/
def Instr.WellFormed : Instr → Bool
  | .unknownKind kind _ body => !requestKinds.contains kind.toNat && body.length ≤ 1024
  | .defineService _ _ _ streams => streams.length ≤ 255
  | .clipData _ _ packets => packets.length ≤ 5 && packets.all Packet.whole
  | .planSet _ _ _ _ _ _ _ map => map.length ≤ 253
  | .feedPacket _ sync rest => Packet.whole (sync :: rest)
  | _ => true

end Sys2Proof
end

