-- ==== Sys2Proof/Machine/Services.lean ====
section
/-! DEFINITION. Services, clips and avail plans (05): the service table's requests, the clip region and its extents, loading,
verification and deletion of clips, and the avail-plan table's requests. -/

namespace Sys2Proof.Machine
open Sys2Proof

/-- No value stands twice in a list. -/
def distinct {α : Type} [DecidableEq α] : List α → Bool
  | [] => true
  | x :: rest => !rest.contains x && distinct rest

/-! ## The service table (R93 to R95) -/

/-- An entry placed at its service number, in ascending order (section 5.1). -/
def putService (v : Service) : List Service → List Service
  | [] => [v]
  | x :: rest =>
    if v.number < x.number then v :: x :: rest
    else if v.number = x.number then v :: rest
    else x :: putService v rest

/-- The service table changed, with the continuity offset records brought into line (R95, R127). -/
def setServices (vs : List Service) (s : State) : State := alignOffsets (s.setSplice { s.splice with services := vs })

/-- A plan naming a service keeps every target inside a new list of its streams (R93, check 5). -/
def targetsWithin (s : State) (number : Nat) (streams : List Nat) : Bool :=
  (s.splice.plans.filter (fun p => p.service = number)).all (fun p => p.map.all (fun m => streams.contains m.2))

/-- DEFINE SERVICE in the order of its checks (R93). -/
def reqDefineService (number : BitVec 16) (eligible : Byte) (list : List (BitVec 16)) (s : State) : Answer :=
  let n := number.toNat
  let streams := list.map BitVec.toNat
  let exists? := (serviceOf s n).isSome
  if n = 0 ∨ 1 < eligible.toNat ∨ streams.length = 0 ∨ 8 < streams.length then turnDown s .badParameter
  else if !(streams.all (fun x => x ≤ 8190 && x != s.live.feed.timingStream) && distinct streams) then turnDown s .badParameter
  else if (s.splice.services.filter (fun v => v.number ≠ n)).any (fun v => v.streams.any streams.contains) then
    turnDown s .badParameter
  else if exists? && serviceBound s n then turnDown s .refusedState
  else if exists? && !targetsWithin s n streams then turnDown s .refusedState
  else if !exists? && 16 ≤ s.splice.services.length then turnDown s .noRoom
  else ok (setServices (putService { number := n, streams := streams, eligible := eligible == 1 } s.splice.services) s)

def execDefineService (tag : Byte) (number : BitVec 16) (eligible : Byte) (streams : List (BitVec 16)) (s : State) : Outcome :=
  request 0x28 tag (defineServiceBody number eligible streams) (reqDefineService number eligible streams) s

/-- DELETE SERVICE (R94). -/
def reqDeleteService (number : BitVec 16) (s : State) : Answer :=
  let n := number.toNat
  if n = 0 then turnDown s .badParameter
  else if (serviceOf s n).isNone then turnDown s .notFound
  else if serviceBound s n then turnDown s .refusedState
  else if s.splice.plans.any (fun p => p.service = n) then turnDown s .refusedState
  else ok (setServices (s.splice.services.filter (fun v => v.number ≠ n)) s)

def execDeleteService (tag : Byte) (number : BitVec 16) (s : State) : Outcome :=
  request 0x29 tag (word16Bytes number) (reqDeleteService number) s

/-- An entry of SERVICE LIST (R95). -/
def serviceBytes (v : Service) : List Byte :=
  be 2 v.number ++ flagByte v.eligible ++ be 1 v.streams.length ++ v.streams.flatMap (fun x : Nat => be 2 x)

/-- SERVICE LIST (R95). -/
def reqServiceList (s : State) : Answer := ok s (be 1 s.splice.services.length ++ s.splice.services.flatMap serviceBytes)

def execServiceList (tag : Byte) (s : State) : Outcome := request 0x2A tag [] reqServiceList s

/-! ## Extents (R96, R97) -/

/-- An extent, base and length, placed among others in ascending order of base. -/
def insertExtent (e : Nat × Nat) : List (Nat × Nat) → List (Nat × Nat)
  | [] => [e]
  | x :: rest => if e.1 < x.1 then e :: x :: rest else x :: insertExtent e rest

/-- The extents of the clips that are not EMPTY, in ascending order. -/
def extents (s : State) : List (Nat × Nat) :=
  ((s.clips.clips.filter (fun c => c.mode ≠ .empty)).map (fun c => (c.base, c.length))).foldr insertExtent []

/-- The runs of free positions from a position on, between extents in ascending order (R97). -/
def freeRunsFrom (start : Nat) : List (Nat × Nat) → List (Nat × Nat)
  | [] => if start < Config.clipPositions then [(start, Config.clipPositions - start)] else []
  | e :: rest =>
    if start < e.1 then (start, e.1 - start) :: freeRunsFrom (e.1 + e.2) rest else freeRunsFrom (max start (e.1 + e.2)) rest

def freeRuns (s : State) : List (Nat × Nat) := freeRunsFrom 0 (extents s)

/-- The first run of at least L positions (R97). -/
def firstFit (s : State) (length : Nat) : Option Nat := ((freeRuns s).find? (fun r => length ≤ r.2)).map Prod.fst

/-! ## Loading (R97 to R99) -/

/-- CLIP OPEN in the order of its checks (R97). -/
def reqClipOpen (n : Byte) (f k : BitVec 16) (crc : BitVec 32) (s : State) : Answer :=
  let length := f.toNat * k.toNat
  if 31 < n.toNat ∨ f = 0 ∨ k = 0 ∨ 4095 < k.toNat then turnDown s .badParameter
  else if s.live.em.packets ≤ k.toNat then turnDown s .badParameter
  else if (clipRec s n.toNat).mode ≠ .empty then turnDown s .refusedState
  else
    match firstFit s length with
    | none => turnDown s .noRoom
    | some base =>
      ok (setClip n.toNat
          { mode := .loading, frames := f.toNat, perFrame := k.toNat, base := base, length := length, expected := crc } s)
        (be 4 base ++ be 4 length)

def execClipOpen (tag n : Byte) (f k : BitVec 16) (crc : BitVec 32) (s : State) : Outcome :=
  request 0x30 tag (clipOpenBody n f k crc) (reqClipOpen n f k crc) s

/-- The clip record after one loaded packet (R98, steps 2 and 3). -/
def advanceWrite (c : Clip) : Clip :=
  let w := c.writePos + 1
  { c with
    highWater := max c.highWater w
    writePos := if w = c.length then 0 else w
    wraps := if w = c.length then sat 65535 (c.wraps + 1) else c.wraps }

/-- One packet loaded (R98). -/
def loadPacket (n : Nat) (s : State) (p : Packet) : State :=
  let c := clipRec s n
  setClip n (advanceWrite c) (writePackets s (clipAddress (c.base + c.writePos)) [p])

/-- CLIP DATA in the order of its checks (R98). -/
def reqClipData (n : Byte) (packets : List Packet) (s : State) : Answer :=
  if 31 < n.toNat ∨ packets.length = 0 ∨ 5 < packets.length ∨ packets.all Packet.whole = false then turnDown s .badParameter
  else if (clipRec s n.toNat).mode ≠ .loading then turnDown s .refusedState
  else if packets.all hasSync = false then turnDown s .badParameter
  else
    let s := packets.foldl (loadPacket n.toNat) s
    let c := clipRec s n.toNat
    ok s (be 4 c.writePos ++ be 4 c.highWater ++ be 2 c.wraps)

def execClipData (tag n : Byte) (packets : List Packet) (s : State) : Outcome :=
  request 0x31 tag (clipDataBody n packets) (reqClipData n packets) s

/-- CLIP SEEK (R99). -/
def reqClipSeek (n : Byte) (position : BitVec 32) (s : State) : Answer :=
  let c := clipRec s n.toNat
  if 31 < n.toNat then turnDown s .badParameter
  else if c.mode ≠ .loading then turnDown s .refusedState
  else if c.length ≤ position.toNat then turnDown s .badParameter
  else ok (setClip n.toNat { c with writePos := position.toNat } s)

def execClipSeek (tag n : Byte) (position : BitVec 32) (s : State) : Outcome :=
  request 0x32 tag ([n] ++ word32Bytes position) (reqClipSeek n position) s

/-! ## Verification (R100 to R102) -/

/-- The pass of the clip at the head of the queue begins at an oscillator cycle (R100, R101, R103). -/
def beginPass (cycle : Nat) (s : State) : State :=
  s.setClips { s.clips with stepStart := cycle, crc := crcStart, syncFailed := false, streamFailed := false }

def setQueue (q : List Nat) (s : State) : State := s.setClips { s.clips with queue := q }

/-- An entry to REJECTED latches CLIP REJECTED (R102). -/
def reportClip (n : Nat) (s : State) : State :=
  let c := clipRec s n
  let s := noteClip ⟨n, c.mode, c.reason, c.computed.getD 0⟩ s
  if c.mode = .rejected then occur 20 s else s

/-- CLIP CLOSE (R100). -/
def reqClipClose (n : Byte) (s : State) : Answer :=
  let i := n.toNat
  let c := clipRec s i
  if 31 < i then turnDown s .badParameter
  else if c.mode ≠ .loading then turnDown s .refusedState
  else if c.highWater < c.length then ok (reportClip i (setClip i { c with mode := .rejected, reason := some .coverage } s))
  else
    let s' := setQueue (s.clips.queue ++ [i]) (setClip i { c with mode := .verifying, verified := 0 } s)
    ok (if s.clips.queue.isEmpty then beginPass s.clock.cycles s' else s')

def execClipClose (tag n : Byte) (s : State) : Outcome := request 0x33 tag [n] (reqClipClose n) s

/-- The stream judgement of one packet: the set after it, and whether it was a ninth stream (R101). -/
def addStream (set : List Nat) (stream : Nat) : List Nat × Bool :=
  if stream = nullStream ∨ set.contains stream then (set, false)
  else if 8 ≤ set.length then (set, true)
  else (set ++ [stream], false)

/-- One packet of the extent read and judged (R101). -/
def verifyPacket (n : Nat) (s : State) (p : Packet) : State :=
  let c := clipRec s n
  let r := addStream c.streams (streamOf p)
  let s := s.setClips { s.clips with
    crc := crc32 s.clips.crc p
    syncFailed := s.clips.syncFailed || !hasSync p
    streamFailed := s.clips.streamFailed || r.2 }
  setClip n { c with streams := r.1 } s

/-- The packets of a verification step. -/
def stepPackets : Nat := 4096

/-- The cycles of a verification step, one millisecond (R101). -/
def stepCycles : Nat := 10000

/-- The outcome of a pass (R102). -/
def passOutcome (s : State) (c : Clip) : Clip :=
  if s.clips.syncFailed then { c with mode := .rejected, reason := some .sync, computed := some s.clips.crc }
  else if s.clips.streamFailed then { c with mode := .rejected, reason := some .streams, computed := some s.clips.crc }
  else if s.clips.crc ≠ c.expected then { c with mode := .rejected, reason := some .crc, computed := some s.clips.crc }
  else { c with mode := .ready, computed := some s.clips.crc }

/-- The end of a pass: the clip leaves the queue with its outcome, and the next pass begins (R101, R102). -/
def endPass (n : Nat) (rest : List Nat) (s : State) : State :=
  let s := reportClip n (setClip n (passOutcome s (clipRec s n)) s)
  beginPass s.clips.stepStart (setQueue rest s)

/-- The end of a verification step of the head clip (R101; log 4). -/
def verificationEffect (s : State) : State :=
  match s.clips.queue with
  | [] => s
  | n :: rest =>
    if s.clips.stepStart + stepCycles ≤ s.clock.cycles then
      let c := clipRec s n
      let count := min stepPackets (c.length - c.verified)
      let packets := (List.range count).map (fun i => readPacket s (clipAddress (c.base + c.verified + i)))
      let s := packets.foldl (verifyPacket n) s
      let s := setClip n { clipRec s n with verified := c.verified + count } s
      let s := s.setClips { s.clips with stepStart := s.clips.stepStart + stepCycles }
      if c.length ≤ c.verified + count then endPass n rest s else s
    else s

def execVerificationStepEnd (s : State) : Outcome := event verificationEffect s

/-! ## Deletion and status (R103, R105) -/

/-- A clip made EMPTY, taken out of the verification queue; where it stood at the head the next pass begins (R103). -/
def deleteClip (n : Nat) (s : State) : State :=
  let s' := setQueue (s.clips.queue.filter (fun q => q ≠ n)) (setClip n {} s)
  if s.clips.queue.head? = some n then beginPass s.clock.cycles s' else s'

/-- CLIP DELETE (R103). -/
def reqClipDelete (n : Byte) (s : State) : Answer :=
  let c := clipRec s n.toNat
  if 31 < n.toNat then turnDown s .badParameter
  else if c.mode = .empty then turnDown s .notFound
  else if 0 < c.uses then turnDown s .refusedState
  else ok (deleteClip n.toNat s)

def execClipDelete (tag n : Byte) (s : State) : Outcome := request 0x34 tag [n] (reqClipDelete n) s

/-- The place of a clip in the verification queue: 0 not queued, 1 at the head (R105). -/
def queuePlace (s : State) (n : Nat) : Nat :=
  match s.clips.queue.findIdx? (fun q => q = n) with
  | some i => i + 1
  | none => 0

/-- The record of a clip in CLIP STATUS; an EMPTY clip reports 0 (R105). -/
def clipBytes (s : State) (n : Nat) : List Byte :=
  let c := clipRec s n
  if c.mode = .empty then List.replicate 39 0
  else
    be 1 (clipCode c.mode) ++ be 2 c.frames ++ be 2 c.perFrame ++ be 4 c.base ++ be 4 c.length ++ be 4 c.writePos ++
    be 4 c.highWater ++ be 2 c.wraps ++ be 4 c.expected.toNat ++ be 4 (c.computed.getD 0).toNat ++
    be 1 (rejectionCode c.reason) ++ be 4 c.verified ++ be 1 (queuePlace s n) ++ be 1 c.uses ++
    be 1 c.streams.length ++ c.streams.flatMap (fun x : Nat => be 2 x)

/-- The free positions in all, and the length of the longest free run (R105). -/
def freeCounts (s : State) : List Byte :=
  let lengths := (freeRuns s).map Prod.snd
  be 4 (lengths.foldl Nat.add 0 : Nat) ++ be 4 (lengths.foldl Nat.max 0 : Nat)

/-- CLIP STATUS (R105). -/
def reqClipStatus (n : Byte) (s : State) : Answer :=
  if 31 < n.toNat then turnDown s .badParameter else ok s (clipBytes s n.toNat ++ freeCounts s)

def execClipStatus (tag n : Byte) (s : State) : Outcome := request 0x35 tag [n] (reqClipStatus n) s

/-! ## Avail plans (R106 to R108) -/

/-- The key of a request, or none when it is malformed (R106, R184; log 17): an exact key has an avail id, an any-avail key has the
avail field 0. -/
def planKey (kind : Byte) (avail service : BitVec 16) : Option PlanKey :=
  if kind = 0 ∧ avail ≠ 0 then some (.exact avail.toNat)
  else if kind = 1 ∧ avail = 0 ∧ service ≠ 0 then some (.any service.toNat)
  else none

def pairsOf (map : List StreamPair) : List (Nat × Nat) := map.map (fun m => (m.1.toNat, m.2.toNat))

/-- The checks on the map of PLAN SET that need no table (R106, check 2). -/
def mapFits (m : List (Nat × Nat)) : Bool :=
  m.all (fun x => x.1 ≤ 8190) && distinct (m.map Prod.fst) && distinct (m.map Prod.snd)

/-- The table with an entry put under its key (R106). -/
def putPlan (p : Plan) (plans : List Plan) : List Plan :=
  if plans.any (fun q => q.key = p.key) then plans.map (fun q => if q.key = p.key then p else q) else plans ++ [p]

/-- PLAN SET in the order of its checks (R106). -/
def reqPlanSet (keyKind : Byte) (avail service : BitVec 16) (clip harvest early : Byte) (map : List StreamPair) (s : State) :
    Answer :=
  let m := pairsOf map
  match planKey keyKind avail service with
  | none => turnDown s .badParameter
  | some key =>
    if service = 0 ∨ 31 < clip.toNat ∨ 1 < harvest.toNat ∨ 1 < early.toNat ∨ m.length = 0 ∨ 8 < m.length then
      turnDown s .badParameter
    else if !mapFits m then turnDown s .badParameter
    else
      match serviceOf s service.toNat with
      | none => turnDown s .notFound
      | some v =>
        if !(m.all (fun x => v.streams.contains x.2)) then turnDown s .badParameter
        else if !(s.splice.plans.any (fun q => q.key = key)) && 32 ≤ s.splice.plans.length then turnDown s .noRoom
        else
          ok (s.setSplice { s.splice with
            plans := putPlan
              { key := key, service := service.toNat, clip := clip.toNat, map := m, harvest := harvest == 1, early := early == 1 }
              s.splice.plans })

def execPlanSet (tag keyKind : Byte) (avail service : BitVec 16) (clip harvest early : Byte) (map : List StreamPair) (s : State) :
    Outcome :=
  request 0x38 tag (planSetBody keyKind avail service clip harvest early map)
    (reqPlanSet keyKind avail service clip harvest early map) s

/-- PLAN DELETE (R107). -/
def reqPlanDelete (keyKind : Byte) (avail service : BitVec 16) (s : State) : Answer :=
  match planKey keyKind avail service with
  | none => turnDown s .badParameter
  | some key =>
    if s.splice.plans.any (fun q => q.key = key) then
      ok (s.setSplice { s.splice with plans := s.splice.plans.filter (fun q => q.key ≠ key) })
    else turnDown s .notFound

def execPlanDelete (tag keyKind : Byte) (avail service : BitVec 16) (s : State) : Outcome :=
  request 0x39 tag (planDeleteBody keyKind avail service) (reqPlanDelete keyKind avail service) s

/-- The listing order of PLAN LIST (R108): exact keys by avail id, then any-avail keys by service number. -/
def keyBefore : PlanKey → PlanKey → Bool
  | .exact a, .exact b => a < b
  | .exact _, .any _ => true
  | .any _, .exact _ => false
  | .any a, .any b => a < b

def insertPlan (p : Plan) : List Plan → List Plan
  | [] => [p]
  | x :: rest => if keyBefore p.key x.key then p :: x :: rest else x :: insertPlan p rest

/-- The plans in listing order (R108). -/
def listedPlans (s : State) : List Plan := s.splice.plans.foldr insertPlan []

/-- An entry of PLAN LIST (R108). -/
def planBytes (p : Plan) : List Byte :=
  (match p.key with
   | .exact a => be 1 0 ++ be 2 a
   | .any _ => be 1 1 ++ be 2 0) ++
  be 2 p.service ++ be 1 p.clip ++ flagByte p.harvest ++ flagByte p.early ++ be 1 p.map.length ++
  p.map.flatMap (fun m => be 2 m.1 ++ be 2 m.2)

/-- PLAN LIST (R108). -/
def reqPlanList (start : Byte) (s : State) : Answer :=
  if 31 < start.toNat then turnDown s .badParameter
  else
    let shown := ((listedPlans s).drop start.toNat).take 16
    ok s (be 1 s.splice.plans.length ++ be 1 shown.length ++ shown.flatMap planBytes)

def execPlanList (tag start : Byte) (s : State) : Outcome := request 0x3A tag [start] (reqPlanList start) s

end Sys2Proof.Machine
end

