-- ==== Sys2Proof/Machine/EmissionOps.lean ====
section
/-! DEFINITION. The Emission Scheduler's shared operations (04): the grids, the mute-reason set, entries to OFF and ANCHORING, and the
judging of the clock's fitness; with the Frame Store's emptying (R64). -/

namespace Sys2Proof.Machine
open Sys2Proof

/-! ## Instants -/

/-- The configured frame period and packets per frame. -/
def period (s : State) : Nat := s.live.em.period
def perFrame (s : State) : Nat := s.live.em.packets

/-- The predicted instant of frame number k (R46, section 4.4). -/
def frameInstant (s : State) (a : Anchor) (k : Nat) : Int := a.instant + (k * period s : Nat)

/-- The offset of packet j from its frame's first packet (R79, R80). -/
def packetOffset (s : State) (j : Nat) : Nat := j * period s / perFrame s

/-- The instant of packet j of frame number k on the emission grid (R79). -/
def gridInstant (s : State) (a : Anchor) (k j : Nat) : Int := frameInstant s a k + (packetOffset s j : Nat)

/-- The instant of the next free-grid position (R80). -/
def freeInstant (s : State) : Int := s.em.origin + (s.em.freePeriod * period s + packetOffset s s.em.freePacket : Nat)

/-- The sequence of frame number k (section 4.4). -/
def frameSeq (a : Anchor) (k : Nat) : Seq := a.seq + BitVec.ofNat 16 k

/-! ## Counts and the mute-reason set -/

def countEmission (f : EmissionCounts → EmissionCounts) (s : State) : State := s.setEm { s.em with counts := f s.em.counts }

/-- A 32-bit count that saturates (R90). -/
def sat32 (n : Nat) : Nat := sat 4294967295 n

/-- The mute-reason set; each change to it is an occasion of an EMISSION notice (R90). -/
def setMute (m : MuteSet) (s : State) : State :=
  if m = s.em.mute then s else noteEmission 11 (s.setEm { s.em with mute := m })

/-! ## Emptying the Frame Store (R64) -/

def emptyStore (s : State) : State :=
  setBase none (s.setStore { s.store with slots := List.replicate Config.slots .free, jumpRun := 0, mismatchRun := 0 })

/-! ## Entries to OFF and ANCHORING (R70, R71) -/

/-- Leaving RUNNING: a frame whose packets are leaving is cut (R81), and the free grid takes its origin from that frame, so that
its remaining positions are filled at their own instants (R80). Between two frames the frame is the one that has just left. -/
def leaveRunning (s : State) : State :=
  match s.em.mode, s.em.anchor with
  | .running, some a =>
    if s.em.runPacket = 0 then
      s.setEm { s.em with
        origin := frameInstant s a s.em.runFrame - (period s : Int), freePeriod := 1, freePacket := 0 }
    else
      countEmission (fun c => { c with cut := sat32 (c.cut + 1) })
        (s.setEm { s.em with origin := frameInstant s a s.em.runFrame, freePeriod := 0, freePacket := s.em.runPacket })
  | _, _ => s

/-- The part of both entries that empties the store, drops the anchor record and removes FEED, TIME and NETWORK (R70, R71). -/
def dropAnchor (s : State) : State :=
  let s := emptyStore (leaveRunning s)
  let s := s.setEm { s.em with anchor := none, gapRun := 0, resumeRun := 0 }
  setMute { host := s.em.mute.host } s

/-- Entry to OFF (R70); the directive power returns to 1000 (R136). -/
def enterOff (s : State) : State :=
  let s := noteEmission 3 (dropAnchor s)
  let s := spliceOff (s.setEm { s.em with mode := .off })
  setDirectivePower 1000 s

/-- Entry to ANCHORING (R71). The occasion is its cause (R90): 1 START EMISSION, 2 AUTO START, 4 RE-ANCHOR, 5 SEQUENCE JUMP, 6
TIMING MISMATCH, 7 step. It is noted at every entry, also at one made from ANCHORING itself (log 52). -/
def enterAnchoring (occasion : Nat) (s : State) : State :=
  let fromOff := s.em.mode == .off
  let s := noteEmission occasion (dropAnchor s)
  let s := s.setEm { s.em with
    mode := .anchoring
    offset := s.em.pendingOffset.getD s.em.offset
    pendingOffset := none }
  let s := if fromOff then s else countEmission (fun c => { c with reAnchors := sat32 (c.reAnchors + 1) }) s
  spliceAnchoring s

/-- A re-anchor request or a step event at the Emission Scheduler: none of its entries is made in OFF (R72, R88). -/
def reAnchorUnlessOff (occasion : Nat) (s : State) : State :=
  if s.em.mode = .off then s else enterAnchoring occasion s

/-! ## The clock's fitness (R76, R84) -/

/-- The abandonment of a chosen anchor (R76). -/
def abandonAnchor (s : State) : State :=
  let s := emptyStore s
  let s := s.setEm { s.em with anchor := none }
  noteEmission 10 (countEmission (fun c => { c with anchorsAbandoned := sat32 (c.anchorsAbandoned + 1) }) s)

/-- What STAMPED emission makes of the clock at every event that may change its fitness: between an anchor's choice and E_anchor
an unfit clock abandons it (R76); in RUNNING the set holds TIME exactly while the clock is not fit (R84). -/
def judgeFit (s : State) : State :=
  if s.live.em.singleSite then s
  else
    match s.em.mode with
    | .anchoring => if s.em.anchor.isSome && !clockFit s then abandonAnchor s else s
    | .running => setMute { s.em.mute with time := !clockFit s } s
    | .off => s

end Sys2Proof.Machine
end

