-- ==== Sys2Proof/Machine/StoreOps.lean ====
section
/-! DEFINITION. The Frame Store's shared operations (03): admission of offers in the order of R48's tests, anchoring on a candidate
(R73 to R75), duplicates and upgrades, the runs that ask for a re-anchor, takes, and ends of frame. -/

namespace Sys2Proof.Machine
open Sys2Proof

/-- An offer (R40, section 3.3). -/
structure Offer where
  port : PortId
  quality : Quality
  hash : BitVec 32
  arrival : Int
  timing : TimingRec
  packets : List Packet

/-! ## Slots -/

/-- The slot that a sequence selects (R45). -/
def slotIndex (seq : Seq) : Nat := seq.toNat % Config.slots

def slotOf (s : State) (seq : Seq) : Slot := s.store.slots.getD (slotIndex seq) .free

def setSlot (seq : Seq) (x : Slot) (s : State) : State :=
  s.setStore { s.store with slots := s.store.slots.set (slotIndex seq) x }

def countOffer (p : PortId) (f : AdmissionCounts → AdmissionCounts) (s : State) : State :=
  s.setStore { s.store with counts := s.store.counts.set p (f (s.store.counts.get p)) }

/-- The predicted instant P(s) of a sequence in the window (R46). -/
def predicted (s : State) (a : Anchor) (base seq : Seq) : Int := a.instant + (a.counter + Seq.distance base seq) * (period s : Int)

/-- The delay D + O − C of an offer (R49). -/
def offerDelay (s : State) (o : Offer) : Int := o.timing.delay + s.em.offset - s.live.em.chainDelay

/-- The emission instant that the stamps give (R49, steps 1 to 3). -/
def stampedInstant (s : State) (o : Offer) : Int :=
  let r := (o.arrival - o.timing.stamp) / (Config.second : Int)
  r * Config.second + o.timing.stamp + offerDelay s o

/-- A STAMPED offer is late (R49). -/
def stampedLate (s : State) (o : Offer) : Bool :=
  o.arrival < (o.timing.stamp : Int) || offerDelay s o ≤ 0 || stampedInstant s o - o.arrival < Config.stageLead

/-! ## Placing a copy (R54, R56 to R58) -/

/-- The copy placed in its slot: its packets, the fields, the cues handed on and listed, the directives listed, and its delay
budget given to the Emission Scheduler. -/
def placeCopy (o : Offer) (instant : Int) (s : State) : State :=
  let seq := o.timing.seq
  let s := writePackets s (slotAddress (slotIndex seq) 0) o.packets
  let s := setSlot seq (.held
    { seq := seq, source := o.port, quality := o.quality, hash := o.hash, arrival := o.arrival, emission := instant,
      cues := o.timing.cues, directives := o.timing.directives }) s
  let s := networkCues seq o.timing.cues s
  s.setEm { s.em with dLast := o.timing.delay }

/-- Admission into a FREE slot (R54). -/
def admitCopy (o : Offer) (instant : Int) (s : State) : State :=
  countOffer o.port (fun c => { c with admitted := sat 65535 (c.admitted + 1) }) (placeCopy o instant s)

/-! ## Anchor candidates (R50, R73 to R75) -/

/-- The required depth: the delay in frame periods, rounded up, plus one (R73). -/
def requiredDepth (s : State) (delay : Int) : Int := -((-delay) / (period s : Int)) + 1

/-- The anchor instant of a candidate (R74). -/
def anchorInstant (s : State) (o : Offer) : Int :=
  if s.live.em.singleSite then o.arrival + s.live.em.bufferDelay else stampedInstant s o

/-- The delay that the depth check divides (R73). -/
def depthDelay (s : State) (o : Offer) : Int := if s.live.em.singleSite then s.live.em.bufferDelay else offerDelay s o

/-- A candidate taken as anchor (R75, R51). -/
def takeAnchor (o : Offer) (s : State) : State :=
  let instant := anchorInstant s o
  let s := s.setEm { s.em with anchor := some { seq := o.timing.seq, instant := instant } }
  let s := setBase (some o.timing.seq) s
  let s := admitCopy o instant s
  let s := s.setStore { s.store with jumpRun := 0, mismatchRun := 0 }
  noteEmission 9 (countEmission (fun c => { c with anchorsTaken := sat32 (c.anchorsTaken + 1) }) s)

/-- An offer while ANCHORING with no anchor: lateness, then the tests of R74 in order (R50). -/
def judgeCandidate (o : Offer) (s : State) : State :=
  let stamped := !s.live.em.singleSite
  if stamped && stampedLate s o then countOffer o.port (fun c => { c with late := sat 65535 (c.late + 1) }) s
  else if stamped && !clockFit s then s
  else if stamped && stampedInstant s o - o.arrival < s.live.em.lead then s
  else if 64 < requiredDepth s (depthDelay s o) then
    occur 16 (countEmission (fun c => { c with depthRefusals := sat32 (c.depthRefusals + 1) }) s)
  else if anchorInstant s o - Config.stageLead ≤ s.clock.time then s
  else takeAnchor o s

/-! ## The runs (R62, R63) -/

/-- A STALE or AHEAD offer on the jump run: counted when its port is GOOD; at 3 SEQUENCE JUMP latches and a re-anchor request
is delivered (R62). -/
def jumpStep (o : Offer) (s : State) : State :=
  if (s.feed.ports.get o.port).mode = .good then
    if 3 ≤ s.store.jumpRun + 1 then
      reAnchorUnlessOff 5 (occur 15 (s.setStore { s.store with jumpRun := 0 }))
    else s.setStore { s.store with jumpRun := s.store.jumpRun + 1 }
  else s

/-- A MISMATCH on the mismatch run (R63). -/
def mismatchStep (s : State) : State :=
  if 3 ≤ s.store.mismatchRun + 1 then
    reAnchorUnlessOff 6 (occur 14 (s.setStore { s.store with mismatchRun := 0 }))
  else s.setStore { s.store with mismatchRun := s.store.mismatchRun + 1 }

def staleOffer (o : Offer) (s : State) : State :=
  jumpStep o (countOffer o.port (fun c => { c with stale := sat 65535 (c.stale + 1) }) s)

def aheadOffer (o : Offer) (s : State) : State :=
  jumpStep o (countOffer o.port (fun c => { c with ahead := sat 65535 (c.ahead + 1) }) s)

/-! ## Duplicates and upgrades (R55, R56) -/

def duplicateSame (o : Offer) (s : State) : State :=
  countOffer o.port (fun c => { c with duplicateSame := sat 65535 (c.duplicateSame + 1) }) s

/-- An offer that finds its slot HELD (R55, R56). -/
def compareCopy (o : Offer) (instant : Int) (h : Held) (s : State) : State :=
  match h.quality, o.quality with
  | .clean, .clean =>
    if h.hash = o.hash then duplicateSame o s
    else occur 12 (countOffer o.port (fun c => { c with duplicateDivergent := sat 65535 (c.duplicateDivergent + 1) }) s)
  | .clean, .flawed => duplicateSame o s
  | .flawed, .clean => countOffer o.port (fun c => { c with upgraded := sat 65535 (c.upgraded + 1) }) (placeCopy o instant s)
  | .flawed, .flawed => duplicateSame o s

/-! ## Admission (R48) -/

/-- The instant of an offer judged with a window, and whether it is late (R49). -/
def windowInstant (s : State) (a : Anchor) (base : Seq) (o : Offer) : Int :=
  if s.live.em.singleSite then predicted s a base o.timing.seq else stampedInstant s o

def windowLate (s : State) (a : Anchor) (base : Seq) (o : Offer) : Bool :=
  if s.live.em.singleSite then predicted s a base o.timing.seq - o.arrival < Config.stageLead else stampedLate s o

/-- A STAMPED offer is consistent with prediction (R53). -/
def consistent (s : State) (a : Anchor) (base : Seq) (o : Offer) : Bool :=
  (stampedInstant s o - predicted s a base o.timing.seq).natAbs ≤ s.live.em.mismatch

/-- Tests 9 and 10, for an offer that has passed the rest: its runs are set to 0 (R62, R63), and it is admitted or compared. -/
def settleOffer (o : Offer) (instant : Int) (s : State) : State :=
  let s := s.setStore { s.store with
    jumpRun := 0, mismatchRun := if s.live.em.singleSite then s.store.mismatchRun else 0 }
  match slotOf s o.timing.seq with
  | .held h => compareCopy o instant h s
  | _ => admitCopy o instant s

/-- Tests 4 to 10, with a window (R48, R52, R53). -/
def judgeWindow (o : Offer) (a : Anchor) (base : Seq) (s : State) : State :=
  let d := Seq.distance base o.timing.seq
  if d < 0 then staleOffer o s
  else if 64 ≤ d then aheadOffer o s
  else
    match slotOf s o.timing.seq with
    | .taken _ _ => staleOffer o s
    | _ =>
      if windowLate s a base o then countOffer o.port (fun c => { c with late := sat 65535 (c.late + 1) }) s
      else if !s.live.em.singleSite && !consistent s a base o then
        mismatchStep (countOffer o.port (fun c => { c with mismatch := sat 65535 (c.mismatch + 1) }) s)
      else settleOffer o (windowInstant s a base o) s

/-- An offer at the Frame Store (R48): OFF, the step mark, the anchor candidate, then the window. -/
def takeOffer (o : Offer) (s : State) : State :=
  if s.em.mode = .off then s
  else if s.store.marks.get o.port then s.setStore { s.store with marks := s.store.marks.set o.port false }
  else
    match s.em.anchor, s.store.base with
    | some a, some b => judgeWindow o a b s
    | _, _ => judgeCandidate o s

/-! ## Takes and ends of frame (R59, R61, R78) -/

/-- The slot of a sequence taken (R59). -/
def takeSlot (seq : Seq) (s : State) : State :=
  match slotOf s seq with
  | .held h => setSlot seq (.taken seq (some h)) s
  | .free => setSlot seq (.taken seq none) s
  | .taken _ _ => s

/-- The frame counter at which the anchor record is rebased (R78). -/
def rebaseAt : Nat := 2147483648

/-- The anchor record rebased when the frame counter reaches 2^31 (R78). -/
def rebase (s : State) : State :=
  match s.em.anchor with
  | some a =>
    if a.counter = rebaseAt then
      s.setEm { s.em with
        anchor := some { a with
          instant := a.instant + (rebaseAt * period s : Nat), counter := a.counter - rebaseAt, next := a.next - rebaseAt }
        runFrame := s.em.runFrame - rebaseAt }
    else s
  | none => s

/-- The end of frame b (R61): its slot is FREE, and b and the frame counter gain one. -/
def endFrame (s : State) : State :=
  match s.store.base, s.em.anchor with
  | some b, some a =>
    let s := setBase (some (b + 1)) (setSlot b .free s)
    s.setEm { s.em with anchor := some { a with counter := a.counter + 1 } }
  | _, _ => s

/-- A step event moves the instants of every HELD and TAKEN slot and sets the step marks (R47). -/
def moveStoreTimes (delta : Int) (s : State) : State :=
  let move (h : Held) : Held := { h with arrival := h.arrival + delta, emission := h.emission + delta }
  let one : Slot → Slot
    | .free => .free
    | .held h => .held (move h)
    | .taken seq c => .taken seq (c.map move)
  s.setStore { s.store with slots := s.store.slots.map one, marks := ⟨true, true⟩ }

end Sys2Proof.Machine
end

