-- ==== Sys2Proof/Machine/Emission.lean ====
section
/-! DEFINITION. The Emission Scheduler's commands (04): takes, the anchor reached, packets on both grids, and its requests. -/

namespace Sys2Proof.Machine
open Sys2Proof

/-! ## Frame starts (R79, R82, R83, R86) -/

/-- A packet leaves the output port at its instant (R79, R80; logs 28 and 39). -/
def sendPacket (instant : Int) (p : Packet) (s : State) : State := s.setEm { s.em with out := some ⟨instant, p⟩ }

/-- The frame a sequence's TAKEN slot gives, or none for a slot taken empty (R59). -/
def frameContent (s : State) (seq : Seq) : Option Held :=
  match slotOf s seq with
  | .taken _ c => c
  | _ => none

/-- The release stamp of the null frame of frame number k (R82). -/
def nullStamp (s : State) (a : Anchor) (k : Nat) : Nat :=
  ((frameInstant s a k - s.em.dLast - s.em.offset + s.live.em.chainDelay) % (Config.second : Int)).toNat

/-- Packet 0 of frame number k: the timing packet as held, or the synthesized one (R79, R82). -/
def timingPacket (s : State) (a : Anchor) (k : Nat) : Packet :=
  let seq := frameSeq a k
  match frameContent s seq with
  | some _ => readPacket s (slotAddress (slotIndex seq) 0)
  | none =>
    nullTiming s.live.feed.timingStream seq (nullStamp s a k) s.em.dLast (period s) (perFrame s) (s.em.lastCount + 1)

/-- The gap accounting of a frame start (R83). -/
def gapAccounting (real : Bool) (s : State) : State :=
  if real then
    let resume := if s.em.mute.feed then sat 15 (s.em.resumeRun + 1) else 0
    if s.em.mute.feed && s.live.em.resume ≤ resume then
      let s := s.setEm { s.em with gapRun := 0, resumeRun := 0 }
      setMute { s.em.mute with feed := false } s
    else s.setEm { s.em with gapRun := 0, resumeRun := resume }
  else
    let gap := sat 255 (s.em.gapRun + 1)
    let s := s.setEm { s.em with gapRun := gap, resumeRun := 0 }
    if !s.em.mute.feed && s.live.em.gapLimit ≤ gap then occur 13 (setMute { s.em.mute with feed := true } s) else s

/-- The pending offset, clamped (R86, R87). -/
def setPendingOffset (o : Int) (s : State) : State :=
  s.setEm { s.em with pendingOffset := some (clamp (-500000) 500000 o) }

def countPassed (s : State) : State := countEmission (fun c => { c with directivesPassed := sat32 (c.directivesPassed + 1) }) s
def countActed (s : State) : State := countEmission (fun c => { c with directivesActed := sat32 (c.directivesActed + 1) }) s

/-- One directive entry (R86, R183): acted on when it is addressed to this site or to all and its kind is one of the four. -/
def actDirective (s : State) (d : Directive) : State :=
  if d.target = 0 ∨ d.target.toNat = s.live.em.siteId then
    if d.kind = 1 then countActed (setMute { s.em.mute with network := true } s)
    else if d.kind = 2 then countActed (setMute { s.em.mute with network := false } s)
    else if d.kind = 3 then countActed (setDirectivePower d.value.toInt s)
    else if d.kind = 4 then countActed (setPendingOffset d.value.toInt s)
    else countPassed s
  else countPassed s

/-- The start of frame number k: its packet 0 leaves, Splicing makes its returns, starts and due counts, and then the gap
accounting and the directives are made (R79, R83, R86). -/
def startFrame (a : Anchor) (k : Nat) (s : State) : State :=
  let seq := frameSeq a k
  let p := timingPacket s a k
  let content := frameContent s seq
  let s := sendPacket (frameInstant s a k) p s
  let s := s.setEm { s.em with lastCount := continuityOf p, runFrame := k, runPacket := 1 }
  let s := countEmission (fun c =>
    if content.isSome then { c with real := sat32 (c.real + 1) } else { c with null := sat32 (c.null + 1) }) s
  let s := gapAccounting content.isSome (spliceFrameStart seq s)
  match content with
  | some h => h.directives.foldl actDirective s
  | none => s

/-- Packet j of frame number k, for j from 1 on, before Splicing sees it (R79). -/
def framePacket (s : State) (a : Anchor) (k j : Nat) : Packet :=
  let seq := frameSeq a k
  match frameContent s seq with
  | some _ => readPacket s (slotAddress (slotIndex seq) j)
  | none => nullPacket

/-- The end of a frame at the Frame Store and at Splicing, with the rebase of R78 (R61, R79, R123). -/
def finishFrame (s : State) : State :=
  spliceFrameEnd (rebase (endFrame (s.setEm { s.em with runFrame := s.em.runFrame + 1, runPacket := 0 })))

/-- Packet j of frame number k leaves, for j from 1 on, as Splicing gives it back (R79). -/
def departPacket (a : Anchor) (k j : Nat) (s : State) : State :=
  let r := substitute (framePacket s a k j) s
  let s := sendPacket (gridInstant s a k j) r.1 r.2
  if j + 1 = perFrame s then finishFrame s else s.setEm { s.em with runPacket := j + 1 }

/-! ## Events (R77 to R80) -/

/-- The next take is due: its cut-off has come (R78; log 35). -/
def takeDue (s : State) (a : Anchor) : Bool :=
  frameInstant s a a.next - Config.stageLead ≤ s.clock.time && a.next ≤ a.counter + 1 && (a.next == 0 || s.em.mode == .running)

/-- The effect of a take (R78, R59). -/
def takeEffect (s : State) : State :=
  match s.em.anchor with
  | some a =>
    if takeDue s a then
      let s := takeSlot (frameSeq a a.next) s
      s.setEm { s.em with anchor := some { a with next := a.next + 1 } }
    else s
  | none => s

def execTake (s : State) : Outcome := event takeEffect s

/-- E_anchor is reached with the anchor standing and its frame taken (R77; log 35). -/
def anchorDue (s : State) (a : Anchor) : Bool :=
  s.em.mode == .anchoring && a.instant ≤ s.clock.time && 1 ≤ a.next

/-- Entry to RUNNING, and the anchor frame's start in the same event (R77). -/
def anchorReachedEffect (s : State) : State :=
  match s.em.anchor with
  | some a =>
    if anchorDue s a then
      let s := noteEmission 8 (setMute { host := s.em.mute.host } s)
      let s := s.setEm { s.em with mode := .running, gapRun := 0, resumeRun := 0, runFrame := 0, runPacket := 0 }
      startFrame a 0 (judgeFit (spliceRunning a.seq s))
    else s
  | none => s

def execAnchorReached (s : State) : Outcome := event anchorReachedEffect s

/-- The next packet of the emission grid is due (R79). -/
def departureDue (s : State) (a : Anchor) : Bool :=
  s.em.mode == .running && gridInstant s a s.em.runFrame s.em.runPacket ≤ s.clock.time &&
  (s.em.runPacket != 0 || decide (s.em.runFrame < a.next))

/-- The next packet of the running frame, or the start of the next one (R79). -/
def departureEffect (s : State) : State :=
  match s.em.anchor with
  | some a =>
    if departureDue s a then
      if s.em.runPacket = 0 then startFrame a s.em.runFrame s else departPacket a s.em.runFrame s.em.runPacket s
    else s
  | none => s

def execPacketDeparture (s : State) : Outcome := event departureEffect s

/-- No free-grid packet is sent at an instant less than 24 STU before E_anchor, nor from it on (R80; log 26). -/
def freeWithheld (s : State) : Bool :=
  match s.em.anchor with
  | some a => a.instant - 24 < freeInstant s
  | none => false

/-- The next position of the free grid (R80). -/
def freeGridEffect (s : State) : State :=
  if s.em.mode ≠ .running ∧ freeInstant s ≤ s.clock.time then
    let s := if freeWithheld s then s else sendPacket (freeInstant s) nullPacket s
    if perFrame s ≤ s.em.freePacket + 1 then s.setEm { s.em with freePeriod := s.em.freePeriod + 1, freePacket := 0 }
    else s.setEm { s.em with freePacket := s.em.freePacket + 1 }
  else s

def execFreeGridPacket (s : State) : Outcome := event freeGridEffect s

/-! ## Requests (R69, R70, R72, R85, R87, R91) -/

/-- START EMISSION (R69). -/
def reqStartEmission (s : State) : Answer :=
  if s.em.mode = .off then ok (enterAnchoring 1 s) else turnDown s .refusedState

def execStartEmission (tag : Byte) (s : State) : Outcome := request 0x20 tag [] reqStartEmission s

/-- STOP EMISSION (R70). -/
def reqStopEmission (s : State) : Answer := if s.em.mode = .off then ok s else ok (enterOff s)

def execStopEmission (tag : Byte) (s : State) : Outcome := request 0x21 tag [] reqStopEmission s

/-- RE-ANCHOR (R72). -/
def reqReAnchor (s : State) : Answer :=
  if s.em.mode = .off then turnDown s .refusedState else ok (enterAnchoring 4 s)

def execReAnchor (tag : Byte) (s : State) : Outcome := request 0x22 tag [] reqReAnchor s

/-- MUTE (R85). -/
def reqMute (s : State) : Answer := ok (setMute { s.em.mute with host := true } s)

def execMute (tag : Byte) (s : State) : Outcome := request 0x23 tag [] reqMute s

/-- UNMUTE (R85). -/
def reqUnmute (s : State) : Answer := ok (setMute { s.em.mute with host := false } s)

def execUnmute (tag : Byte) (s : State) : Outcome := request 0x24 tag [] reqUnmute s

/-- SET OFFSET (R87). -/
def reqSetOffset (o : BitVec 32) (s : State) : Answer :=
  let held := clamp (-500000) 500000 o.toInt
  ⟨setPendingOffset o.toInt s, if held = o.toInt then .ok else .adjusted, be 4 held⟩

def execSetOffset (tag : Byte) (o : BitVec 32) (s : State) : Outcome := request 0x25 tag (word32Bytes o) (reqSetOffset o) s

/-- The nine emission counts in the order of R90. -/
def emissionCountBytes (c : EmissionCounts) : List Byte :=
  be 4 c.real ++ be 4 c.null ++ be 4 c.cut ++ be 4 c.anchorsTaken ++ be 4 c.anchorsAbandoned ++ be 4 c.depthRefusals ++
  be 4 c.reAnchors ++ be 4 c.directivesActed ++ be 4 c.directivesPassed

/-- The anchor part of EMISSION STATUS: present, s_anchor, E_anchor and the frame counter, or zeros. -/
def anchorBytes : Option Anchor → List Byte
  | some a => be 1 1 ++ be 2 a.seq.toNat ++ be 8 a.instant ++ be 4 a.counter
  | none => be 1 0 ++ be 2 0 ++ be 8 0 ++ be 4 0

/-- The body of EMISSION STATUS (R91). -/
def emissionStatusBody (s : State) : List Byte :=
  flagByte s.live.em.singleSite ++ be 1 (emissionCode s.em.mode) ++ be 1 (muteBits s.em.mute) ++ anchorBytes s.em.anchor ++
  be 4 s.em.offset ++ flagByte s.em.pendingOffset.isSome ++ be 4 (s.em.pendingOffset.getD 0) ++ be 4 s.em.dLast ++
  be 1 s.em.gapRun ++ be 1 s.em.resumeRun ++ emissionCountBytes s.em.counts

/-- EMISSION STATUS (R91). -/
def reqEmissionStatus (clear : Byte) (s : State) : Answer :=
  reportAndClear clear (emissionStatusBody s) (countEmission (fun _ => {})) s

def execEmissionStatus (tag clear : Byte) (s : State) : Outcome := request 0x26 tag [clear] (reqEmissionStatus clear) s

end Sys2Proof.Machine
end

