-- ==== Sys2Proof/Machine/Feed.lean ====
section
/-! DEFINITION. Feed Intake (02): alignment, assembly, continuity, verdicts and the impairment average, offers, and its commands; with
the Frame Store's two reports (03). -/

namespace Sys2Proof.Machine
open Sys2Proof

/-! ## Port records -/

def portRec (s : State) (p : PortId) : PortRec := s.feed.ports.get p

def setPort (p : PortId) (x : PortRec) (s : State) : State := s.setFeed { s.feed with ports := s.feed.ports.set p x }

def countPort (p : PortId) (f : PortCounts → PortCounts) (s : State) : State :=
  let x := portRec s p
  setPort p { x with counts := f x.counts } s

def isAligned : PortMode → Bool
  | .good | .impaired | .failed => true
  | _ => false

/-- A change of port state: both debounce counts become 0 (R38; log 18), and the FEED notice of this command carries the state
before it and the average at the change (R42); of two changes in one event, the state before the first and the average at the last
(log 57). -/
def setPortMode (p : PortId) (m : PortMode) (s : State) : State :=
  let x := portRec s p
  if x.mode = m then s
  else
    let before := match s.ev.portNotes.get p with
      | some n => n.before
      | none => x.mode
    let s := setPort p { x with mode := m, degrade := 0, recover := 0 } s
    s.setEv { s.ev with portNotes := s.ev.portNotes.set p (some ⟨before, x.average⟩) }

/-- Items 8, 9 FEED A, B IMPAIRED and 10, 11 FEED A, B FAILED (R42). -/
def impairedItem : PortId → Nat
  | .a => 8
  | .b => 9

def failedItem : PortId → Nat
  | .a => 10
  | .b => 11

/-- The alignment state at its start values (R24, R25, R44), the table emptied, the assembly discarded and the deadline absent:
what a port loses when it leaves alignment. Its assembly phase is HUNTING from then on (log 44). -/
def loseAlignment (p : PortId) (s : State) : State :=
  setPort p
    { portRec s p with
      runs := List.replicate 188 0, phase := 0, packetPhase := none, firstByte := none, wrongSync := 0, assembling := false, opened := none,
      continuity := [], deadline := none } s

/-! ## Service streams and continuity (R35, R36) -/

/-- The service streams as Feed Intake sees them: without the timing stream and the null stream (R35). -/
def feedStreams (s : State) : List Nat :=
  (serviceStreams s).filter (fun st => st ≠ s.live.feed.timingStream && st ≠ nullStream)

/-- The continuity table brought into line with the service streams (R35). -/
def alignContinuity (p : PortId) (s : State) : State :=
  let x := portRec s p
  setPort p { x with continuity := (feedStreams s).map (fun st => (st, (x.continuity.lookup st).join)) } s

/-- Entry to HUNTING (R33, R35). -/
def enterHunting (p : PortId) (s : State) : State :=
  alignContinuity p (setPort p { portRec s p with assembling := false, opened := none } s)

/-- Whether a packet fails the check against an entry (R36). -/
def continuityFails (entry : Option Nat) (k : Packet) : Bool :=
  match entry with
  | none => false
  | some c =>
    if transportError k then false
    else if carriesPayload k then continuityOf k != (c + 1) % 16
    else continuityOf k != c

/-- The continuity check of an aligned packet that is not damaged (R36): the table after it, and whether it failed. -/
def checkContinuity (x : PortRec) (k : Packet) : PortRec × Bool :=
  match x.continuity.lookup (streamOf k) with
  | none => (x, false)
  | some entry =>
    let after := if transportError k then none else some (continuityOf k)
    let failed := continuityFails entry k
    ({ x with
        continuity := x.continuity.map (fun e => if e.1 = streamOf k then (e.1, after) else e)
        counts :=
          if failed then { x.counts with continuityErrors := sat 65535 (x.counts.continuityErrors + 1) } else x.counts },
      failed)

/-! ## Verdicts (R37, R38, R39) -/

inductive Verdict where
  | clean | flawed | short | badTiming | format | silence
deriving DecidableEq, Repr

/-- The sample of a verdict (section 2.5). -/
def sampleOf : Verdict → Int
  | .clean => 0
  | .flawed => 32768
  | _ => 65535

def countVerdict : Verdict → PortCounts → PortCounts
  | .clean, c => { c with clean := sat 65535 (c.clean + 1) }
  | .flawed, c => { c with flawed := sat 65535 (c.flawed + 1) }
  | .short, c => { c with short := sat 65535 (c.short + 1) }
  | .badTiming, c => { c with badTiming := sat 65535 (c.badTiming + 1) }
  | .format, c => { c with format := sat 65535 (c.format + 1) }
  | .silence, c => { c with silence := sat 65535 (c.silence + 1) }

/-- The impairment average after a sample (R37). -/
def averageAfter (shift : Nat) (a : Nat) (x : Int) : Nat := (a + (x - a) / (2 : Int) ^ shift).toNat

/-- A port enters IMPAIRED, or FAILED, and the item latches (R38, R42). -/
def enterImpaired (p : PortId) (s : State) : State := occur (impairedItem p) (setPortMode p .impaired s)
def enterFailed (p : PortId) (s : State) : State := occur (failedItem p) (setPortMode p .failed s)

/-- The debounce counts judged against the updated average, and the change of state they cause (R38). -/
def judgeHealth (p : PortId) (s : State) : State :=
  let q := s.live.feed
  let x := portRec s p
  let a : Int := x.average
  match x.mode with
  | .good =>
    let d := if (q.impair : Int) ≤ a then sat 15 (x.degrade + 1) else 0
    let s := setPort p { x with degrade := d, recover := 0 } s
    if q.enter ≤ d then enterImpaired p s else s
  | .impaired =>
    let d := if (q.fail : Int) ≤ a then sat 15 (x.degrade + 1) else 0
    let r := if a < (q.impair : Int) - q.hysteresis then sat 15 (x.recover + 1) else 0
    let s := setPort p { x with degrade := d, recover := r } s
    if q.enter ≤ d then enterFailed p s
    else if q.exit ≤ r then setPortMode p .good s
    else s
  | .failed =>
    let r := if a < (q.fail : Int) - q.hysteresis then sat 15 (x.recover + 1) else 0
    let s := setPort p { x with degrade := 0, recover := r } s
    if q.exit ≤ r then enterImpaired p s else s
  | _ => s

/-- A verdict: the average and the count of its kind, the silence deadline, and the port's health (R37, R38, R39). A SILENCE verdict
sets the deadline one period after the one that has come. -/
def giveVerdict (p : PortId) (v : Verdict) (s : State) : State :=
  let x := portRec s p
  let deadline := if v = .silence then x.deadline.map (· + (period s : Int)) else some (s.clock.time + 2 * (period s : Int))
  let s := setPort p
    { x with
      average := averageAfter s.live.feed.healthShift x.average (sampleOf v)
      counts := countVerdict v x.counts
      deadline := deadline } s
  judgeHealth p s

/-! ## Offers (R40, R41) -/

/-- The port is held out by FEED HOLD (R41). -/
def heldOut (s : State) (p : PortId) : Bool :=
  match s.feed.hold with
  | some q => q != p
  | none => false

/-- A completed frame, after its verdict has been scored (R40). -/
def offerFrame (p : PortId) (f : Assembly) (q : Quality) (s : State) : State :=
  if (portRec s p).mode = .good ∨ (portRec s p).mode = .impaired then
    if heldOut s p then countPort p (fun c => { c with heldBack := sat 65535 (c.heldBack + 1) }) s
    else
      takeOffer { port := p, quality := q, hash := f.hash, arrival := f.arrival, timing := f.timing, packets := f.buffer }
        (countPort p (fun c => { c with offered := sat 65535 (c.offered + 1) }) s)
  else s

/-- The frame is complete (R31): its record is closed, it receives its verdict, and it may be offered. -/
def completeFrame (p : PortId) (f : Assembly) (s : State) : State :=
  let q : Quality := if f.transportErrors = 0 ∧ f.continuityErrors = 0 then .clean else .flawed
  let s := setPort p { portRec s p with opened := none } s
  offerFrame p f q (giveVerdict p (if q = .clean then .clean else .flawed) s)

/-! ## Aligned packets (R27 to R33) -/

/-- A packet added to the open frame (R31); `failed` is its continuity check. -/
def addPacket (p : PortId) (f : Assembly) (k : Packet) (failed : Bool) (s : State) : State :=
  let te := transportError k
  let f : Assembly :=
    { f with
      buffer := f.buffer ++ [k]
      hash := crc32 f.hash k
      transportErrors := if te then f.transportErrors + 1 else f.transportErrors
      continuityErrors := if failed then f.continuityErrors + 1 else f.continuityErrors
      count := f.count + 1 }
  let s := if te then countPort p (fun c => { c with transportErrors := sat 65535 (c.transportErrors + 1) }) s else s
  let s := setPort p { portRec s p with opened := some f } s
  if f.count = perFrame s then completeFrame p f s else s

/-- A packet that is not a timing candidate, after a completion: a frame alignment error (R33). -/
def alignmentError (p : PortId) (s : State) : State :=
  enterHunting p (countPort p (fun c => { c with frameAlignment := sat 65535 (c.frameAlignment + 1) }) s)

/-- A damaged packet that does not end the alignment (R27). -/
def damagedPacket (p : PortId) (s : State) : State :=
  match (portRec s p).opened with
  | some f => addPacket p f substitutePacket false s
  | none => if (portRec s p).assembling then alignmentError p s else s

/-- An aligned packet that is neither damaged nor a timing candidate (R31, R33, R36). It is checked against the view as it stands
before an entry to HUNTING that it causes (log 46). -/
def ordinaryPacket (p : PortId) (k : Packet) (s : State) : State :=
  let r := checkContinuity (portRec s p) k
  let s := setPort p r.1 s
  match (portRec s p).opened with
  | some f => addPacket p f k r.2 s
  | none => if (portRec s p).assembling then alignmentError p s else s

/-- A valid candidate is in format (R29). -/
def inFormat (s : State) (t : TimingRec) : Bool := t.period == period s && t.packets == perFrame s

/-- The assembly record opened by a valid, in-format candidate that arrived at `stamp` (R30). -/
def openFrame (p : PortId) (stamp : Int) (k : Packet) (s : State) : State :=
  let s := alignContinuity p s
  setPort p
    { portRec s p with
      assembling := true
      opened := some
        { timing := readTiming k, arrival := stamp, count := 1, transportErrors := 0, continuityErrors := 0,
          hash := crc32 crcStart k, buffer := [k] } } s

/-- A timing candidate (R28, R29, R32): an open frame first ends as SHORT. -/
def timingCandidate (p : PortId) (stamp : Int) (k : Packet) (s : State) : State :=
  let s := if (portRec s p).opened.isSome then giveVerdict p .short (setPort p { portRec s p with opened := none } s) else s
  if !validTiming k then giveVerdict p .badTiming (enterHunting p s)
  else if !inFormat s (readTiming k) then giveVerdict p .format (enterHunting p s)
  else openFrame p stamp k s

/-- Alignment is lost (R27). -/
def loseSync (p : PortId) (s : State) : State :=
  let s := countPort p (fun c => { c with alignmentLosses := sat 65535 (c.alignmentLosses + 1) }) s
  occur (failedItem p) (setPortMode p .searching (loseAlignment p s))

/-- An aligned packet: the sync check, then its kind (R27, R28, R31). -/
def alignedPacket (p : PortId) (stamp : Int) (k : Packet) (s : State) : State :=
  let x := portRec s p
  if hasSync k then
    let s := setPort p { x with wrongSync := 0 } s
    if streamOf k = s.live.feed.timingStream then timingCandidate p stamp k s else ordinaryPacket p k s
  else
    let s := setPort p
      { x with
        wrongSync := x.wrongSync + 1
        counts := { x.counts with syncErrors := sat 65535 (x.counts.syncErrors + 1) } } s
    if 3 ≤ x.wrongSync + 1 then loseSync p s else damagedPacket p s

/-! ## Events -/

/-- Alignment is found: the byte just examined completed the run of its phase, and is the first byte of the first aligned packet
(R26, R28). The FEED notice carries the average that R26 sets (log 45). -/
def findAlignment (p : PortId) (phase : Nat) (s : State) : State :=
  let s := setPortMode p .impaired (setPort p { portRec s p with average := 32768 } s)
  let s := setPort p
    { portRec s p with
      packetPhase := some phase, firstByte := some s.clock.time, degrade := 0, recover := 0, wrongSync := 0, assembling := false,
      opened := none,
      continuity := [], deadline := some (s.clock.time + 2 * (period s : Int)) } s
  occur (impairedItem p) (alignContinuity p s)

/-- A byte examined by the alignment hunt (R26). -/
def huntByte (p : PortId) (byte : Byte) (s : State) : State :=
  let x := portRec s p
  let run := if byte = 0x47 then x.runs.getD x.phase 0 + 1 else 0
  let s := setPort p { x with runs := x.runs.set x.phase run, phase := (x.phase + 1) % 188 } s
  if 5 ≤ run then findAlignment p x.phase s else s

/-- The site time at which the first byte of the packet now arriving arrived: the one recorded, or else the present one, since no
byte of the packet has come before (R28; log 7). -/
def arrivalStamp (s : State) (p : PortId) : Int := (portRec s p).firstByte.getD s.clock.time

/-- A byte at a port (R24, R25, R26): ignored in DISABLED; otherwise it restarts the line-activity interval, takes a DARK port to
SEARCHING, and is examined by the hunt. At an aligned port the first byte of a packet is stamped with site time (R28), and the packet
is taken when FEED_PACKET brings it whole (log 7). -/
def feedByteEffect (p : PortId) (byte : Byte) (s : State) : State :=
  let x := portRec s p
  if x.mode = .disabled then s
  else
    let s := setPort p { x with lastByte := s.clock.cycles } s
    let s := if x.mode = .dark then setPortMode p .searching s else s
    if isAligned x.mode then setPort p { portRec s p with firstByte := some (arrivalStamp s p) } s else huntByte p byte s

def execFeedByte (p : PortId) (byte : Byte) (s : State) : Outcome := event (feedByteEffect p byte) s

/-- A whole packet at an aligned port, stamped as its first byte arrived; on any other port there is no aligned packet and nothing
happens (R27, R28; log 7). -/
def feedPacketEffect (p : PortId) (k : Packet) (s : State) : State :=
  if isAligned (portRec s p).mode then
    alignedPacket p (arrivalStamp s p) k (setPort p { portRec s p with lastByte := s.clock.cycles, firstByte := none } s)
  else s

def execFeedPacket (p : PortId) (sync : Byte) (rest : List Byte) (s : State) : Outcome := event (feedPacketEffect p (sync :: rest)) s

/-- The line-activity interval, in oscillator cycles (R25). -/
def lineActivity : Nat := 100000

/-- A line-activity expiry (R25). -/
def lineActivityEffect (p : PortId) (s : State) : State :=
  let x := portRec s p
  if x.mode ≠ .disabled ∧ x.mode ≠ .dark ∧ x.lastByte + lineActivity ≤ s.clock.cycles then
    let s := setPortMode p .dark (loseAlignment p s)
    if isAligned x.mode then
      occur (failedItem p) (countPort p (fun c => { c with darkness := sat 65535 (c.darkness + 1) }) s)
    else s
  else s

def execLineActivityExpiry (p : PortId) (s : State) : Outcome := event (lineActivityEffect p) s

/-- Site time reaches the silence deadline (R39). -/
def silenceEffect (p : PortId) (s : State) : State :=
  let x := portRec s p
  match x.deadline with
  | some d =>
    if d ≤ s.clock.time then
      match x.mode with
      | .good => giveVerdict p .silence s
      | .impaired => giveVerdict p .silence s
      | .failed => setPort p { x with deadline := none } s
      | _ => s
    else s
  | none => s

def execSilenceDeadline (p : PortId) (s : State) : Outcome := event (silenceEffect p) s

/-! ## Settings and steps -/

/-- A write of a port's enabled setting (R24). -/
def portEnabledWrite (p : PortId) (on : Bool) (s : State) : State :=
  let s := s.setLive { s.live with feed := { s.live.feed with enabled := s.live.feed.enabled.set p on } }
  if on then setPortMode p .dark (setPort p { portRec s p with lastByte := s.clock.cycles } s)
  else setPortMode p .disabled (loseAlignment p s)

/-- A write of F, N or the timing stream at one port (R34). -/
def formatWriteAt (p : PortId) (s : State) : State :=
  if isAligned (portRec s p).mode then
    let s := enterHunting p s
    let x := portRec s p
    setPort p { x with deadline := x.deadline.map (fun _ => s.clock.time + 2 * (period s : Int)) } s
  else s

def formatWrite (s : State) : State := formatWriteAt .b (formatWriteAt .a s)

/-- A step event moves every present silence deadline by Δ (R39). -/
def moveFeedTimes (delta : Int) (s : State) : State :=
  s.setFeed { s.feed with ports := s.feed.ports.map (fun x => { x with deadline := x.deadline.map (· + delta) }) }

/-! ## Requests (R41, R43, R65, R66) -/

/-- FEED HOLD (R41, R184): 0 NONE, 1 A, 2 B. -/
def reqFeedHold (selection : Byte) (s : State) : Answer :=
  if selection = 0 then ok (s.setFeed { s.feed with hold := none })
  else if selection = 1 then ok (s.setFeed { s.feed with hold := some .a })
  else if selection = 2 then ok (s.setFeed { s.feed with hold := some .b })
  else turnDown s .badParameter

def execFeedHold (tag selection : Byte) (s : State) : Outcome := request 0x19 tag [selection] (reqFeedHold selection) s

def portCountBytes (c : PortCounts) : List Byte :=
  be 2 c.clean ++ be 2 c.flawed ++ be 2 c.short ++ be 2 c.badTiming ++ be 2 c.format ++ be 2 c.silence ++ be 2 c.offered ++
  be 2 c.heldBack ++ be 2 c.frameAlignment ++ be 2 c.syncErrors ++ be 2 c.alignmentLosses ++ be 2 c.darkness ++
  be 2 c.transportErrors ++ be 2 c.continuityErrors

/-- The site time until an instant that has not yet come, in 8 bytes, or all ones when it is absent (R43, R153). -/
def untilBytes (now : Int) : Option Int → List Byte
  | some t => be 8 (max 0 (t - now))
  | none => allOnes 8

/-- The body of FEED STATUS (R43). -/
def feedStatusBody (p : PortId) (s : State) : List Byte :=
  let x := portRec s p
  be 1 (portCode x.mode) ++ be 1 (portNum s.feed.hold) ++ be 2 x.average ++ be 1 x.degrade ++ be 1 x.recover ++
  flagByte x.assembling ++
  (match x.opened with
   | some f => be 2 f.timing.seq.toNat ++ be 2 f.count
   | none => allOnes 4) ++
  untilBytes s.clock.time x.deadline ++ portCountBytes x.counts

/-- The feed port a parameter names: 1 A, 2 B (R184). -/
def portOfByte (b : Byte) : Option PortId := if b = 1 then some .a else if b = 2 then some .b else none

/-- FEED STATUS (R43). -/
def reqFeedStatus (port clear : Byte) (s : State) : Answer :=
  match portOfByte port with
  | some p => reportAndClear clear (feedStatusBody p s) (countPort p (fun _ => {})) s
  | none => turnDown s .badParameter

def execFeedStatus (tag port clear : Byte) (s : State) : Outcome := request 0x18 tag [port, clear] (reqFeedStatus port clear) s

def admissionBytes (c : AdmissionCounts) : List Byte :=
  be 2 c.admitted ++ be 2 c.duplicateSame ++ be 2 c.duplicateDivergent ++ be 2 c.upgraded ++ be 2 c.stale ++ be 2 c.ahead ++
  be 2 c.late ++ be 2 c.mismatch

/-- FEED COUNTS (R65). -/
def reqFeedCounts (clear : Byte) (s : State) : Answer :=
  reportAndClear clear (admissionBytes s.store.counts.a ++ admissionBytes s.store.counts.b)
    (fun s => s.setStore { s.store with counts := ⟨{}, {}⟩ }) s

def execFeedCounts (tag clear : Byte) (s : State) : Outcome := request 0x1A tag [clear] (reqFeedCounts clear) s

/-- The fields of a held copy in a slot entry of STORE STATUS (R66). -/
def heldBytes (h : Held) : List Byte :=
  be 1 h.source.num ++ be 1 (match h.quality with | .clean => 1 | .flawed => 2) ++ be 1 h.cues.length ++
  be 1 h.directives.length ++ be 4 (h.emission - h.arrival)

/-- A slot entry of STORE STATUS, 11 bytes (R66). -/
def slotBytes : Slot → List Byte
  | .free => List.replicate 11 0
  | .held h => be 1 1 ++ be 2 h.seq.toNat ++ heldBytes h
  | .taken seq (some h) => be 1 2 ++ be 2 seq.toNat ++ heldBytes h
  | .taken seq none => be 1 3 ++ be 2 seq.toNat ++ List.replicate 8 0

/-- The body of STORE STATUS (R66). -/
def storeStatusBody (s : State) : List Byte :=
  flagByte s.store.base.isSome ++ be 2 (s.store.base.getD 0).toNat ++
  be 4 (match s.em.anchor with | some a => a.counter | none => 0) ++ be 1 s.store.jumpRun ++ be 1 s.store.mismatchRun ++
  s.store.slots.flatMap slotBytes

/-- STORE STATUS (R66). -/
def reqStoreStatus (s : State) : Answer := ok s (storeStatusBody s)

def execStoreStatus (tag : Byte) (s : State) : Outcome := request 0x1B tag [] reqStoreStatus s

end Sys2Proof.Machine
end

