-- ==== Sys2Proof/Machine/Clock.lean ====
section
/-! DEFINITION. The Site Clock (01): the running count, input records and states, the cross-check, the governing input, clock states,
steering, steps, and its commands. -/

namespace Sys2Proof.Machine
open Sys2Proof

/-! ## Input records -/

def inputRec (s : State) (n : InputId) : InputRec := s.clock.inputs.get n

def setInput (n : InputId) (r : InputRec) (s : State) : State := s.setClock { s.clock with inputs := s.clock.inputs.set n r }

def inputEnabled (s : State) (n : InputId) : Bool := s.live.clock.enabled.get n

def inputPriority (s : State) (n : InputId) : Nat := s.live.clock.priority.get n

/-- The filtered offset in whole STU, ε (R3). -/
def epsOf (s : State) (n : InputId) : Int := (inputRec s n).eps / 256

/-- A change of an input's state; a forced input that leaves QUALIFIED loses its force (R13, R20). -/
def setInputMode (n : InputId) (m : InputMode) (s : State) : State :=
  if (inputRec s n).mode = m then s
  else
    let s := noteInput n (setInput n { inputRec s n with mode := m } s)
    if m ≠ .qualified ∧ s.clock.forced = some n then s.setClock { s.clock with forced := none } else s

/-- Entry to SUSPECT (R7). -/
def enterSuspect (n : InputId) (s : State) : State :=
  setInputMode n .suspect (setInput n { inputRec s n with suspectStart := s.clock.time, good := 0 } s)

/-- Entry to DISQUALIFIED; with a hold-off of 0 it is done at once (R8, R9). -/
def enterDisqualified (n : InputId) (s : State) : State :=
  occur (3 + n.num) (setInputMode n .disqualified
    (setInput n { inputRec s n with disqTime := s.clock.time, holdDone := s.live.clock.holdOff == 0 } s))

/-- Entry to QUALIFIED (R6, R8). -/
def enterQualified (n : InputId) (s : State) : State :=
  setInputMode n .qualified (setInput n { inputRec s n with good := 0, disagree := 0 } s)

/-! ## The governing input (R12) -/

def isQualified (s : State) (n : InputId) : Bool := (inputRec s n).mode == .qualified

/-- Of two inputs, the one with the better priority. -/
def betterInput (s : State) (best : Option InputId) (n : InputId) : Option InputId :=
  match best with
  | none => some n
  | some m => if inputPriority s n < inputPriority s m then some n else some m

/-- The QUALIFIED input with the best priority. -/
def bestQualified (s : State) : Option InputId := (InputId.all.filter (isQualified s)).foldl (betterInput s) none

/-- The choice of the governing input (R12). -/
def chooseGoverning (s : State) : Option InputId :=
  match s.clock.forced.filter (isQualified s) with
  | some f => some f
  | none =>
    match s.clock.governing.filter (fun g => s.live.clock.nonRevertive && isQualified s g) with
    | some g => some g
    | none => bestQualified s

/-! ## Clock states (section 1.5) -/

/-- The part of a slew not yet applied is dropped (R1, R2, R15). -/
def dropSlew (s : State) : State := s.setClock { s.clock with slew := 0, slewPos := 0, slewLeft := 0 }

/-- The last second boundary at or before the instant just before `t`: the boundary at `t` itself is still to come (log 25). -/
def boundaryBefore (t : Int) : Int := (t - 1) / (Config.second : Int)

/-- An entry to a clock state, with what R15 to R18 attach to it. -/
def enterClock (m : ClockMode) (s : State) : State :=
  let s := noteClock (s.setClock { s.clock with mode := m })
  match m with
  | .free => dropSlew (s.setClock { s.clock with u := maxUncertainty })
  | .acquiring => s.setClock { s.clock with u := maxUncertainty, lockCount := 0 }
  | .locked => s.setClock { s.clock with u := 0 }
  | .holdover =>
    occur 1 (dropSlew (s.setClock { s.clock with u := 0, boundary := max s.clock.boundary (boundaryBefore s.clock.time) }))
  | .expired => occur 2 s

/-- The governing input's |ε| lies within the relock window (R16, R17). -/
def withinRelock (s : State) (n : InputId) : Bool := (epsOf s n).natAbs ≤ s.live.clock.relockWindow

/-- The clock acts on a change of governing input (R15 to R17). -/
def actOnGoverning (s : State) : State :=
  match s.clock.mode, s.clock.governing with
  | .free, some _ => enterClock .acquiring s
  | .free, none => s
  | .acquiring, some _ => s.setClock { s.clock with lockCount := 0 }
  | .acquiring, none => enterClock .free s
  | .locked, some n => if withinRelock s n then s else enterClock .acquiring s
  | .locked, none => enterClock .holdover s
  | .holdover, some n => if withinRelock s n then enterClock .locked s else enterClock .acquiring s
  | .expired, some n => if withinRelock s n then enterClock .locked s else enterClock .acquiring s
  | .holdover, none => s
  | .expired, none => s

/-- The governing input is re-evaluated, and the clock acts on its change (R12, R20). -/
def regovern (s : State) : State :=
  if chooseGoverning s = s.clock.governing then s
  else actOnGoverning (noteClock (s.setClock { s.clock with governing := chooseGoverning s }))

/-- The same, with what Emission makes of the clock's fitness (R76, R84). -/
def regovernFit (s : State) : State := judgeFit (regovern s)

/-- HOLDOVER becomes EXPIRED when u exceeds g × 1000 (R17). -/
def judgeGuard (s : State) : State := if s.clock.mode = .holdover ∧ beyondGuard s then enterClock .expired s else s

/-! ## Steps (R2, R20) -/

/-- Site time moved at once by Δ: the running count stays in 0 to 2^64 − 1 (log 22), and the stored times of the input records
move with it (R2). -/
def moveClock (delta : Int) (s : State) : State :=
  let t := (s.clock.time + delta) % (18446744073709551616 : Int)
  s.setClock { s.clock with
    time := t
    boundary := t / (Config.second : Int)
    inputs := s.clock.inputs.map (fun r => { r with
      lastPulse := r.lastPulse.map (· + delta)
      suspectStart := r.suspectStart + delta
      disqTime := r.disqTime + delta }) }

/-- A step event at the Emission Scheduler: what it holds moves, and it anchors afresh unless it is OFF (R88). -/
def stepEmission (delta : Int) (s : State) : State :=
  reAnchorUnlessOff 7 (s.setEm { s.em with
    anchor := s.em.anchor.map (fun a => { a with instant := a.instant + delta })
    origin := s.em.origin + delta })

/-- The step event delivered to its receivers, with CLOCK STEPPED (R2, R20). -/
def stepEvent (delta : Int) (s : State) : State :=
  let s := occur 3 (s.setEv { s.ev with stepped := true })
  moveDriveTimes delta (stepEmission delta (moveStoreTimes delta (moveFeedTimes delta (moveClock delta s))))

/-! ## A pulse (R3 to R8, R11, R15, R16, R19) -/

/-- The fraction of site time folded: the error of a pulse that arrives now (R3). -/
def pulseError (t : Int) : Int :=
  let f := t % (Config.second : Int)
  if f < 5000000 then f else f - (Config.second : Int)

/-- The nearest second of a site time (R3). -/
def nearestSecond (t : Int) : Int := (t + 5000000) / (Config.second : Int)

/-- A number that the pulse carries differs from the nearest second, while LOCKED with the seconds set (R4, R7). -/
def wrongNumber (s : State) (number : Option Nat) : Bool :=
  match number with
  | some k => s.clock.mode == .locked && s.clock.secondsSet && (k : Int) != nearestSecond s.clock.time
  | none => false

/-- A pulse with error e is good (R4). -/
def pulseGood (s : State) (n : InputId) (e : Int) : Bool :=
  let r := inputRec s n
  match r.lastPulse with
  | some p =>
    decide (9999000 ≤ s.clock.time - p) && decide (s.clock.time - p ≤ 10001000) &&
    decide ((e - r.rawErr).natAbs ≤ s.live.clock.jitter) && !wrongNumber s r.received
  | none => false

/-- A pulse takes its input to QUALIFYING (R6, R9). -/
def pulseEnters (r : InputRec) : Bool := r.mode == .absent || (r.mode == .disqualified && r.holdDone)

/-- A pulse meets a pending reseed (R5). -/
def meetsReseed (r : InputRec) : Bool := r.reseed && r.mode != .absent && r.mode != .disqualified

/-- e differs from ε by more than the suspect band (R5, R7). -/
def outOfBand (s : State) (n : InputId) (e : Int) : Bool := s.live.clock.suspectBand < (e - epsOf s n).natAbs

/-- Step 1: the counts of a pulse (R4, R6, R8); `good` is the verdict of a judged pulse. -/
def countPulse (n : InputId) (e : Int) (good : Bool) (s : State) : State :=
  let r := inputRec s n
  let count :=
    match r.mode with
    | .qualifying => if meetsReseed r then r.good else if good then sat 15 (r.good + 1) else 0
    | .suspect => if good && !outOfBand s n e then sat 15 (r.good + 1) else 0
    | _ => r.good
  setInput n { r with good := count, missing := 0, expiries := 0 } s

/-- The filter shift in force (R5). -/
def filterShift (s : State) : Nat :=
  match s.clock.mode with
  | .free => s.live.clock.betaFast
  | .acquiring => s.live.clock.betaFast
  | _ => s.live.clock.beta

/-- Step 2: the filter (R5). -/
def filterPulse (n : InputId) (e : Int) (s : State) : State :=
  let r := inputRec s n
  if pulseEnters r || meetsReseed r then setInput n { r with eps := e * 256, reseed := false } s
  else if r.mode = .disqualified then s
  else if r.mode ≠ .qualifying ∧ outOfBand s n e then s
  else setInput n { r with eps := r.eps + (e * 256 - r.eps) / (2 : Int) ^ filterShift s } s

/-- Step 3: the transition that the pulse causes (R6 to R9). `out` is the band judgement made with ε before the pulse, and `wrong`
the number's. -/
def pulseTransition (n : InputId) (out wrong : Bool) (s : State) : State :=
  let r := inputRec s n
  match r.mode with
  | .absent => setInputMode n .qualifying (setInput n { r with good := 0 } s)
  | .disqualified => if r.holdDone then setInputMode n .qualifying (setInput n { r with good := 0 } s) else s
  | .qualifying => if s.live.clock.entryCount ≤ r.good then enterQualified n s else s
  | .qualified => if out || wrong then enterSuspect n s else s
  | .suspect => if s.live.clock.returnCount ≤ r.good then enterQualified n s else s

/-- The median of three. -/
def median (a b c : Int) : Int := max (min a b) (min (max a b) c)

/-- Of two inputs, the one that a verdict of three would send to SUSPECT first (R11); `d` is the distance from the median. -/
def verdictWorse (s : State) (d : InputId → Nat) (a b : InputId) : InputId :=
  if d b < d a then a
  else if d a < d b then b
  else if s.clock.governing = some a then b
  else if s.clock.governing = some b then a
  else if inputPriority s b < inputPriority s a then a
  else b

/-- The input that a verdict names (R11); `n` is the input whose count brought it. -/
def verdictInput (s : State) (n : InputId) : InputId :=
  if InputId.all.all (isQualified s) then
    let m := median (epsOf s .in1) (epsOf s .in2) (epsOf s .in3)
    let d := fun i => (epsOf s i - m).natAbs
    verdictWorse s d (verdictWorse s d .in1 .in2) .in3
  else n

/-- Step 4: the cross-check of a good pulse (R11; log 36). -/
def crossCheck (n : InputId) (s : State) : State :=
  match s.clock.governing with
  | some g =>
    if isQualified s n && g != n && InputId.all.all (fun i => (inputRec s i).mode != .suspect) then
      let r := inputRec s n
      let count := if s.live.clock.crossLimit < (epsOf s n - epsOf s g).natAbs then sat 15 (r.disagree + 1) else 0
      let s := setInput n { r with disagree := count } s
      if s.live.clock.crossCount ≤ count then
        let x := verdictInput s n
        let s := occur 7 (s.setClock { s.clock with inputs := s.clock.inputs.map (fun r => { r with disagree := 0 }) })
        enterSuspect x s
      else s
    else s
  | none => s

/-- The pulse steps site time: ACQUIRING, with |e| beyond the step threshold (R19). -/
def pulseSteps (s : State) (e : Int) : Bool := s.clock.mode == .acquiring && s.live.clock.stepThreshold < e.natAbs

/-- The lock count at a governing pulse that does not step (R15). -/
def countLock (n : InputId) (s : State) : State :=
  let count := if (epsOf s n).natAbs ≤ s.live.clock.lockWindow then sat 60 (s.clock.lockCount + 1) else 0
  let s := s.setClock { s.clock with lockCount := count }
  if s.live.clock.lockCount ≤ count then enterClock .locked s else s

/-- The setting of the second count from a governing pulse (R2, R16). -/
def setSecondCount (number : Option Nat) (s : State) : State :=
  match number with
  | some k =>
    if s.clock.mode = .locked ∧ s.clock.secondsSet = false then
      let delta := ((k : Int) - nearestSecond s.clock.time) * Config.second
      let s := s.setClock { s.clock with secondsSet := true }
      if delta = 0 then s else stepEvent delta s
    else s
  | none => s

/-- The step (R2): site time becomes N × 10,000,000, and the filters, counts and slew are set as R2 lists. Another input's last raw
error, moved by −e, is kept as it comes out, also outside −5,000,000 to 4,999,999 (log 50). -/
def stepClock (n : InputId) (e : Int) (number : Option Nat) (s : State) : State :=
  let second : Int := match number with
    | some k => k
    | none => nearestSecond s.clock.time
  let inputs := (s.clock.inputs.map (fun r => { r with rawErr := r.rawErr - e, eps := r.eps - e * 256, disagree := 0 })).set n
    { inputRec s n with rawErr := 0, eps := 0, disagree := 0 }
  let s' := dropSlew (s.setClock { s.clock with inputs := inputs, lockCount := 0, secondsSet := true })
  stepEvent (second * Config.second - s.clock.time) s'

/-- The slew that a governing pulse takes (R19). -/
def slewOf (s : State) (n : InputId) : Int := clamp (-50) 50 (-((epsOf s n).tdiv ((2 : Int) ^ s.live.clock.slewShift)))

/-- The slew and the learning (R19). -/
def slewClock (n : InputId) (s : State) : State :=
  let p := slewOf s n
  let c := clamp (-2000000) 2000000 (s.clock.corr + (p * 100000).tdiv ((2 : Int) ^ s.live.clock.learnShift))
  s.setClock { s.clock with slew := p, slewPos := 0, slewLeft := p.natAbs, corr := c }

/-- Steps 5 and 6: the governing input, the clock state, the second count and steering (R12 to R19). A pulse that makes its own input
govern in LOCKED steers at once (log 42), and the clock's fitness is judged once, after every change of state of the pulse (log 47). -/
def governPulse (n : InputId) (e : Int) (number : Option Nat) (s : State) : State :=
  let s := regovern s
  if s.clock.governing = some n then
    if pulseSteps s e then stepClock n e number (judgeFit s)
    else
      let s := judgeFit (if s.clock.mode = .acquiring then countLock n s else s)
      let s := setSecondCount number s
      if s.clock.mode = .acquiring ∨ s.clock.mode = .locked then slewClock n s else s
  else judgeFit s

/-- Step 7: what the pulse leaves in its record; `stepped` says that it stepped site time (R3; log 14). -/
def recordPulse (n : InputId) (e : Int) (stepped : Bool) (number : Option Nat) (s : State) : State :=
  let r := inputRec s n
  setInput n { r with
    rawErr := if stepped then 0 else e
    lastPulse := some s.clock.time
    lastSecond := match number with | some k => some k | none => r.lastSecond
    received := none } s

/-- The pulse steps site time, judged once its transitions are made. -/
def pulseWillStep (n : InputId) (e : Int) (s : State) : Bool :=
  let s := regovern s
  s.clock.governing == some n && pulseSteps s e

/-- A pulse on an enabled input, in the seven steps of R3. -/
def pulseEffect (n : InputId) (s : State) : State :=
  if inputEnabled s n then
    let r := inputRec s n
    let e := pulseError s.clock.time
    let good := !pulseEnters r && !meetsReseed r && pulseGood s n e
    let out := outOfBand s n e && !meetsReseed r
    let wrong := wrongNumber s r.received
    let s := pulseTransition n out wrong (filterPulse n e (countPulse n e good s))
    let s := if good then crossCheck n s else s
    recordPulse n e (pulseWillStep n e s) r.received (governPulse n e r.received s)
  else s

def execTimePulse (n : InputId) (s : State) : Outcome := event (pulseEffect n) s

/-! ## The clock's other events -/

/-- The start of an oscillator second: its correction (R1). It is due when the cycles before it have passed (log 4). -/
def oscillatorSecondEffect (s : State) : State :=
  if s.clock.secondsTaken * Config.second ≤ s.clock.cycles then
    let gained := s.clock.residue + s.clock.corr
    let q := gained.tdiv 100000
    s.setClock { s.clock with residue := gained - q * 100000, quotient := q, secondsTaken := s.clock.secondsTaken + 1 }
  else s

def execOscillatorSecond (s : State) : Outcome := event oscillatorSecondEffect s

/-- A second number on the serial line of an input (R3; log 24). -/
def secondNumberEffect (n : InputId) (number : BitVec 40) (s : State) : State :=
  setInput n { inputRec s n with received := some number.toNat } s

def execSecondNumberReceived (n : InputId) (number : BitVec 40) (s : State) : Outcome := event (secondNumberEffect n number) s

/-- The site time of an input's next missing-pulse expiry: 15,000,000 STU after the last pulse, then every 10,000,000 (R4). -/
def missingDue (s : State) (n : InputId) : Bool :=
  let r := inputRec s n
  inputEnabled s n && r.mode != .absent &&
  match r.lastPulse with
  | some p => decide (p + 15000000 + (r.expiries * Config.second : Nat) ≤ s.clock.time)
  | none => false

/-- A missing pulse acts on the input's state (R6 to R8). -/
def missingTransition (n : InputId) (s : State) : State :=
  let r := inputRec s n
  match r.mode with
  | .qualifying =>
    if r.missing = 3 then setInputMode n .absent (setInput n { r with good := 0, lastPulse := none } s)
    else setInput n { r with good := 0 } s
  | .qualified => enterSuspect n s
  | .suspect => if r.missing = 3 then enterDisqualified n s else s
  | .absent => s
  | .disqualified => s

/-- A missing-pulse expiry (R4). -/
def missingEffect (n : InputId) (s : State) : State :=
  if missingDue s n then
    let r := inputRec s n
    regovernFit (missingTransition n (setInput n { r with missing := sat 3 (r.missing + 1), expiries := r.expiries + 1 } s))
  else s

def execMissingPulse (n : InputId) (s : State) : Outcome := event (missingEffect n) s

/-- The suspect timeout (R8). -/
def suspectTimeoutEffect (n : InputId) (s : State) : State :=
  let r := inputRec s n
  if r.mode = .suspect ∧ r.suspectStart + (s.live.clock.suspectTimeout * Config.second : Nat) ≤ s.clock.time then
    regovernFit (enterDisqualified n s)
  else s

def execSuspectTimeout (n : InputId) (s : State) : Outcome := event (suspectTimeoutEffect n) s

/-- The hold-off expiry (R9). -/
def holdOffEffect (n : InputId) (s : State) : State :=
  let r := inputRec s n
  if r.mode = .disqualified ∧ r.disqTime + (s.live.clock.holdOff * Config.second : Nat) ≤ s.clock.time then
    setInput n { r with holdDone := true } s
  else s

def execHoldOffExpiry (n : InputId) (s : State) : Outcome := event (holdOffEffect n) s

/-- A second boundary of site time (R18; log 25): while HOLDOVER or EXPIRED, u gains h. -/
def secondBoundaryEffect (s : State) : State :=
  if s.clock.boundary < s.clock.time / (Config.second : Int) then
    if s.clock.mode = .holdover ∨ s.clock.mode = .expired then
      judgeFit (judgeGuard (s.setClock { s.clock with
        boundary := s.clock.boundary + 1
        u := sat maxUncertainty (s.clock.u + s.live.clock.holdoverRate) }))
    else s.setClock { s.clock with boundary := s.clock.time / (Config.second : Int) }
  else s

def execSecondBoundary (s : State) : Outcome := event secondBoundaryEffect s

/-! ## Writes of the clock's settings (R10, R12, R17) -/

def setClockParams (p : ClockParams) (s : State) : State := s.setLive { s.live with clock := p }

/-- A write of an input's enabled flag to another value (R10). -/
def inputEnabledWrite (n : InputId) (on : Bool) (s : State) : State :=
  let s := setClockParams { s.live.clock with enabled := s.live.clock.enabled.set n on } s
  let s := if on then s else setInput n { inputRec s n with lastPulse := none } s
  regovernFit (setInputMode n .absent s)

/-- The priorities after input n takes p: the input that held p takes the one that n held (R10). -/
def swapPriority (n : InputId) (p : Nat) (x : PerInput Nat) : PerInput Nat :=
  (x.map (fun q => if q = p then x.get n else q)).set n p

/-- A write of an input's priority (R10). -/
def priorityWrite (n : InputId) (p : Nat) (s : State) : State :=
  regovernFit (setClockParams { s.live.clock with priority := swapPriority n p s.live.clock.priority } s)

/-- A write of the revertive setting (R12). -/
def revertiveWrite (nonRevertive : Bool) (s : State) : State :=
  regovernFit (setClockParams { s.live.clock with nonRevertive := nonRevertive } s)

/-- A write of the guard limit (R17). -/
def guardWrite (g : Nat) (s : State) : State := judgeFit (judgeGuard (setClockParams { s.live.clock with guardLimit := g } s))

/-! ## The running count (R1) -/

/-- How many of the |x| adjustments of a span have fallen by its cycle c: the j-th falls at cycle floor(j × 10,000,000 / |x|). -/
def scheduled (x c : Nat) : Nat := min x (((c + 1) * x - 1) / Config.second)

/-- An adjustment of the span falls at its cycle c (counted from 1). -/
def adjustsAt (x : Int) (c : Nat) : Bool := scheduled x.natAbs (c - 1) < scheduled x.natAbs c

/-- The STU that the correction adds at the next cycle, −1, 0 or 1. -/
def correctionStep (s : State) : Int :=
  if adjustsAt s.clock.quotient (s.clock.cycles % Config.second + 1) then s.clock.quotient.sign else 0

/-- The STU that the slew adds at the next cycle: a withheld STU waits while the correction withholds one. -/
def slewStep (s : State) : Int :=
  let applied := s.clock.slew.natAbs - s.clock.slewLeft
  if s.clock.slewLeft = 0 then 0
  else if applied < scheduled s.clock.slew.natAbs (s.clock.slewPos + 1) then
    if s.clock.slew < 0 && correctionStep s < 0 then 0 else s.clock.slew.sign
  else 0

/-- One cycle of the local oscillator (R1; log 3). -/
def oscillatorCycle (s : State) : State :=
  let c := s.clock
  s.setClock { c with
    time := (c.time + 1 + correctionStep s + slewStep s) % (18446744073709551616 : Int)
    cycles := c.cycles + 1
    slewPos := if c.slewLeft = 0 then c.slewPos else c.slewPos + 1
    slewLeft := c.slewLeft - (slewStep s).natAbs }

/-! ## Requests (R13, R14, R21, R22) -/

/-- The slew in progress that is not yet applied (R21; log 34). -/
def slewRemaining (s : State) : Int := s.clock.slew.sign * s.clock.slewLeft

/-- The body of CLOCK STATUS (R21). Of a second beyond 2^40 − 1 the low 40 bits are sent (log 51). -/
def clockStatusBody (s : State) : List Byte :=
  be 5 (s.clock.time / (Config.second : Int)) ++ be 4 (s.clock.time % (Config.second : Int)) ++ be 1 (clockCode s.clock.mode) ++
  be 1 (inputNum s.clock.governing) ++ be 1 (inputNum s.clock.forced) ++ be 4 s.clock.corr ++ be 1 (slewRemaining s) ++
  be 4 s.clock.u ++ be 1 s.clock.lockCount ++ flagByte s.clock.secondsSet

/-- CLOCK STATUS (R21). -/
def reqClockStatus (s : State) : Answer := ok s (clockStatusBody s)

def execClockStatus (tag : Byte) (s : State) : Outcome := request 0x10 tag [] reqClockStatus s

/-- The record of one input in REFERENCE STATUS (R22). Of an ε256, or of a last raw error, beyond 32 bits the
low 32 are sent (logs 43 and 50). -/
def inputBytes (s : State) (n : InputId) : List Byte :=
  let r := inputRec s n
  flagByte (inputEnabled s n) ++ be 1 (inputPriority s n) ++ be 1 (inputCode r.mode) ++ be 4 r.rawErr ++ be 4 r.eps ++
  be 1 r.good ++ be 1 r.missing ++ be 1 r.disagree ++
  (match r.lastPulse with
   | some p => be 8 (s.clock.time - p)
   | none => allOnes 8) ++
  (match r.lastSecond with
   | some k => be 5 k
   | none => allOnes 5)

/-- REFERENCE STATUS (R22). -/
def reqReferenceStatus (s : State) : Answer := ok s (InputId.all.flatMap (inputBytes s))

def execReferenceStatus (tag : Byte) (s : State) : Outcome := request 0x11 tag [] reqReferenceStatus s

/-- SELECT REFERENCE (R13). -/
def reqSelectReference (n : Byte) (s : State) : Answer :=
  if n = 0 then ok (regovernFit (s.setClock { s.clock with forced := none }))
  else
    match InputId.ofNum n.toNat with
    | some i =>
      if isQualified s i then ok (regovernFit (s.setClock { s.clock with forced := some i })) else turnDown s .refusedState
    | none => turnDown s .badParameter

def execSelectReference (tag n : Byte) (s : State) : Outcome := request 0x12 tag [n] (reqSelectReference n) s

/-- RESEED REFERENCE (R14; log 41). -/
def reqReseedReference (n : Byte) (s : State) : Answer :=
  match InputId.ofNum n.toNat with
  | some i =>
    if inputEnabled s i then
      ok (regovernFit (setInputMode i .qualifying
        (setInput i { inputRec s i with good := 0, missing := 0, disagree := 0, reseed := true } s)))
    else turnDown s .refusedState
  | none => turnDown s .badParameter

def execReseedReference (tag n : Byte) (s : State) : Outcome := request 0x13 tag [n] (reqReseedReference n) s

end Sys2Proof.Machine
end

