-- ==== Sys2Proof/Machine/Drive.lean ====
section
/-! DEFINITION. The Drive Controller's commands (07): the monitoring sample, ramp ticks, the retry wait and the steady period, and
its requests. -/

namespace Sys2Proof.Machine
open Sys2Proof

/-! ## Events -/

/-- A monitoring input saturates at 4095 (R143). -/
def sample12 (x : Nat) : Nat := sat 4095 x

/-- The samples as the inputs give them (R143). -/
def saturated (x : Samples) : Samples :=
  { forward := sample12 x.forward, reflected := sample12 x.reflected, temperature := sample12 x.temperature,
    supply := sample12 x.supply, current := x.current.map sample12 }

/-- The latest samples are kept, and the sample is counted (R143). -/
def keepSamples (x : Samples) (s : State) : State :=
  s.setDrive { s.drive with
    forward := x.forward, reflected := x.reflected, temperature := x.temperature, supplySample := x.supply,
    samplesTaken := s.drive.samplesTaken + 1 }

/-- The six parts of a monitoring sample in their order (R143). -/
def judgeSample (x : Samples) (s : State) : State :=
  let theta := tempOf x.temperature
  let s := judgeTemperature theta (judgeSupply x.supply s)
  let s := Four.all.foldl (judgeModule x.current) s
  judgeLowOutput x.forward (judgeFoldback theta x.reflected (judgeReflected x.reflected s))

/-- The cycles between monitoring samples, and between ramp ticks (R143, R141). -/
def samplePeriod : Nat := 100000
def tickPeriod : Nat := 10000

/-- A monitoring sample, due at every 100,000th cycle (R143; log 4). -/
def sampleEffect (x : Samples) (s : State) : State :=
  if (s.drive.samplesTaken + 1) * samplePeriod ≤ s.clock.cycles then judgeSample (saturated x) (keepSamples (saturated x) s) else s

def execMonitoringSample (samples : Samples) (s : State) : Outcome := event (sampleEffect samples) s

/-- The step of a ramp time code from 1 on (R141). -/
def rampStep (code : Nat) : Nat :=
  match code with
  | 1 => 4
  | 2 => 2
  | _ => 1

/-- The step with the smooth finish (R141). -/
def smoothStep (s : State) : Nat :=
  let step := rampStep s.live.drive.rampCode
  if s.live.drive.smooth then min step (max 1 ((s.drive.ceiling - s.drive.level + 31) / 32)) else step

/-- The level after a ramp tick; code 0, written while RAMPING, takes it to the ceiling (R141; log 23). -/
def rampedLevel (s : State) : Nat :=
  if s.live.drive.rampCode = 0 then s.drive.ceiling else min s.drive.ceiling (s.drive.level + smoothStep s)

/-- A ramp tick, due at every 10,000th cycle (R141; log 4). -/
def rampTickEffect (s : State) : State :=
  if (s.drive.rampTicks + 1) * tickPeriod ≤ s.clock.cycles then
    let s := s.setDrive { s.drive with rampTicks := s.drive.rampTicks + 1 }
    if s.drive.mode = .ramping then steadyAtCeiling 2 (setLevel (rampedLevel s) s) else s
  else s

def execRampTick (s : State) : Outcome := event rampTickEffect s

/-- Every condition of R139 but the last, which the end of the wait brings (R145). -/
def othersHold (s : State) : Bool := ((driveConditions s).take 4).all id

/-- The retry end time is reached (R145). -/
def retryEndEffect (s : State) : State :=
  match s.drive.mode, s.drive.retryEnd with
  | .retryWait, some t =>
    if t ≤ s.clock.time then
      let s := s.setDrive { s.drive with
        retryEnd := none
        counts := { s.drive.counts with retriesEnded := sat 65535 (s.drive.counts.retriesEnded + 1) } }
      if othersHold s then enterRamping 6 s else enterSilent .standby 6 s
    else s
  | _, _ => s

def execRetryEnd (s : State) : Outcome := event retryEndEffect s

/-- The steady period, 60 seconds (R140). -/
def steadyPeriod : Int := 600000000

/-- The steady period expires (R140). -/
def steadyEffect (s : State) : State :=
  match s.drive.mode, s.drive.steadySince with
  | .steady, some t =>
    if t + steadyPeriod ≤ s.clock.time then s.setDrive { s.drive with retries := 0, steadySince := none } else s
  | _, _ => s

def execSteadyPeriodExpiry (s : State) : Outcome := event steadyEffect s

/-! ## Requests (R136, R142, R151, R153, R154) -/

/-- RF ENABLE (R142). -/
def reqRfEnable (s : State) : Answer := ok (s.setDrive { s.drive with rfEnabled := true })

def execRfEnable (tag : Byte) (s : State) : Outcome := request 0x48 tag [] reqRfEnable s

/-- RF DISABLE (R142). -/
def reqRfDisable (s : State) : Answer := ok (s.setDrive { s.drive with rfEnabled := false })

def execRfDisable (tag : Byte) (s : State) : Outcome := request 0x49 tag [] reqRfDisable s

/-- SET POWER (R136). -/
def reqSetPower (p : BitVec 16) (s : State) : Answer :=
  let held := min p.toNat 1000
  let s := recomputeCeiling (s.setDrive { s.drive with power := held })
  ⟨s, if p.toNat ≤ 1000 then .ok else .adjusted, be 2 held ++ be 2 (levelOf held)⟩

def execSetPower (tag : Byte) (p : BitVec 16) (s : State) : Outcome := request 0x4A tag (word16Bytes p) (reqSetPower p) s

/-- The latches cleared, the wait ended, the retry counter 0, and STANDBY entered (R151). -/
def releaseTrips (s : State) : State :=
  enterSilent .standby 7 (s.setDrive { s.drive with reflLatch := false, shutLatch := false, retries := 0, retryEnd := none })

/-- The temperature is below the figure at which a shutdown is released (R151). -/
def coolEnough (s : State) : Bool := tempOf s.drive.temperature < (s.live.drive.tempShut : Int) - s.live.drive.tempHyst

/-- CLEAR TRIPS (R151). -/
def reqClearTrips (s : State) : Answer :=
  let s := s.setDrive { s.drive with counts := { s.drive.counts with clearRequests := sat 65535 (s.drive.counts.clearRequests + 1) } }
  let s := recomputeCeiling (Four.all.foldl reEnable s)
  match s.drive.mode with
  | .tripped =>
    if !coolEnough s && s.drive.shutLatch then ⟨s.setDrive { s.drive with reflLatch := false }, .refusedState, []⟩
    else ok (releaseTrips s)
  | .retryWait => ok (releaseTrips s)
  | _ => ok s

def execClearTrips (tag : Byte) (s : State) : Outcome := request 0x4B tag [] reqClearTrips s

/-- The site time in the present STEADY stay, or all ones (R153). -/
def steadyBytes (s : State) : List Byte :=
  match s.drive.steadySince with
  | some t => be 8 (s.clock.time - t)
  | none => allOnes 8

def driveCountBytes (c : DriveCounts) : List Byte :=
  be 2 c.reflectedTrips ++ be 2 c.retriesEnded ++ be 2 c.shutdowns ++ be 2 c.modulesOff ++ be 2 c.clearRequests

/-- The body of RF STATUS (R153). -/
def rfStatusBody (s : State) : List Byte :=
  let d := s.drive
  be 1 (driveCode d.mode) ++ be 1 (flagBits (permitted s :: driveConditions s)) ++ be 2 d.level ++ be 2 d.ceiling ++
  be 2 d.power ++ be 2 (levelOf d.power) ++ be 2 d.directive ++ be 2 (levelOf d.directive) ++
  be 2 d.compTheta ++ be 2 d.effTheta ++ be 2 d.compRho ++ be 2 d.effRho ++
  be 1 (healthyCount s) ++ be 1 (installedCount s) ++ be 1 (supplyCode d.supply) ++
  flagByte d.reflLatch ++ flagByte d.shutLatch ++ flagByte d.warn ++ be 1 d.retries ++
  untilBytes s.clock.time d.retryEnd ++ steadyBytes s ++ be 1 d.reflRun ++ be 2 d.lowRun ++
  be 2 d.forward ++ be 2 d.reflected ++ be 2 d.temperature ++ be 2 d.supplySample ++ driveCountBytes d.counts

/-- RF STATUS (R153). -/
def reqRfStatus (clear : Byte) (s : State) : Answer :=
  reportAndClear clear (rfStatusBody s) (fun s => s.setDrive { s.drive with counts := {} }) s

def execRfStatus (tag clear : Byte) (s : State) : Outcome := request 0x4C tag [clear] (reqRfStatus clear) s

/-- The body of MODULE STATUS (R154). -/
def moduleBody (s : State) (n : Four) : List Byte :=
  let m := s.drive.modules.get n
  if moduleInstalled s n then
    be 1 1 ++ flagByte m.latchedOff ++ flagByte m.enable ++ be 1 m.overRun ++ be 1 m.opened ++ be 2 m.current
  else List.replicate 5 0 ++ be 2 m.current

/-- MODULE STATUS (R154). -/
def reqModuleStatus (n : Byte) (s : State) : Answer :=
  match Four.ofNum n.toNat with
  | some i => ok s (moduleBody s i)
  | none => turnDown s .badParameter

def execModuleStatus (tag n : Byte) (s : State) : Outcome := request 0x4D tag [n] (reqModuleStatus n) s

end Sys2Proof.Machine
end

