-- ==== Sys2Proof/Machine/Settings.lean ====
section
/-! DEFINITION. Settings and the settings store (09, sections 9.5 and 9.6): the parameter table of R178, GET, SET, COMMIT and REVERT
SETTINGS, and the completion of a commit. -/

namespace Sys2Proof.Machine
open Sys2Proof

/-! ## The parameter table (R178, and the parameter tables of the chapters) -/

/-- The values a setting takes: any whole number of a range, or one of a list of codes (R178). -/
inductive ValueSet where
  | numeric (lo hi : Int)
  | enumerated (codes : List Int)

/-- A setting: the values it takes, and its place among the live values. -/
structure Setting where
  values : ValueSet
  get : Params → Int
  put : Params → Int → Params

def yesNo : ValueSet := .enumerated [0, 1]

def boolCode (b : Bool) : Int := if b then 1 else 0

/-- A numeric setting of a block. -/
def clockNum (lo hi : Int) (get : ClockParams → Nat) (put : ClockParams → Nat → ClockParams) : Option Setting :=
  some ⟨.numeric lo hi, fun p => get p.clock, fun p v => { p with clock := put p.clock v.toNat }⟩

def feedNum (lo hi : Int) (get : FeedParams → Nat) (put : FeedParams → Nat → FeedParams) : Option Setting :=
  some ⟨.numeric lo hi, fun p => get p.feed, fun p v => { p with feed := put p.feed v.toNat }⟩

def emNum (lo hi : Int) (get : EmissionParams → Nat) (put : EmissionParams → Nat → EmissionParams) : Option Setting :=
  some ⟨.numeric lo hi, fun p => get p.em, fun p v => { p with em := put p.em v.toNat }⟩

def driveNum (lo hi : Int) (get : DriveParams → Nat) (put : DriveParams → Nat → DriveParams) : Option Setting :=
  some ⟨.numeric lo hi, fun p => get p.drive, fun p v => { p with drive := put p.drive v.toNat }⟩

/-- A yes-or-no setting of a block. -/
def clockFlag (get : ClockParams → Bool) (put : ClockParams → Bool → ClockParams) : Option Setting :=
  some ⟨yesNo, fun p => boolCode (get p.clock), fun p v => { p with clock := put p.clock (v == 1) }⟩

def portFlag (n : PortId) : Option Setting :=
  some ⟨yesNo, fun p => boolCode (p.feed.enabled.get n),
    fun p v => { p with feed := { p.feed with enabled := p.feed.enabled.set n (v == 1) } }⟩

def emFlag (get : EmissionParams → Bool) (put : EmissionParams → Bool → EmissionParams) : Option Setting :=
  some ⟨yesNo, fun p => boolCode (get p.em), fun p v => { p with em := put p.em (v == 1) }⟩

/-- Input n enabled. -/
def enabledSetting (n : InputId) : Option Setting :=
  clockFlag (fun c => c.enabled.get n) (fun c v => { c with enabled := c.enabled.set n v })

/-- Input n priority; the input that held the priority takes the one that n held (R10). -/
def prioritySetting (n : InputId) : Option Setting :=
  clockNum 1 3 (fun c => c.priority.get n) (fun c v => { c with priority := swapPriority n v c.priority })

/-- Group 1: section 1.9 in row order. -/
def clockSetting : Nat → Option Setting
  | 0 => clockNum 0 7 (·.beta) (fun c v => { c with beta := v })
  | 1 => clockNum 0 7 (·.betaFast) (fun c v => { c with betaFast := v })
  | 2 => clockNum 1 1000 (·.jitter) (fun c v => { c with jitter := v })
  | 3 => clockNum 1 15 (·.entryCount) (fun c v => { c with entryCount := v })
  | 4 => clockNum 1 1000 (·.suspectBand) (fun c v => { c with suspectBand := v })
  | 5 => clockNum 1 15 (·.returnCount) (fun c v => { c with returnCount := v })
  | 6 => clockNum 1 255 (·.suspectTimeout) (fun c v => { c with suspectTimeout := v })
  | 7 => clockNum 0 255 (·.holdOff) (fun c v => { c with holdOff := v })
  | 8 => clockNum 1 1000 (·.crossLimit) (fun c v => { c with crossLimit := v })
  | 9 => clockNum 1 15 (·.crossCount) (fun c v => { c with crossCount := v })
  | 10 => clockFlag (·.nonRevertive) (fun c v => { c with nonRevertive := v })
  | 11 => clockNum 1 100 (·.lockWindow) (fun c v => { c with lockWindow := v })
  | 12 => clockNum 1 60 (·.lockCount) (fun c v => { c with lockCount := v })
  | 13 => clockNum 1 1000 (·.relockWindow) (fun c v => { c with relockWindow := v })
  | 14 => clockNum 100 100000 (·.stepThreshold) (fun c v => { c with stepThreshold := v })
  | 15 => clockNum 0 7 (·.slewShift) (fun c v => { c with slewShift := v })
  | 16 => clockNum 0 15 (·.learnShift) (fun c v => { c with learnShift := v })
  | 17 => clockNum 0 65535 (·.holdoverRate) (fun c v => { c with holdoverRate := v })
  | 18 => clockNum 1 1000 (·.guardLimit) (fun c v => { c with guardLimit := v })
  | 19 => enabledSetting .in1
  | 20 => enabledSetting .in2
  | 21 => enabledSetting .in3
  | 22 => prioritySetting .in1
  | 23 => prioritySetting .in2
  | 24 => prioritySetting .in3
  | _ => none

/-- Group 2: section 2.8. -/
def feedSetting : Nat → Option Setting
  | 0 => portFlag .a
  | 1 => portFlag .b
  | 2 => feedNum 0 8190 (·.timingStream) (fun c v => { c with timingStream := v })
  | 3 => feedNum 0 7 (·.healthShift) (fun c v => { c with healthShift := v })
  | 4 => feedNum 1 65535 (·.impair) (fun c v => { c with impair := v })
  | 5 => feedNum 1 65535 (·.fail) (fun c v => { c with fail := v })
  | 6 => feedNum 0 32768 (·.hysteresis) (fun c v => { c with hysteresis := v })
  | 7 => feedNum 1 15 (·.enter) (fun c v => { c with enter := v })
  | 8 => feedNum 1 15 (·.exit) (fun c v => { c with exit := v })
  | _ => none

/-- Group 3: R89. -/
def emSetting : Nat → Option Setting
  | 0 => emNum 100000 10000000 (·.period) (fun c v => { c with period := v })
  | 1 => emNum 16 4096 (·.packets) (fun c v => { c with packets := v })
  | 2 => emNum 0 100000 (·.chainDelay) (fun c v => { c with chainDelay := v })
  | 3 => emFlag (·.singleSite) (fun c v => { c with singleSite := v })
  | 4 => emNum 10000 6000000 (·.bufferDelay) (fun c v => { c with bufferDelay := v })
  | 5 => emNum 1 100 (·.mismatch) (fun c v => { c with mismatch := v })
  | 6 => emNum 10000 1000000 (·.lead) (fun c v => { c with lead := v })
  | 7 => emNum 1 255 (·.gapLimit) (fun c v => { c with gapLimit := v })
  | 8 => emNum 1 15 (·.resume) (fun c v => { c with resume := v })
  | 9 => emNum 1 4095 (·.siteId) (fun c v => { c with siteId := v })
  | 10 => emFlag (·.autoStart) (fun c v => { c with autoStart := v })
  | _ => none

/-- Group 4: R133. -/
def spliceSetting : Nat → Option Setting
  | 0 => some ⟨.numeric 1 16, fun p => p.armingLead, fun p v => { p with armingLead := v.toNat }⟩
  | _ => none

/-- Group 5: section 7.7 in row order. -/
def driveSetting : Nat → Option Setting
  | 0 => driveNum 1 4 (·.installed) (fun c v => { c with installed := v })
  | 1 => driveNum 0 7 (·.rampCode) (fun c v => { c with rampCode := v })
  | 2 => some ⟨yesNo, fun p => boolCode p.drive.smooth, fun p v => { p with drive := { p.drive with smooth := v == 1 } }⟩
  | 3 => driveNum 0 2000 (·.tempKnee) (fun c v => { c with tempKnee := v })
  | 4 => driveNum 0 255 (·.tempGain) (fun c v => { c with tempGain := v })
  | 5 => driveNum 0 4095 (·.reflKnee) (fun c v => { c with reflKnee := v })
  | 6 => driveNum 0 255 (·.reflGain) (fun c v => { c with reflGain := v })
  | 7 => driveNum 0 255 (·.foldHyst) (fun c v => { c with foldHyst := v })
  | 8 => driveNum 0 4095 (·.reflTrip) (fun c v => { c with reflTrip := v })
  | 9 => driveNum 1 15 (·.reflFilter) (fun c v => { c with reflFilter := v })
  | 10 => driveNum 0 7 (·.retryLimit) (fun c v => { c with retryLimit := v })
  | 11 => driveNum 1 60 (·.retryDelay) (fun c v => { c with retryDelay := v })
  | 12 => driveNum 0 2000 (·.tempWarn) (fun c v => { c with tempWarn := v })
  | 13 => driveNum 0 2000 (·.tempShut) (fun c v => { c with tempShut := v })
  | 14 => driveNum 0 200 (·.tempHyst) (fun c v => { c with tempHyst := v })
  | 15 => driveNum 0 4095 (·.supplyLow) (fun c v => { c with supplyLow := v })
  | 16 => driveNum 0 4095 (·.supplyHigh) (fun c v => { c with supplyHigh := v })
  | 17 => driveNum 0 255 (·.supplyHyst) (fun c v => { c with supplyHyst := v })
  | 18 => driveNum 0 4095 (·.overThreshold) (fun c v => { c with overThreshold := v })
  | 19 => driveNum 0 4095 (·.openThreshold) (fun c v => { c with openThreshold := v })
  | 20 => driveNum 1 15 (·.moduleFilter) (fun c v => { c with moduleFilter := v })
  | 21 => driveNum 0 500 (·.lowTol) (fun c v => { c with lowTol := v })
  | _ => none

/-- The report enable of an item 1 to 36 (R156). -/
def reportSetting (item : Nat) : Option Setting :=
  some ⟨yesNo, fun p => boolCode (p.alarm.report.getD (item - 1) false),
    fun p v => { p with alarm := { p.alarm with report := p.alarm.report.set (item - 1) (v == 1) } }⟩

/-- The enable of a notice kind 0 to 7 (R163). -/
def noticeSetting (kind : Nat) : Option Setting :=
  some ⟨yesNo, fun p => boolCode (p.alarm.notice.getD kind false),
    fun p v => { p with alarm := { p.alarm with notice := p.alarm.notice.set kind (v == 1) } }⟩

/-- A field of alarm line n: 0 source, 1 polarity, 2 output mode, 3 direct value (R165, R178; log 15). -/
def lineSetting (n : Four) (field : Nat) : Option Setting :=
  let put (f : LineParams → LineParams) (p : Params) : Params :=
    { p with alarm := { p.alarm with lines := p.alarm.lines.set n (f (p.alarm.lines.get n)) } }
  match field with
  | 0 => some ⟨.enumerated ((List.range 44).map Int.ofNat), fun p => (p.alarm.lines.get n).source,
      fun p v => put (fun l => { l with source := v.toNat }) p⟩
  | 1 => some ⟨yesNo, fun p => boolCode (p.alarm.lines.get n).activeLow, fun p v => put (fun l => { l with activeLow := v == 1 }) p⟩
  | 2 => some ⟨yesNo, fun p => boolCode (p.alarm.lines.get n).openDrain, fun p v => put (fun l => { l with openDrain := v == 1 }) p⟩
  | 3 => some ⟨yesNo, fun p => boolCode (p.alarm.lines.get n).direct, fun p v => put (fun l => { l with direct := v == 1 }) p⟩
  | _ => none

/-- Group 6: the Alarm Unit. -/
def alarmSetting (i : Nat) : Option Setting :=
  if 1 ≤ i ∧ i ≤ 36 then reportSetting i
  else if 64 ≤ i ∧ i ≤ 71 then noticeSetting (i - 64)
  else if 128 ≤ i ∧ i < 144 then (Four.ofNum ((i - 128) / 4 + 1)).bind (fun n => lineSetting n (i % 4))
  else none

/-- The rates of R168. -/
def lineRates : List Int := [9600, 19200, 57600, 115200, 230400, 460800, 921600]

/-- Group 7: the line rate (R168). -/
def linkSetting : Nat → Option Setting
  | 0 => some ⟨.enumerated lineRates, fun p => p.lineRate, fun p v => { p with lineRate := v.toNat }⟩
  | _ => none

/-- The setting of a group and an index (R178). -/
def settingOf (group index : Nat) : Option Setting :=
  match group with
  | 1 => clockSetting index
  | 2 => feedSetting index
  | 3 => emSetting index
  | 4 => spliceSetting index
  | 5 => driveSetting index
  | 6 => alarmSetting index
  | 7 => linkSetting index
  | _ => none

/-! ## Writes (R179) -/

/-- A write that is refused unless emission is OFF (R89, R179 check 3). -/
def needsOff (group index : Nat) : Bool := (group == 2 && index == 2) || (group == 3 && index ≤ 4)

/-- The free grid restarts at a write of F or N (R80, R89). -/
def restartGrid (s : State) : State := s.setEm { s.em with origin := s.clock.time, freePeriod := 0, freePacket := 0 }

/-- The line rate written is applied when the reply has left (R168). -/
def rateWrite (s : State) : State := s.setLink { s.link with rateNew := some s.live.lineRate }

/-- A write of another value, handed to the owner (R179). -/
def writeSetting (group index : Nat) (x : Setting) (v : Int) (s : State) : State :=
  let plain := s.setLive (x.put s.live v)
  match group, index with
  | 1, 10 => revertiveWrite (v == 1) s
  | 1, 18 => guardWrite v.toNat s
  | 1, 19 => inputEnabledWrite .in1 (v == 1) s
  | 1, 20 => inputEnabledWrite .in2 (v == 1) s
  | 1, 21 => inputEnabledWrite .in3 (v == 1) s
  | 1, 22 => priorityWrite .in1 v.toNat s
  | 1, 23 => priorityWrite .in2 v.toNat s
  | 1, 24 => priorityWrite .in3 v.toNat s
  | 2, 0 => portEnabledWrite .a (v == 1) s
  | 2, 1 => portEnabledWrite .b (v == 1) s
  | 2, 2 => formatWrite plain
  | 3, 0 => formatWrite (restartGrid plain)
  | 3, 1 => formatWrite (restartGrid plain)
  | 5, 0 => installedWrite v.toNat s
  | 7, 0 => rateWrite plain
  | _, _ => plain

/-- The value of a request judged against the values a setting takes: none for a code that is not one of its codes, otherwise the
value clamped (R179). -/
def judgeValue (x : ValueSet) (v : Int) : Option Int :=
  match x with
  | .numeric lo hi => some (clamp lo hi v)
  | .enumerated codes => if codes.contains v then some v else none

/-- A write of a value that the setting may already hold (R179). -/
def writeIfNew (group index : Nat) (x : Setting) (v : Int) (s : State) : State :=
  if x.get s.live = v then s else writeSetting group index x v s

/-! ## GET and SET SETTING (R179) -/

def groupOf (id : BitVec 16) : Nat := id.toNat / 256
def indexOf (id : BitVec 16) : Nat := id.toNat % 256

/-- GET SETTING (R179). -/
def reqGetSetting (id : BitVec 16) (s : State) : Answer :=
  match settingOf (groupOf id) (indexOf id) with
  | some x => ok s (be 4 (x.get s.live))
  | none => turnDown s .notFound

def execGetSetting (tag : Byte) (id : BitVec 16) (s : State) : Outcome := request 0x05 tag (word16Bytes id) (reqGetSetting id) s

/-- SET SETTING in the order of its checks (R179). Check 3 refuses a write of the value already held too (log 56). -/
def reqSetSetting (id : BitVec 16) (value : BitVec 32) (s : State) : Answer :=
  let g := groupOf id
  let i := indexOf id
  match settingOf g i with
  | none => turnDown s .notFound
  | some x =>
    match judgeValue x.values value.toInt with
    | none => turnDown s .badParameter
    | some v =>
      if needsOff g i && s.em.mode != .off then turnDown s .refusedState
      else
        let s := writeIfNew g i x v s
        ⟨s, if v = value.toInt then .ok else .adjusted, be 4 (x.get s.live)⟩

def execSetSetting (tag : Byte) (id : BitVec 16) (value : BitVec 32) (s : State) : Outcome :=
  request 0x06 tag (word16Bytes id ++ word32Bytes value) (reqSetSetting id value) s

/-! ## COMMIT and REVERT SETTINGS (R180, R181) -/

/-- The commit snapshot (R180). -/
def snapshot (s : State) : Contents :=
  { params := s.live
    power := s.drive.power
    rfEnabled := s.drive.rfEnabled
    hostMute := s.em.mute.host
    siteOffset := s.em.pendingOffset.getD s.em.offset
    corr := s.clock.corr
    services := s.splice.services
    plans := s.splice.plans
    count := s.link.held.count + 1 }

/-- COMMIT SETTINGS (R180). -/
def reqCommitSettings (s : State) : Answer :=
  match s.link.busy with
  | some _ => turnDown s .busy
  | none => ok (s.setLink { s.link with busy := some (snapshot s) }) (be 4 (snapshot s).count.toNat)

def execCommitSettings (tag : Byte) (s : State) : Outcome := request 0x07 tag [] reqCommitSettings s

/-- The completion of a commit (R180; log 38). -/
def completionEffect (s : State) : State :=
  match s.link.busy with
  | some c =>
    (s.setLink { s.link with stored := some c, held := c, busy := none }).setEv { s.ev with committed := some c.count }
  | none => s

def execCommitCompletion (s : State) : Outcome := event completionEffect s

/-- What a REVERT has done so far: the state, the settings written, and those left. -/
structure Reverted where
  state : State
  written : Nat := 0
  left : Nat := 0

/-- One setting reverted to the held value (R181). -/
def revertOne (held : Params) (group : Nat) (r : Reverted) (index : Nat) : Reverted :=
  match settingOf group index with
  | none => r
  | some x =>
    if x.get r.state.live = x.get held then r
    else if needsOff group index && r.state.em.mode != .off then { r with left := r.left + 1 }
    else { r with state := writeSetting group index x (x.get held) r.state, written := r.written + 1 }

/-- The three priorities written together, with one re-evaluation (R181; log 32). -/
def revertPriorities (held : Params) (r : Reverted) : Reverted :=
  let live := r.state.live.clock.priority
  let changed := (InputId.all.filter (fun n => live.get n ≠ held.clock.priority.get n)).length
  if changed = 0 then r
  else
    { r with
      state := regovernFit (setClockParams { r.state.live.clock with priority := held.clock.priority } r.state)
      written := r.written + changed }

/-- The settings of a group in ascending index. -/
def revertGroup (held : Params) (group : Nat) (indexes : List Nat) (r : Reverted) : Reverted :=
  indexes.foldl (revertOne held group) r

/-- Every setting reverted in ascending parameter id, the priorities after the other settings of group 1 (R181). -/
def revertAll (held : Params) (s : State) : Reverted :=
  let r := revertPriorities held (revertGroup held 1 (List.range 22) { state := s })
  let r := revertGroup held 4 [0] (revertGroup held 3 (List.range 11) (revertGroup held 2 (List.range 9) r))
  let r := revertGroup held 5 (List.range 22) r
  revertGroup held 7 [0] (revertGroup held 6 (List.range 144) r)

/-- REVERT SETTINGS (R181). -/
def reqRevertSettings (s : State) : Answer :=
  match s.link.busy with
  | some _ => turnDown s .busy
  | none =>
    let r := revertAll s.link.held.params s
    ok r.state (be 2 r.written ++ be 1 r.left)

def execRevertSettings (tag : Byte) (s : State) : Outcome := request 0x08 tag [] reqRevertSettings s

end Sys2Proof.Machine
end

