-- ==== Sys2Proof/Machine/Splicing.lean ====
section
/-! DEFINITION. Splicing's requests (06): CUE, CUE LIST, CHANNEL STATUS and ABORT SPLICE. -/

namespace Sys2Proof.Machine
open Sys2Proof

/-- The channel an avail's entry is bound to, or 0 (R112; log 16). -/
def boundChannel (s : State) (avail : Nat) : Nat := channelNum ((cueOf s avail).bind CueEntry.channel)

/-- CUE (R112). -/
def reqCue (d : CueData) (s : State) : Answer :=
  if malformed d then turnDown s .badParameter
  else
    match s.em.mode, s.store.base with
    | .running, some b =>
      let r := judgeCue d .host b s
      ok r.1 (be 1 (outcomeCode r.2) ++ be 1 (boundChannel r.1 d.avail.toNat))
    | _, _ => turnDown s .refusedState

def execCue (tag : Byte) (entry : CueData) (s : State) : Outcome := request 0x40 tag (cueBytes entry) (reqCue entry) s

/-- An entry of CUE LIST (R131). -/
def cueEntryBytes (e : CueEntry) : List Byte :=
  be 2 e.avail ++ be 2 e.service ++ be 2 e.start.toNat ++ be 2 e.duration ++ be 2 e.ending.toNat ++
  be 1 (match e.source with | .network => 0 | .host => 1) ++ be 2 e.carrying.toNat ++ be 1 (cueCode e.mode) ++
  be 1 (channelNum e.channel) ++ be 4 e.order.toNat

/-- The eleven cue counts (R130). -/
def cueCountBytes (c : CueCounts) : List Byte :=
  be 2 c.new ++ be 2 c.repeats ++ be 2 c.revision ++ be 2 c.lateRevision ++ be 2 c.dropped ++ be 2 c.missed ++ be 2 c.unfilled ++
  be 2 c.endMoved ++ be 2 c.inIgnored ++ be 2 c.cancelled ++ be 2 c.cancelIgnored

/-- The body of CUE LIST (R131). -/
def cueListBody (s : State) : List Byte :=
  be 2 s.splice.cueRef.toNat ++ be 1 s.splice.cues.length ++ (orderedCues s).flatMap cueEntryBytes ++ cueCountBytes s.splice.counts

/-- CUE LIST (R131). -/
def reqCueList (clear : Byte) (s : State) : Answer := reportAndClear clear (cueListBody s) (countCue (fun _ => {})) s

def execCueList (tag clear : Byte) (s : State) : Outcome := request 0x41 tag [clear] (reqCueList clear) s

def pendingCode : PendingReturn → Nat
  | .none => 0
  | .early => 1
  | .aborted => 2

/-- The body of CHANNEL STATUS (R132). -/
def channelBytes : Option Channel → List Byte
  | none => List.replicate 29 0
  | some c =>
    be 1 (if c.active then 2 else 1) ++ be 2 c.avail ++ be 2 c.service ++ be 1 c.clip ++ be 2 c.perFrame ++ be 4 c.length ++
    flagByte c.harvest ++ flagByte c.early ++ be 2 c.start.toNat ++ be 2 c.ending.toNat ++ be 4 c.read ++ be 4 c.due ++
    flagByte c.exhausted ++ be 1 (pendingCode c.pending) ++ be 1 c.map.length ++
    c.map.flatMap (fun m : Nat × Nat => be 2 m.1 ++ be 2 m.2)

/-- CHANNEL STATUS (R132). -/
def reqChannelStatus (n : Byte) (s : State) : Answer :=
  match Four.ofNum n.toNat with
  | some i => ok s (channelBytes (s.splice.channels.get i))
  | none => turnDown s .badParameter

def execChannelStatus (tag n : Byte) (s : State) : Outcome := request 0x42 tag [n] (reqChannelStatus n) s

/-- ABORT SPLICE (R125). -/
def reqAbortSplice (n : Byte) (s : State) : Answer :=
  match Four.ofNum n.toNat with
  | none => turnDown s .badParameter
  | some i =>
    match s.splice.channels.get i with
    | none => turnDown s .refusedState
    | some c =>
      if c.active then ok (setChannel i (some { c with pending := .aborted }) s)
      else ok (arbitrate i (disarm i c s))

def execAbortSplice (tag n : Byte) (s : State) : Outcome := request 0x43 tag [n] (reqAbortSplice n) s

end Sys2Proof.Machine
end

