-- ==== Sys2Proof/Machine/Link.lean ====
section
/-! DEFINITION. The Control Link (09): its own requests, the serving of a request by its kind (10.4), the receiver and its framing
phases, and the end of a transmission. -/

namespace Sys2Proof.Machine
open Sys2Proof

/-! ## The link's own requests (R175 to R177) -/

/-- The part name, the sixteen characters of R175. -/
def partName : List Byte := [0x52, 0x4F, 0x4E, 0x44, 0x41, 0x58, 0x20, 0x53, 0x58, 0x32, 0x34, 0x20, 0x20, 0x20, 0x20, 0x20]

/-- The body of IDENTIFY (R175; log 8). -/
def identifyBody : List Byte :=
  partName ++ [Config.siliconRevision] ++ be 4 Config.deviceNumber.toNat ++ be 1 64 ++ be 1 32 ++ be 1 4 ++ be 4 1165704

/-- IDENTIFY (R175). -/
def reqIdentify (s : State) : Answer := ok s identifyBody

def execIdentify (tag : Byte) (s : State) : Outcome := request 0x01 tag [] reqIdentify s

def causeCode : StartCause → Nat
  | .powerOn => 0
  | .restart => 1

def sourceCode : LoadSource → Nat
  | .store => 0
  | .factory => 1

/-- The body of STATUS (R175); a dispatched request has left the queue, so that the queue holds the requests behind it. Of a
second beyond 2^40 − 1 the low 40 bits are sent (log 51). -/
def statusBody (s : State) : List Byte :=
  be 5 (s.clock.time / (Config.second : Int)) ++ be 4 (s.clock.time % (Config.second : Int)) ++ be 1 (causeCode s.link.cause) ++
  be 1 (sourceCode s.link.source) ++ be 4 s.link.held.count.toNat ++ be 1 s.link.queue.length ++
  be 1 s.alarms.notices.length ++ be 4 s.link.rate ++ be 4 s.alarms.epoch.toNat

/-- STATUS (R175). -/
def reqStatus (s : State) : Answer := ok s (statusBody s)

def execStatus (tag : Byte) (s : State) : Outcome := request 0x02 tag [] reqStatus s

/-- ACK START (R176). -/
def reqAckStart (s : State) : Answer := ok (s.setLink { s.link with startFlag := false })

def execAckStart (tag : Byte) (s : State) : Outcome := request 0x03 tag [] reqAckStart s

/-- RESTART (R177). -/
def reqRestart (s : State) : Answer :=
  match s.link.busy with
  | some _ => turnDown s .busy
  | none => ok (s.setLink { s.link with restart := .afterReply })

def execRestart (tag : Byte) (s : State) : Outcome := request 0x04 tag [] reqRestart s

/-! ## Serving a request by its kind (R184, 10.4) -/

/-- A fixed layout: exactly the length given (R184). -/
def fixed (length : Nat) (body : List Byte) (op : State → Answer) (s : State) : Answer :=
  if body.length = length then op s else turnDown s .badParameter

/-- A variable layout: the body reaches the count byte at `place`, and is then exactly as long as that count makes it (R184). -/
def counted (place base each : Nat) (body : List Byte) (op : Nat → State → Answer) (s : State) : Answer :=
  let count := (pbyte body place).toNat
  if place < body.length ∧ body.length = base + each * count then op count s else turnDown s .badParameter

/-- The request kinds 0x01 to 0x1B. -/
def serveLow (kind : Nat) (b : List Byte) (s : State) : Answer :=
  match kind with
  | 0x01 => fixed 0 b reqIdentify s
  | 0x02 => fixed 0 b reqStatus s
  | 0x03 => fixed 0 b reqAckStart s
  | 0x04 => fixed 0 b reqRestart s
  | 0x05 => fixed 2 b (reqGetSetting (field16 b 0)) s
  | 0x06 => fixed 6 b (reqSetSetting (field16 b 0) (field32 b 2)) s
  | 0x07 => fixed 0 b reqCommitSettings s
  | 0x08 => fixed 0 b reqRevertSettings s
  | 0x10 => fixed 0 b reqClockStatus s
  | 0x11 => fixed 0 b reqReferenceStatus s
  | 0x12 => fixed 1 b (reqSelectReference (pbyte b 0)) s
  | 0x13 => fixed 1 b (reqReseedReference (pbyte b 0)) s
  | 0x18 => fixed 2 b (reqFeedStatus (pbyte b 0) (pbyte b 1)) s
  | 0x19 => fixed 1 b (reqFeedHold (pbyte b 0)) s
  | 0x1A => fixed 1 b (reqFeedCounts (pbyte b 0)) s
  | 0x1B => fixed 0 b reqStoreStatus s
  | _ => turnDown s .unknown

/-- The request kinds 0x20 to 0x35. -/
def serveMiddle (kind : Nat) (b : List Byte) (s : State) : Answer :=
  match kind with
  | 0x20 => fixed 0 b reqStartEmission s
  | 0x21 => fixed 0 b reqStopEmission s
  | 0x22 => fixed 0 b reqReAnchor s
  | 0x23 => fixed 0 b reqMute s
  | 0x24 => fixed 0 b reqUnmute s
  | 0x25 => fixed 4 b (reqSetOffset (field32 b 0)) s
  | 0x26 => fixed 1 b (reqEmissionStatus (pbyte b 0)) s
  | 0x28 => counted 3 4 2 b (fun count => reqDefineService (field16 b 0) (pbyte b 2) (words16 b 4 count)) s
  | 0x29 => fixed 2 b (reqDeleteService (field16 b 0)) s
  | 0x2A => fixed 0 b reqServiceList s
  | 0x30 => fixed 9 b (reqClipOpen (pbyte b 0) (field16 b 1) (field16 b 3) (field32 b 5)) s
  | 0x31 => counted 1 2 188 b (fun count => reqClipData (pbyte b 0) (packetsAt b 2 count)) s
  | 0x32 => fixed 5 b (reqClipSeek (pbyte b 0) (field32 b 1)) s
  | 0x33 => fixed 1 b (reqClipClose (pbyte b 0)) s
  | 0x34 => fixed 1 b (reqClipDelete (pbyte b 0)) s
  | 0x35 => fixed 1 b (reqClipStatus (pbyte b 0)) s
  | _ => turnDown s .unknown

/-- The request kinds 0x38 to 0x51. -/
def serveHigh (kind : Nat) (b : List Byte) (s : State) : Answer :=
  match kind with
  | 0x38 =>
    counted 8 9 4 b
      (fun count => reqPlanSet (pbyte b 0) (field16 b 1) (field16 b 3) (pbyte b 5) (pbyte b 6) (pbyte b 7) (pairsAt b 9 count)) s
  | 0x39 => fixed 5 b (reqPlanDelete (pbyte b 0) (field16 b 1) (field16 b 3)) s
  | 0x3A => fixed 1 b (reqPlanList (pbyte b 0)) s
  | 0x40 => fixed 9 b (reqCue (readCue b 0)) s
  | 0x41 => fixed 1 b (reqCueList (pbyte b 0)) s
  | 0x42 => fixed 1 b (reqChannelStatus (pbyte b 0)) s
  | 0x43 => fixed 1 b (reqAbortSplice (pbyte b 0)) s
  | 0x48 => fixed 0 b reqRfEnable s
  | 0x49 => fixed 0 b reqRfDisable s
  | 0x4A => fixed 2 b (reqSetPower (field16 b 0)) s
  | 0x4B => fixed 0 b reqClearTrips s
  | 0x4C => fixed 1 b (reqRfStatus (pbyte b 0)) s
  | 0x4D => fixed 1 b (reqModuleStatus (pbyte b 0)) s
  | 0x50 => fixed 0 b reqAlarmRead s
  | 0x51 => fixed 9 b (reqAlarmClear (field32 b 0) (BitVec.ofNat 40 (field b 4 5))) s
  | _ => turnDown s .unknown

/-- What the owner named by a kind answers to a request's body; a kind that 10.4 does not list is answered UNKNOWN (R184). -/
def serve (kind : Byte) (body : List Byte) (s : State) : Answer :=
  if kind.toNat < 0x20 then serveLow kind.toNat body s
  else if kind.toNat < 0x38 then serveMiddle kind.toNat body s
  else serveHigh kind.toNat body s

/-- A request whose kind is not known, dispatched in its turn like any other (R171, R172, R184). -/
def execUnknownKind (kind tag : Byte) (body : List Byte) (s : State) : Outcome := request kind tag body (serve kind body) s

/-! ## The receiver (R169) -/

def setRx (r : Receiver) (s : State) : State := s.setLink { s.link with rx := r }

/-- A frame error: the frame is discarded, and the flag is set (R169, R170). -/
def frameError (s : State) : State := s.setLink { s.link with rx := .hunt, protocolError := true }

/-- A complete frame is offered to the request queue (R169, R171). -/
def completeRequest (content : List Byte) (s : State) : State :=
  let kind := content.getD 0 0
  let body := content.drop 2
  submit kind (content.getD 1 0) body (serve kind body) (setRx .hunt s)

/-- The length is judged after its second byte (R169). -/
def judgeLength (length : Nat) (s : State) : State :=
  if length < 2 ∨ 1026 < length then frameError s else setRx (.content length []) s

/-- The CRC-16 is judged after its second byte (R169). -/
def judgeCrc (length : Nat) (content crc : List Byte) (s : State) : State :=
  if (crc16 (be 2 length ++ content)).toNat = fromBE crc then completeRequest content s else frameError s

/-- A byte in the receiver's phase (R169). -/
def receiveInPhase (b : Byte) (s : State) : State :=
  match s.link.rx with
  | .hunt => if b = 0xA5 then setRx (.length []) s else s
  | .length got =>
    if got.length = 0 then setRx (.length [b]) s else judgeLength (fromBE (got ++ [b])) s
  | .content length got =>
    if got.length + 1 < length then setRx (.content length (got ++ [b])) s else setRx (.check length (got ++ [b]) []) s
  | .check length content got =>
    if got.length = 0 then setRx (.check length content [b]) s else judgeCrc length content (got ++ [b]) s

/-- A byte arrives on the control link; the gap interval restarts from it (R169). -/
def receiveByte (s : State) (b : Byte) : State :=
  receiveInPhase b (s.setLink { s.link with rxLast := s.clock.cycles })

/-- The bytes of a frame arrive one after another (R169; log 6). -/
def framesEffect (bytes : List Byte) (s : State) : State := bytes.foldl receiveByte s

def execRequestFrame (bytes : List Byte) (s : State) : Outcome := event (framesEffect bytes) s

/-- The gap of R169, in oscillator cycles. -/
def gapCycles : Nat := 200000

/-- A gap expiry (R169; log 4). -/
def gapEffect (s : State) : State :=
  if s.link.rx ≠ .hunt ∧ s.link.rxLast + gapCycles ≤ s.clock.cycles then frameError s else s

def execGapExpiry (s : State) : Outcome := event gapEffect s

/-! ## The end of a transmission (R168, R171, R174, R177) -/

/-- The request at the head of the queue is dispatched where the reply buffer is empty and the line is settled (R171, R177, R168). -/
def dispatchHead (s : State) : State :=
  match s.link.queue with
  | [] => s
  | r :: rest =>
    if s.link.reply.isNone && lineSettled s then
      formReply r.kind r.tag (serve r.kind r.body (s.setLink { s.link with queue := rest }))
    else s

/-- The last byte of a reply has left: the reply buffer empties, a line rate written by its request is due, and so is a restart. -/
def replyLeft (s : State) : State :=
  s.setLink { s.link with
    reply := none
    rateDue := match s.link.rateNew with | some r => some r | none => s.link.rateDue
    rateNew := none
    restart := if s.link.restart = .afterReply then .due else s.link.restart }

/-- The last byte of the frame has left the transmitter (R171, R174). -/
def transmitCompleteEffect (s : State) : State :=
  match s.link.tx with
  | none => s
  | some f =>
    let s := s.setLink { s.link with tx := none }
    dispatchHead (if f.isReply then replyLeft s else s)

def execTransmitComplete (s : State) : Outcome := event transmitCompleteEffect s

/-- A line rate whose reply has left is applied, and the request that waited for it is dispatched (R168, R171; log 27). -/
def rateEffect (s : State) : State :=
  match s.link.rateDue with
  | some r => dispatchHead (s.setLink { s.link with rate := r, rateDue := none })
  | none => s

def execLineRateApply (s : State) : Outcome := event rateEffect s

end Sys2Proof.Machine
end

