-- ==== Sys2Proof/Machine/Start.lean ====
section
/-! DEFINITION. Starts and the loss of power (09, R177, R180, R182; R23, R44, R67, R92, R109, R133, R155, R167): POWER_ON, RESTART_START
and POWER_FAIL. -/

namespace Sys2Proof.Machine
open Sys2Proof

/-- The held contents after the load, and where they come from (R182): the stored contents when their CRC-32 passes, and the
factory defaults when it fails. -/
def loaded (stored : Option Contents) : Contents × LoadSource :=
  match stored with
  | some c => (c, .store)
  | none => ({}, .factory)

/-- The start values of the Site Clock (R23). -/
def startClock (c : Contents) : ClockState := { corr := c.corr }

/-- A port at a start (R44). -/
def startPort (enabled : Bool) : PortRec := { mode := if enabled then .dark else .disabled }

/-- The start values of Feed Intake (R44). -/
def startFeed (c : Contents) : FeedState := { ports := c.params.feed.enabled.map startPort }

/-- The start values of the Emission Scheduler (R92). -/
def startEm (c : Contents) : EmissionState := { mute := { host := c.hostMute }, offset := c.siteOffset }

/-- The start values of Splicing (R133, R109). -/
def startSplice (c : Contents) : SpliceState :=
  { services := c.services
    plans := c.plans
    offsets := (c.services.flatMap Service.streams).map (fun st => { stream := st }) }

/-- The start values of the Drive Controller, but for the ceiling (R155). -/
def startDrive (c : Contents) : DriveState :=
  let m (n : Four) : Module := { enable := n.num ≤ c.params.drive.installed }
  { power := c.power, rfEnabled := c.rfEnabled, modules := ⟨m .n1, m .n2, m .n3, m .n4⟩ }

/-- The start values of the Control Link (R182). -/
def startLink (cause : StartCause) (stored : Option Contents) : LinkState :=
  { cause := cause, source := (loaded stored).2, held := (loaded stored).1, stored := stored,
    rate := (loaded stored).1.params.lineRate }

/-- Every block at its start values, before the ceiling, SETTINGS LOST and AUTO START. Attached memory is not kept (R44, R109);
the commands that wait have not come yet, and stay. -/
def startBlocks (cause : StartCause) (s : State) : State :=
  let c := (loaded s.link.stored).1
  { powered := true
    starts := s.starts + 1
    clock := startClock c
    feed := startFeed c
    em := startEm c
    splice := startSplice c
    drive := startDrive c
    link := startLink cause s.link.stored
    live := c.params
    pending := s.pending }

/-- SETTINGS LOST latches when the load source is FACTORY (R182). -/
def startLost (s : State) : State := if s.link.source = .factory then occur 36 s else s

/-- AUTO START (R69, R182; log 30). -/
def autoStart (s : State) : State := if s.live.em.autoStart then enterAnchoring 2 s else s

/-- A start (R182). The ceiling is computed from the start values (R155). -/
def startState (cause : StartCause) (s : State) : State :=
  let s := startBlocks cause s
  autoStart (startLost (s.setDrive { s.drive with ceiling := ceilingOf s }))

/-- Power is lost (R180): a write in progress leaves stored contents whose CRC-32 fails. Nothing acts until power returns (log 21). -/
def losePower (s : State) : State :=
  { s with
    powered := false
    link := { s.link with
      stored := if s.link.busy.isSome then none else s.link.stored
      busy := none } }

def execPowerFail (s : State) : Outcome := .next (losePower s)

/-- Power comes on: a start from the stored contents (R182). Power that was on is taken to have failed first (log 21). -/
def execPowerOn (s : State) : Outcome := .next (transmit (closeEvent (startState .powerOn (losePower s))))

/-- The restart that a RESTART asked for, at the instant its reply has left (R177). -/
def restartEffect (s : State) : State := if s.link.restart = .due then startState .restart s else s

def execRestartStart (s : State) : Outcome := event restartEffect s

end Sys2Proof.Machine
end

