-- ==== Sys2Proof/Machine/Dispatch.lean ====
section
/-! DEFINITION. The dispatch of a command to its meaning: one arm per constructor of `Instr`. -/

namespace Sys2Proof.Machine
open Sys2Proof

def exec (i : Instr) (s : State) : Host.Outcome State Fault Refusal :=
  match i with
  | .powerOn => Sys2Proof.Machine.execPowerOn s
  | .restartStart => Sys2Proof.Machine.execRestartStart s
  | .requestFrame bytes => Sys2Proof.Machine.execRequestFrame bytes s
  | .gapExpiry => Sys2Proof.Machine.execGapExpiry s
  | .transmitComplete => Sys2Proof.Machine.execTransmitComplete s
  | .lineRateApply => Sys2Proof.Machine.execLineRateApply s
  | .unknownKind kind tag body => Sys2Proof.Machine.execUnknownKind kind tag body s
  | .identify tag => Sys2Proof.Machine.execIdentify tag s
  | .status tag => Sys2Proof.Machine.execStatus tag s
  | .ackStart tag => Sys2Proof.Machine.execAckStart tag s
  | .restart tag => Sys2Proof.Machine.execRestart tag s
  | .getSetting tag id => Sys2Proof.Machine.execGetSetting tag id s
  | .setSetting tag id value => Sys2Proof.Machine.execSetSetting tag id value s
  | .commitSettings tag => Sys2Proof.Machine.execCommitSettings tag s
  | .commitCompletion => Sys2Proof.Machine.execCommitCompletion s
  | .revertSettings tag => Sys2Proof.Machine.execRevertSettings tag s
  | .clockStatus tag => Sys2Proof.Machine.execClockStatus tag s
  | .referenceStatus tag => Sys2Proof.Machine.execReferenceStatus tag s
  | .selectReference tag n => Sys2Proof.Machine.execSelectReference tag n s
  | .reseedReference tag n => Sys2Proof.Machine.execReseedReference tag n s
  | .feedStatus tag port clear => Sys2Proof.Machine.execFeedStatus tag port clear s
  | .feedHold tag selection => Sys2Proof.Machine.execFeedHold tag selection s
  | .feedCounts tag clear => Sys2Proof.Machine.execFeedCounts tag clear s
  | .storeStatus tag => Sys2Proof.Machine.execStoreStatus tag s
  | .startEmission tag => Sys2Proof.Machine.execStartEmission tag s
  | .stopEmission tag => Sys2Proof.Machine.execStopEmission tag s
  | .reAnchor tag => Sys2Proof.Machine.execReAnchor tag s
  | .mute tag => Sys2Proof.Machine.execMute tag s
  | .unmute tag => Sys2Proof.Machine.execUnmute tag s
  | .setOffset tag o => Sys2Proof.Machine.execSetOffset tag o s
  | .emissionStatus tag clear => Sys2Proof.Machine.execEmissionStatus tag clear s
  | .defineService tag number eligible streams => Sys2Proof.Machine.execDefineService tag number eligible streams s
  | .deleteService tag number => Sys2Proof.Machine.execDeleteService tag number s
  | .serviceList tag => Sys2Proof.Machine.execServiceList tag s
  | .clipOpen tag n f k crc => Sys2Proof.Machine.execClipOpen tag n f k crc s
  | .clipData tag n packets => Sys2Proof.Machine.execClipData tag n packets s
  | .clipSeek tag n position => Sys2Proof.Machine.execClipSeek tag n position s
  | .clipClose tag n => Sys2Proof.Machine.execClipClose tag n s
  | .clipDelete tag n => Sys2Proof.Machine.execClipDelete tag n s
  | .clipStatus tag n => Sys2Proof.Machine.execClipStatus tag n s
  | .verificationStepEnd => Sys2Proof.Machine.execVerificationStepEnd s
  | .planSet tag keyKind avail service clip harvest early map => Sys2Proof.Machine.execPlanSet tag keyKind avail service clip harvest early map s
  | .planDelete tag keyKind avail service => Sys2Proof.Machine.execPlanDelete tag keyKind avail service s
  | .planList tag start => Sys2Proof.Machine.execPlanList tag start s
  | .cue tag entry => Sys2Proof.Machine.execCue tag entry s
  | .cueList tag clear => Sys2Proof.Machine.execCueList tag clear s
  | .channelStatus tag n => Sys2Proof.Machine.execChannelStatus tag n s
  | .abortSplice tag n => Sys2Proof.Machine.execAbortSplice tag n s
  | .rfEnable tag => Sys2Proof.Machine.execRfEnable tag s
  | .rfDisable tag => Sys2Proof.Machine.execRfDisable tag s
  | .setPower tag p => Sys2Proof.Machine.execSetPower tag p s
  | .clearTrips tag => Sys2Proof.Machine.execClearTrips tag s
  | .rfStatus tag clear => Sys2Proof.Machine.execRfStatus tag clear s
  | .moduleStatus tag n => Sys2Proof.Machine.execModuleStatus tag n s
  | .alarmRead tag => Sys2Proof.Machine.execAlarmRead tag s
  | .alarmClear tag epoch items => Sys2Proof.Machine.execAlarmClear tag epoch items s
  | .oscillatorSecond => Sys2Proof.Machine.execOscillatorSecond s
  | .secondNumberReceived n number => Sys2Proof.Machine.execSecondNumberReceived n number s
  | .timePulse n => Sys2Proof.Machine.execTimePulse n s
  | .missingPulse n => Sys2Proof.Machine.execMissingPulse n s
  | .suspectTimeout n => Sys2Proof.Machine.execSuspectTimeout n s
  | .holdOffExpiry n => Sys2Proof.Machine.execHoldOffExpiry n s
  | .secondBoundary => Sys2Proof.Machine.execSecondBoundary s
  | .feedByte p byte => Sys2Proof.Machine.execFeedByte p byte s
  | .feedPacket p sync rest => Sys2Proof.Machine.execFeedPacket p sync rest s
  | .lineActivityExpiry p => Sys2Proof.Machine.execLineActivityExpiry p s
  | .silenceDeadline p => Sys2Proof.Machine.execSilenceDeadline p s
  | .take => Sys2Proof.Machine.execTake s
  | .anchorReached => Sys2Proof.Machine.execAnchorReached s
  | .packetDeparture => Sys2Proof.Machine.execPacketDeparture s
  | .freeGridPacket => Sys2Proof.Machine.execFreeGridPacket s
  | .monitoringSample samples => Sys2Proof.Machine.execMonitoringSample samples s
  | .rampTick => Sys2Proof.Machine.execRampTick s
  | .retryEnd => Sys2Proof.Machine.execRetryEnd s
  | .steadyPeriodExpiry => Sys2Proof.Machine.execSteadyPeriodExpiry s
  | .powerFail => Sys2Proof.Machine.execPowerFail s

end Sys2Proof.Machine
end

