-- ==== Sys2Proof/Machine/Step.lean ====
section
/-! DEFINITION. One step: the command at the front of the queue, or, on an empty queue, one cycle of the local oscillator. -/

namespace Sys2Proof.Machine
open Sys2Proof

/-- What the part does while no command waits: one oscillator cycle, which the table has no row for (R1; log 3). Without power
nothing happens (log 21). -/
def idle (s : State) : State := if s.powered then oscillatorCycle s else s

/-- The front command taken from the queue and carried out as one whole step, or the idle cycle (log 40). -/
def step (s : State) : Host.Outcome State Fault Refusal :=
  match s.pending with
  | [] => .next (idle s)
  | c :: rest => exec c { s with pending := rest }

/-- The state with the command that a word spells put at the front of its queue; unchanged where the word spells none (log 37). -/
def State.withFetchWord (s : State) (nbits w : Nat) : State :=
  match decodeTableWord nbits w with
  | some c => { s with pending := c :: s.pending }
  | none => s

end Sys2Proof.Machine
end

