-- ==== Sys2Proof/Laws/State.lean ====
section
/-! SUPPORT. What one update of a block leaves in each field of the state. -/

namespace Sys2Proof.Machine
open Sys2Proof

@[simp] theorem State.setClock_powered (s : State) (x : ClockState) : (s.setClock x).powered = s.powered := rfl
@[simp] theorem State.setClock_starts (s : State) (x : ClockState) : (s.setClock x).starts = s.starts := rfl
@[simp] theorem State.setClock_clock (s : State) (x : ClockState) : (s.setClock x).clock = x := rfl
@[simp] theorem State.setClock_feed (s : State) (x : ClockState) : (s.setClock x).feed = s.feed := rfl
@[simp] theorem State.setClock_store (s : State) (x : ClockState) : (s.setClock x).store = s.store := rfl
@[simp] theorem State.setClock_em (s : State) (x : ClockState) : (s.setClock x).em = s.em := rfl
@[simp] theorem State.setClock_clips (s : State) (x : ClockState) : (s.setClock x).clips = s.clips := rfl
@[simp] theorem State.setClock_splice (s : State) (x : ClockState) : (s.setClock x).splice = s.splice := rfl
@[simp] theorem State.setClock_drive (s : State) (x : ClockState) : (s.setClock x).drive = s.drive := rfl
@[simp] theorem State.setClock_alarms (s : State) (x : ClockState) : (s.setClock x).alarms = s.alarms := rfl
@[simp] theorem State.setClock_link (s : State) (x : ClockState) : (s.setClock x).link = s.link := rfl
@[simp] theorem State.setClock_live (s : State) (x : ClockState) : (s.setClock x).live = s.live := rfl
@[simp] theorem State.setClock_mem (s : State) (x : ClockState) : (s.setClock x).mem = s.mem := rfl
@[simp] theorem State.setClock_ev (s : State) (x : ClockState) : (s.setClock x).ev = s.ev := rfl
@[simp] theorem State.setClock_pending (s : State) (x : ClockState) : (s.setClock x).pending = s.pending := rfl

@[simp] theorem State.setFeed_powered (s : State) (x : FeedState) : (s.setFeed x).powered = s.powered := rfl
@[simp] theorem State.setFeed_starts (s : State) (x : FeedState) : (s.setFeed x).starts = s.starts := rfl
@[simp] theorem State.setFeed_clock (s : State) (x : FeedState) : (s.setFeed x).clock = s.clock := rfl
@[simp] theorem State.setFeed_feed (s : State) (x : FeedState) : (s.setFeed x).feed = x := rfl
@[simp] theorem State.setFeed_store (s : State) (x : FeedState) : (s.setFeed x).store = s.store := rfl
@[simp] theorem State.setFeed_em (s : State) (x : FeedState) : (s.setFeed x).em = s.em := rfl
@[simp] theorem State.setFeed_clips (s : State) (x : FeedState) : (s.setFeed x).clips = s.clips := rfl
@[simp] theorem State.setFeed_splice (s : State) (x : FeedState) : (s.setFeed x).splice = s.splice := rfl
@[simp] theorem State.setFeed_drive (s : State) (x : FeedState) : (s.setFeed x).drive = s.drive := rfl
@[simp] theorem State.setFeed_alarms (s : State) (x : FeedState) : (s.setFeed x).alarms = s.alarms := rfl
@[simp] theorem State.setFeed_link (s : State) (x : FeedState) : (s.setFeed x).link = s.link := rfl
@[simp] theorem State.setFeed_live (s : State) (x : FeedState) : (s.setFeed x).live = s.live := rfl
@[simp] theorem State.setFeed_mem (s : State) (x : FeedState) : (s.setFeed x).mem = s.mem := rfl
@[simp] theorem State.setFeed_ev (s : State) (x : FeedState) : (s.setFeed x).ev = s.ev := rfl
@[simp] theorem State.setFeed_pending (s : State) (x : FeedState) : (s.setFeed x).pending = s.pending := rfl

@[simp] theorem State.setStore_powered (s : State) (x : StoreState) : (s.setStore x).powered = s.powered := rfl
@[simp] theorem State.setStore_starts (s : State) (x : StoreState) : (s.setStore x).starts = s.starts := rfl
@[simp] theorem State.setStore_clock (s : State) (x : StoreState) : (s.setStore x).clock = s.clock := rfl
@[simp] theorem State.setStore_feed (s : State) (x : StoreState) : (s.setStore x).feed = s.feed := rfl
@[simp] theorem State.setStore_store (s : State) (x : StoreState) : (s.setStore x).store = x := rfl
@[simp] theorem State.setStore_em (s : State) (x : StoreState) : (s.setStore x).em = s.em := rfl
@[simp] theorem State.setStore_clips (s : State) (x : StoreState) : (s.setStore x).clips = s.clips := rfl
@[simp] theorem State.setStore_splice (s : State) (x : StoreState) : (s.setStore x).splice = s.splice := rfl
@[simp] theorem State.setStore_drive (s : State) (x : StoreState) : (s.setStore x).drive = s.drive := rfl
@[simp] theorem State.setStore_alarms (s : State) (x : StoreState) : (s.setStore x).alarms = s.alarms := rfl
@[simp] theorem State.setStore_link (s : State) (x : StoreState) : (s.setStore x).link = s.link := rfl
@[simp] theorem State.setStore_live (s : State) (x : StoreState) : (s.setStore x).live = s.live := rfl
@[simp] theorem State.setStore_mem (s : State) (x : StoreState) : (s.setStore x).mem = s.mem := rfl
@[simp] theorem State.setStore_ev (s : State) (x : StoreState) : (s.setStore x).ev = s.ev := rfl
@[simp] theorem State.setStore_pending (s : State) (x : StoreState) : (s.setStore x).pending = s.pending := rfl

@[simp] theorem State.setEm_powered (s : State) (x : EmissionState) : (s.setEm x).powered = s.powered := rfl
@[simp] theorem State.setEm_starts (s : State) (x : EmissionState) : (s.setEm x).starts = s.starts := rfl
@[simp] theorem State.setEm_clock (s : State) (x : EmissionState) : (s.setEm x).clock = s.clock := rfl
@[simp] theorem State.setEm_feed (s : State) (x : EmissionState) : (s.setEm x).feed = s.feed := rfl
@[simp] theorem State.setEm_store (s : State) (x : EmissionState) : (s.setEm x).store = s.store := rfl
@[simp] theorem State.setEm_em (s : State) (x : EmissionState) : (s.setEm x).em = x := rfl
@[simp] theorem State.setEm_clips (s : State) (x : EmissionState) : (s.setEm x).clips = s.clips := rfl
@[simp] theorem State.setEm_splice (s : State) (x : EmissionState) : (s.setEm x).splice = s.splice := rfl
@[simp] theorem State.setEm_drive (s : State) (x : EmissionState) : (s.setEm x).drive = s.drive := rfl
@[simp] theorem State.setEm_alarms (s : State) (x : EmissionState) : (s.setEm x).alarms = s.alarms := rfl
@[simp] theorem State.setEm_link (s : State) (x : EmissionState) : (s.setEm x).link = s.link := rfl
@[simp] theorem State.setEm_live (s : State) (x : EmissionState) : (s.setEm x).live = s.live := rfl
@[simp] theorem State.setEm_mem (s : State) (x : EmissionState) : (s.setEm x).mem = s.mem := rfl
@[simp] theorem State.setEm_ev (s : State) (x : EmissionState) : (s.setEm x).ev = s.ev := rfl
@[simp] theorem State.setEm_pending (s : State) (x : EmissionState) : (s.setEm x).pending = s.pending := rfl

@[simp] theorem State.setClips_powered (s : State) (x : ClipState) : (s.setClips x).powered = s.powered := rfl
@[simp] theorem State.setClips_starts (s : State) (x : ClipState) : (s.setClips x).starts = s.starts := rfl
@[simp] theorem State.setClips_clock (s : State) (x : ClipState) : (s.setClips x).clock = s.clock := rfl
@[simp] theorem State.setClips_feed (s : State) (x : ClipState) : (s.setClips x).feed = s.feed := rfl
@[simp] theorem State.setClips_store (s : State) (x : ClipState) : (s.setClips x).store = s.store := rfl
@[simp] theorem State.setClips_em (s : State) (x : ClipState) : (s.setClips x).em = s.em := rfl
@[simp] theorem State.setClips_clips (s : State) (x : ClipState) : (s.setClips x).clips = x := rfl
@[simp] theorem State.setClips_splice (s : State) (x : ClipState) : (s.setClips x).splice = s.splice := rfl
@[simp] theorem State.setClips_drive (s : State) (x : ClipState) : (s.setClips x).drive = s.drive := rfl
@[simp] theorem State.setClips_alarms (s : State) (x : ClipState) : (s.setClips x).alarms = s.alarms := rfl
@[simp] theorem State.setClips_link (s : State) (x : ClipState) : (s.setClips x).link = s.link := rfl
@[simp] theorem State.setClips_live (s : State) (x : ClipState) : (s.setClips x).live = s.live := rfl
@[simp] theorem State.setClips_mem (s : State) (x : ClipState) : (s.setClips x).mem = s.mem := rfl
@[simp] theorem State.setClips_ev (s : State) (x : ClipState) : (s.setClips x).ev = s.ev := rfl
@[simp] theorem State.setClips_pending (s : State) (x : ClipState) : (s.setClips x).pending = s.pending := rfl

@[simp] theorem State.setSplice_powered (s : State) (x : SpliceState) : (s.setSplice x).powered = s.powered := rfl
@[simp] theorem State.setSplice_starts (s : State) (x : SpliceState) : (s.setSplice x).starts = s.starts := rfl
@[simp] theorem State.setSplice_clock (s : State) (x : SpliceState) : (s.setSplice x).clock = s.clock := rfl
@[simp] theorem State.setSplice_feed (s : State) (x : SpliceState) : (s.setSplice x).feed = s.feed := rfl
@[simp] theorem State.setSplice_store (s : State) (x : SpliceState) : (s.setSplice x).store = s.store := rfl
@[simp] theorem State.setSplice_em (s : State) (x : SpliceState) : (s.setSplice x).em = s.em := rfl
@[simp] theorem State.setSplice_clips (s : State) (x : SpliceState) : (s.setSplice x).clips = s.clips := rfl
@[simp] theorem State.setSplice_splice (s : State) (x : SpliceState) : (s.setSplice x).splice = x := rfl
@[simp] theorem State.setSplice_drive (s : State) (x : SpliceState) : (s.setSplice x).drive = s.drive := rfl
@[simp] theorem State.setSplice_alarms (s : State) (x : SpliceState) : (s.setSplice x).alarms = s.alarms := rfl
@[simp] theorem State.setSplice_link (s : State) (x : SpliceState) : (s.setSplice x).link = s.link := rfl
@[simp] theorem State.setSplice_live (s : State) (x : SpliceState) : (s.setSplice x).live = s.live := rfl
@[simp] theorem State.setSplice_mem (s : State) (x : SpliceState) : (s.setSplice x).mem = s.mem := rfl
@[simp] theorem State.setSplice_ev (s : State) (x : SpliceState) : (s.setSplice x).ev = s.ev := rfl
@[simp] theorem State.setSplice_pending (s : State) (x : SpliceState) : (s.setSplice x).pending = s.pending := rfl

@[simp] theorem State.setDrive_powered (s : State) (x : DriveState) : (s.setDrive x).powered = s.powered := rfl
@[simp] theorem State.setDrive_starts (s : State) (x : DriveState) : (s.setDrive x).starts = s.starts := rfl
@[simp] theorem State.setDrive_clock (s : State) (x : DriveState) : (s.setDrive x).clock = s.clock := rfl
@[simp] theorem State.setDrive_feed (s : State) (x : DriveState) : (s.setDrive x).feed = s.feed := rfl
@[simp] theorem State.setDrive_store (s : State) (x : DriveState) : (s.setDrive x).store = s.store := rfl
@[simp] theorem State.setDrive_em (s : State) (x : DriveState) : (s.setDrive x).em = s.em := rfl
@[simp] theorem State.setDrive_clips (s : State) (x : DriveState) : (s.setDrive x).clips = s.clips := rfl
@[simp] theorem State.setDrive_splice (s : State) (x : DriveState) : (s.setDrive x).splice = s.splice := rfl
@[simp] theorem State.setDrive_drive (s : State) (x : DriveState) : (s.setDrive x).drive = x := rfl
@[simp] theorem State.setDrive_alarms (s : State) (x : DriveState) : (s.setDrive x).alarms = s.alarms := rfl
@[simp] theorem State.setDrive_link (s : State) (x : DriveState) : (s.setDrive x).link = s.link := rfl
@[simp] theorem State.setDrive_live (s : State) (x : DriveState) : (s.setDrive x).live = s.live := rfl
@[simp] theorem State.setDrive_mem (s : State) (x : DriveState) : (s.setDrive x).mem = s.mem := rfl
@[simp] theorem State.setDrive_ev (s : State) (x : DriveState) : (s.setDrive x).ev = s.ev := rfl
@[simp] theorem State.setDrive_pending (s : State) (x : DriveState) : (s.setDrive x).pending = s.pending := rfl

@[simp] theorem State.setAlarms_powered (s : State) (x : AlarmState) : (s.setAlarms x).powered = s.powered := rfl
@[simp] theorem State.setAlarms_starts (s : State) (x : AlarmState) : (s.setAlarms x).starts = s.starts := rfl
@[simp] theorem State.setAlarms_clock (s : State) (x : AlarmState) : (s.setAlarms x).clock = s.clock := rfl
@[simp] theorem State.setAlarms_feed (s : State) (x : AlarmState) : (s.setAlarms x).feed = s.feed := rfl
@[simp] theorem State.setAlarms_store (s : State) (x : AlarmState) : (s.setAlarms x).store = s.store := rfl
@[simp] theorem State.setAlarms_em (s : State) (x : AlarmState) : (s.setAlarms x).em = s.em := rfl
@[simp] theorem State.setAlarms_clips (s : State) (x : AlarmState) : (s.setAlarms x).clips = s.clips := rfl
@[simp] theorem State.setAlarms_splice (s : State) (x : AlarmState) : (s.setAlarms x).splice = s.splice := rfl
@[simp] theorem State.setAlarms_drive (s : State) (x : AlarmState) : (s.setAlarms x).drive = s.drive := rfl
@[simp] theorem State.setAlarms_alarms (s : State) (x : AlarmState) : (s.setAlarms x).alarms = x := rfl
@[simp] theorem State.setAlarms_link (s : State) (x : AlarmState) : (s.setAlarms x).link = s.link := rfl
@[simp] theorem State.setAlarms_live (s : State) (x : AlarmState) : (s.setAlarms x).live = s.live := rfl
@[simp] theorem State.setAlarms_mem (s : State) (x : AlarmState) : (s.setAlarms x).mem = s.mem := rfl
@[simp] theorem State.setAlarms_ev (s : State) (x : AlarmState) : (s.setAlarms x).ev = s.ev := rfl
@[simp] theorem State.setAlarms_pending (s : State) (x : AlarmState) : (s.setAlarms x).pending = s.pending := rfl

@[simp] theorem State.setLink_powered (s : State) (x : LinkState) : (s.setLink x).powered = s.powered := rfl
@[simp] theorem State.setLink_starts (s : State) (x : LinkState) : (s.setLink x).starts = s.starts := rfl
@[simp] theorem State.setLink_clock (s : State) (x : LinkState) : (s.setLink x).clock = s.clock := rfl
@[simp] theorem State.setLink_feed (s : State) (x : LinkState) : (s.setLink x).feed = s.feed := rfl
@[simp] theorem State.setLink_store (s : State) (x : LinkState) : (s.setLink x).store = s.store := rfl
@[simp] theorem State.setLink_em (s : State) (x : LinkState) : (s.setLink x).em = s.em := rfl
@[simp] theorem State.setLink_clips (s : State) (x : LinkState) : (s.setLink x).clips = s.clips := rfl
@[simp] theorem State.setLink_splice (s : State) (x : LinkState) : (s.setLink x).splice = s.splice := rfl
@[simp] theorem State.setLink_drive (s : State) (x : LinkState) : (s.setLink x).drive = s.drive := rfl
@[simp] theorem State.setLink_alarms (s : State) (x : LinkState) : (s.setLink x).alarms = s.alarms := rfl
@[simp] theorem State.setLink_link (s : State) (x : LinkState) : (s.setLink x).link = x := rfl
@[simp] theorem State.setLink_live (s : State) (x : LinkState) : (s.setLink x).live = s.live := rfl
@[simp] theorem State.setLink_mem (s : State) (x : LinkState) : (s.setLink x).mem = s.mem := rfl
@[simp] theorem State.setLink_ev (s : State) (x : LinkState) : (s.setLink x).ev = s.ev := rfl
@[simp] theorem State.setLink_pending (s : State) (x : LinkState) : (s.setLink x).pending = s.pending := rfl

@[simp] theorem State.setLive_powered (s : State) (x : Params) : (s.setLive x).powered = s.powered := rfl
@[simp] theorem State.setLive_starts (s : State) (x : Params) : (s.setLive x).starts = s.starts := rfl
@[simp] theorem State.setLive_clock (s : State) (x : Params) : (s.setLive x).clock = s.clock := rfl
@[simp] theorem State.setLive_feed (s : State) (x : Params) : (s.setLive x).feed = s.feed := rfl
@[simp] theorem State.setLive_store (s : State) (x : Params) : (s.setLive x).store = s.store := rfl
@[simp] theorem State.setLive_em (s : State) (x : Params) : (s.setLive x).em = s.em := rfl
@[simp] theorem State.setLive_clips (s : State) (x : Params) : (s.setLive x).clips = s.clips := rfl
@[simp] theorem State.setLive_splice (s : State) (x : Params) : (s.setLive x).splice = s.splice := rfl
@[simp] theorem State.setLive_drive (s : State) (x : Params) : (s.setLive x).drive = s.drive := rfl
@[simp] theorem State.setLive_alarms (s : State) (x : Params) : (s.setLive x).alarms = s.alarms := rfl
@[simp] theorem State.setLive_link (s : State) (x : Params) : (s.setLive x).link = s.link := rfl
@[simp] theorem State.setLive_live (s : State) (x : Params) : (s.setLive x).live = x := rfl
@[simp] theorem State.setLive_mem (s : State) (x : Params) : (s.setLive x).mem = s.mem := rfl
@[simp] theorem State.setLive_ev (s : State) (x : Params) : (s.setLive x).ev = s.ev := rfl
@[simp] theorem State.setLive_pending (s : State) (x : Params) : (s.setLive x).pending = s.pending := rfl

@[simp] theorem State.setMem_powered (s : State) (x : Memory) : (s.setMem x).powered = s.powered := rfl
@[simp] theorem State.setMem_starts (s : State) (x : Memory) : (s.setMem x).starts = s.starts := rfl
@[simp] theorem State.setMem_clock (s : State) (x : Memory) : (s.setMem x).clock = s.clock := rfl
@[simp] theorem State.setMem_feed (s : State) (x : Memory) : (s.setMem x).feed = s.feed := rfl
@[simp] theorem State.setMem_store (s : State) (x : Memory) : (s.setMem x).store = s.store := rfl
@[simp] theorem State.setMem_em (s : State) (x : Memory) : (s.setMem x).em = s.em := rfl
@[simp] theorem State.setMem_clips (s : State) (x : Memory) : (s.setMem x).clips = s.clips := rfl
@[simp] theorem State.setMem_splice (s : State) (x : Memory) : (s.setMem x).splice = s.splice := rfl
@[simp] theorem State.setMem_drive (s : State) (x : Memory) : (s.setMem x).drive = s.drive := rfl
@[simp] theorem State.setMem_alarms (s : State) (x : Memory) : (s.setMem x).alarms = s.alarms := rfl
@[simp] theorem State.setMem_link (s : State) (x : Memory) : (s.setMem x).link = s.link := rfl
@[simp] theorem State.setMem_live (s : State) (x : Memory) : (s.setMem x).live = s.live := rfl
@[simp] theorem State.setMem_mem (s : State) (x : Memory) : (s.setMem x).mem = x := rfl
@[simp] theorem State.setMem_ev (s : State) (x : Memory) : (s.setMem x).ev = s.ev := rfl
@[simp] theorem State.setMem_pending (s : State) (x : Memory) : (s.setMem x).pending = s.pending := rfl

@[simp] theorem State.setEv_powered (s : State) (x : Report) : (s.setEv x).powered = s.powered := rfl
@[simp] theorem State.setEv_starts (s : State) (x : Report) : (s.setEv x).starts = s.starts := rfl
@[simp] theorem State.setEv_clock (s : State) (x : Report) : (s.setEv x).clock = s.clock := rfl
@[simp] theorem State.setEv_feed (s : State) (x : Report) : (s.setEv x).feed = s.feed := rfl
@[simp] theorem State.setEv_store (s : State) (x : Report) : (s.setEv x).store = s.store := rfl
@[simp] theorem State.setEv_em (s : State) (x : Report) : (s.setEv x).em = s.em := rfl
@[simp] theorem State.setEv_clips (s : State) (x : Report) : (s.setEv x).clips = s.clips := rfl
@[simp] theorem State.setEv_splice (s : State) (x : Report) : (s.setEv x).splice = s.splice := rfl
@[simp] theorem State.setEv_drive (s : State) (x : Report) : (s.setEv x).drive = s.drive := rfl
@[simp] theorem State.setEv_alarms (s : State) (x : Report) : (s.setEv x).alarms = s.alarms := rfl
@[simp] theorem State.setEv_link (s : State) (x : Report) : (s.setEv x).link = s.link := rfl
@[simp] theorem State.setEv_live (s : State) (x : Report) : (s.setEv x).live = s.live := rfl
@[simp] theorem State.setEv_mem (s : State) (x : Report) : (s.setEv x).mem = s.mem := rfl
@[simp] theorem State.setEv_ev (s : State) (x : Report) : (s.setEv x).ev = x := rfl
@[simp] theorem State.setEv_pending (s : State) (x : Report) : (s.setEv x).pending = s.pending := rfl

end Sys2Proof.Machine
end

