-- ==== Sys2Proof/Safety.lean ====
section
/-! DEFINITION. What a safe run keeps, in the terms that statements use: the invariants of the part, and how a statement names a
command that is taken, a reply that is formed and the notices that are queued. -/

namespace Sys2Proof.Machine
open Sys2Proof

/-! ## Commands and replies -/

/-- The part has power. -/
def Powered (s : State) : Prop := s.powered = true

/-- The part has power and a request would be dispatched at once: the reply buffer is empty, no request waits, no restart is pending, and
no line rate is due (R171, R177, R168). -/
def Ready (s : State) : Prop := s.powered = true ∧ linkFree s = true

/-- The reply buffer holds a reply with the request's kind (its most significant bit set), its tag, this result and, after the four
bytes of the status summary, this owner's body (R172, R185). -/
def Replied (t : State) (kind tag : Byte) (result : Result) (body : List Byte) : Prop :=
  ∃ summary, summary.length = 4 ∧
    t.link.reply = some (linkFrame (kind ||| 0x80) tag (be 1 (resultCode result) ++ summary ++ body))

/-- The items reported are latched, and every other item keeps its latch and its count (R157). -/
def AlarmsTook (reported : List Nat) (s t : State) : Prop :=
  ∀ i, 1 ≤ i → i ≤ 36 →
    (i ∈ reported → (alarmRec t i).latched = true) ∧
    (i ∉ reported → (alarmRec t i).latched = (alarmRec s i).latched ∧ (alarmRec t i).count = (alarmRec s i).count)

/-- What a command leaves whose effect brought the part to `s` and reported these alarm items: permission is judged (R139), the
items latch (R157), notices may be queued and the lines are judged (R162 to R166), and the transmitter may take its next frame
(R174). Nothing else differs from `s`. -/
def AfterEvent (reported : List Nat) (s t : State) : Prop :=
  t = { s with drive := (judgePermission s).drive, alarms := t.alarms, link := t.link, ev := {} } ∧
  AlarmsTook reported s t ∧
  t.link = { s.link with tx := t.link.tx, lastSent := t.link.lastSent }

/-- The same after a request that was answered: its reply is in the reply buffer, and the two flags that replies report are clear
(R164, R170, R171). -/
def AfterRequest (reported : List Nat) (s t : State) : Prop :=
  t = { s with drive := (judgePermission s).drive, alarms := t.alarms, link := t.link, ev := {} } ∧
  AlarmsTook reported s t ∧
  t.link =
    { s.link with reply := t.link.reply, tx := t.link.tx, lastSent := t.link.lastSent, protocolError := false }

/-! ## Notices -/

/-- The notices of one kind, numbered from 0 in the order of section 8.5, that a command queues for the bodies its occasions give, in
order: where the kind is enabled each takes the kind's code and joins the tail while the queue holds fewer than 16, and where it is not
none is formed (R163). So that they are seen apart, no other kind is enabled and the transmitter is taken. -/
def Noticed (kind : Nat) (bodies : List (List Byte)) (s t : State) : Prop :=
  s.link.tx.isSome = true → (∀ other, other ≠ kind → noticeEnabled s other = false) →
    t.alarms.notices = s.alarms.notices ++
      (if noticeEnabled s kind then
        (bodies.take (16 - s.alarms.notices.length)).map (fun body => ⟨BitVec.ofNat 8 (0xF0 + kind), body⟩)
      else [])

/-- What a command leaves at the Alarm Unit that reports one occurrence, of this item (R157): a clear latch is set with the next epoch as
its set-epoch and a count of 1, and queues an ALARM notice (0xF0, kind 0) of the item and the set-epoch where its report enable allows;
a set latch counts. -/
def Occurred (item : Nat) (s t : State) : Prop :=
  let r := alarmRec s item
  let epoch := s.alarms.epoch + 1
  t.alarms.epoch = (if r.latched then s.alarms.epoch else epoch) ∧
  alarmRec t item = (if r.latched then { r with count := min 65535 (r.count + 1) } else ⟨true, epoch, 1⟩) ∧
  Noticed 0 (if r.latched = false ∧ reportEnabled s item = true then [be 1 item ++ be 4 epoch.toNat] else []) s t

/-- The mute-reason set in one byte: FEED bit 0, TIME bit 1, NETWORK bit 2, HOST bit 3 (R91, 10.5). -/
def muteByte (m : MuteSet) : Byte :=
  BitVec.ofNat 8 ((if m.feed then 1 else 0) + (if m.time then 2 else 0) + (if m.network then 4 else 0) + (if m.host then 8 else 0))

/-- The body of an EMISSION notice (R90, 10.5): the emission state and the mute-reason set after the event, the occasion, and the anchor
sequence, or 0. -/
def emissionBody (t : State) (occasion : Byte) : List Byte :=
  be 1 (emissionCode t.em.mode) ++ [muteByte t.em.mute, occasion] ++ be 2 (match t.em.anchor with | some a => a.seq.toNat | none => 0)

/-- The body of a SPLICE notice (R130, 10.5): channel, avail id, service, occasion, reason, read index, last started sequence. -/
def spliceBody (n : SpliceNote) : List Byte :=
  be 1 n.channel.num ++ be 2 n.avail ++ be 2 n.service ++ be 1 n.occasion ++ be 1 n.reason ++ be 4 n.read ++ be 2 n.seq.toNat

/-- The body of a DRIVE notice (R152, 10.5): the drive state after the event, level, ceiling, retry counter, healthy modules (bit n − 1
for module n), and the occasion. -/
def driveBody (t : State) (occasion : Byte) : List Byte :=
  let bit (n : Four) (value : Nat) : Nat :=
    if n.num ≤ t.live.drive.installed ∧ (t.drive.modules.get n).latchedOff = false then value else 0
  be 1 (driveCode t.drive.mode) ++ be 2 t.drive.level ++ be 2 t.drive.ceiling ++ be 1 t.drive.retries ++
    be 1 (bit .n1 1 + bit .n2 2 + bit .n3 4 + bit .n4 8 : Nat) ++ [occasion]

/-! ## Verdicts -/

/-- The port state and the degrade and recover counts after a verdict that has brought the average to `a` (R38's table). -/
def healthAfter (q : FeedParams) (mode : PortMode) (a degrade recover : Nat) : PortMode × Nat × Nat :=
  match mode with
  | .good =>
    let d := if q.impair ≤ a then min 15 (degrade + 1) else 0
    if q.enter ≤ d then (.impaired, 0, 0) else (.good, d, 0)
  | .impaired =>
    let d := if q.fail ≤ a then min 15 (degrade + 1) else 0
    let r := if a + q.hysteresis < q.impair then min 15 (recover + 1) else 0
    if q.enter ≤ d then (.failed, 0, 0) else if q.exit ≤ r then (.good, 0, 0) else (.impaired, d, r)
  | .failed =>
    let r := if a + q.hysteresis < q.fail then min 15 (recover + 1) else 0
    if q.exit ≤ r then (.impaired, 0, 0) else (.failed, 0, r)
  | m => (m, degrade, recover)

/-- A port record after a verdict other than SILENCE with this sample: the average moves toward the sample by the health shift, rounded
down (R37), the health is judged (R38), and the silence deadline lies two periods ahead (R39). -/
def scoredPort (s : State) (x : PortRec) (sample : Int) : PortRec :=
  let a := (x.average + (sample - x.average) / (2 : Int) ^ s.live.feed.healthShift).toNat
  let h := healthAfter s.live.feed x.mode a x.degrade x.recover
  { x with average := a, mode := h.1, degrade := h.2.1, recover := h.2.2, deadline := some (s.clock.time + 2 * s.live.em.period) }

/-- The items that such a change of health reports: FEED x IMPAIRED (8, 9) and FEED x FAILED (10, 11) at each entry (R42). -/
def healthItems (p : PortId) (before after : PortMode) : List Nat :=
  if before = after then []
  else match after with
    | .impaired => [7 + p.num]
    | .failed => [9 + p.num]
    | _ => []

/-- Every byte of attached memory outside a block reads as before. -/
def MemoryKeptOutside (s t : State) (start count : Nat) : Prop :=
  ∀ a, a < start ∨ start + count ≤ a → Memory.read t.mem a = Memory.read s.mem a

/-! ## Invariants -/

/-- Attached memory keeps its canonical form. -/
def MemoryOk (s : State) : Prop := Memory.wf s.mem = true

/-- Site time is an unsigned 64-bit number (01, section 1.1). -/
def TimeOk (s : State) : Prop := 0 ≤ s.clock.time ∧ s.clock.time < 18446744073709551616

/-- The table of clock states (01, section 1.5) and the values of u (R18): a governing input is present exactly in ACQUIRING and
LOCKED, u is 0 in LOCKED, and maximal in FREE and ACQUIRING. -/
def ClockOk (s : State) : Prop :=
  ((s.clock.mode = .acquiring ∨ s.clock.mode = .locked) ↔ s.clock.governing.isSome = true) ∧
  (s.clock.mode = .locked → s.clock.u = 0) ∧
  (s.clock.mode = .free ∨ s.clock.mode = .acquiring → s.clock.u = maxUncertainty)

/-- The drive level by drive state (07, section 7.3; R138, R139, R140). -/
def LevelOk (s : State) : Prop :=
  s.drive.line = s.drive.level ∧ s.drive.level ≤ s.drive.ceiling ∧
  (s.drive.mode = .standby ∨ s.drive.mode = .retryWait ∨ s.drive.mode = .tripped → s.drive.level = 0) ∧
  (s.drive.mode = .steady → s.drive.level = s.drive.ceiling) ∧
  (s.drive.mode = .ramping → s.drive.level < s.drive.ceiling)

/-- The drive is safe: the level fits the drive state and the ceiling, and it is 0 whenever the drive is not permitted (R139). -/
def DriveOk (s : State) : Prop := LevelOk s ∧ (permitted s = false → s.drive.level = 0)

/-- The alert line and every alarm-line pin are as the latches, the report enables and the sources give them (R162, R165, R166). -/
def LinesOk (s : State) : Prop :=
  s.alarms.alert = alertOf s ∧ s.alarms.pins = s.live.alarm.lines.map (fun l => pinOf l (indication s (alertOf s) l))

/-- The set-epoch of a latched item never falls more than 2^31 − 1 behind the current epoch (R158). -/
def EpochsOk (s : State) : Prop :=
  ∀ r ∈ s.alarms.records, r.latched = true → (s.alarms.epoch - r.setEpoch).toNat < 0x80000000

/-- A service table and an avail-plan table that fit: at most 16 services, in strictly ascending order of number, and at most 32
plans (05, sections 5.1 and 5.5). -/
def TablesOk (services : List Service) (plans : List Plan) : Prop :=
  services.length ≤ 16 ∧ services.Pairwise (fun v w => v.number < w.number) ∧ plans.length ≤ 32

/-- Stored tables that fit. -/
def ContentsOk (c : Contents) : Prop := TablesOk c.services c.plans

/-- Every queue and table within its size: requests 4 (R171), notices 16 (R163), cues 16 (06, section 6.1), services 16 and plans 32
(05), the stored ones too; 64 slots, 32 clip records, 36 alarm records. -/
def SizesOk (s : State) : Prop :=
  s.link.queue.length ≤ 4 ∧ s.alarms.notices.length ≤ 16 ∧ s.splice.cues.length ≤ 16 ∧
  TablesOk s.splice.services s.splice.plans ∧ s.store.slots.length = 64 ∧ s.clips.clips.length = 32 ∧ s.alarms.records.length = 36 ∧
  ContentsOk s.link.held ∧ (∀ c ∈ s.link.stored, ContentsOk c) ∧ (∀ c ∈ s.link.busy, ContentsOk c)

/-- The extent of clip n lies within the clip region, and no extent overlaps it (R96). -/
def ExtentsOk (s : State) : Prop :=
  (∀ n, (clipRec s n).mode ≠ .empty → (clipRec s n).base + (clipRec s n).length ≤ Config.clipPositions) ∧
  (∀ m n, m ≠ n → (clipRec s m).mode ≠ .empty → (clipRec s n).mode ≠ .empty →
    (clipRec s m).base + (clipRec s m).length ≤ (clipRec s n).base ∨
    (clipRec s n).base + (clipRec s n).length ≤ (clipRec s m).base)

/-- The verification queue holds VERIFYING clips, each once (05, section 5.3). -/
def VerifyingOk (s : State) : Prop := s.clips.queue.Nodup ∧ ∀ n ∈ s.clips.queue, (clipRec s n).mode = .verifying

/-- Clips: 32 records, extents apart and inside the region, and a proper verification queue. -/
def ClipsOk (s : State) : Prop := s.clips.clips.length = 32 ∧ ExtentsOk s ∧ VerifyingOk s

/-- The channels ARMED or ACTIVE with clip n. -/
def channelsWith (s : State) (n : Nat) : List Four :=
  Four.all.filter (fun i => (s.splice.channels.get i).any (fun c => c.clip == n))

/-- A clip's use count equals the number of channels that are ARMED or ACTIVE with it, and a clip in use is READY (R104). -/
def UseOk (s : State) : Prop :=
  ∀ n, (clipRec s n).uses = (channelsWith s n).length ∧ (0 < (clipRec s n).uses → (clipRec s n).mode = .ready)

/-- The sequence of a slot that is HELD or TAKEN. -/
def slotSeq : Slot → Option Seq
  | .free => none
  | .held h => some h.seq
  | .taken seq _ => some seq

/-- A HELD or TAKEN slot's sequence number, taken modulo 64, is the slot's index (R45). -/
def SlotsOk (s : State) : Prop := ∀ i x seq, s.store.slots[i]? = some x → slotSeq x = some seq → slotIndex seq = i

/-- An entry's bound channel: the channel that is ARMED or ACTIVE with its avail; none in WAITING and UNFILLED (06, section 6.1). -/
def EntryOk (s : State) (e : CueEntry) : Prop :=
  match e.channel with
  | none => e.mode = .waiting ∨ e.mode = .unfilled
  | some n => (e.mode = .armed ∨ e.mode = .active) ∧
      ∃ c, s.splice.channels.get n = some c ∧ c.avail = e.avail ∧ c.service = e.service

/-- The cue table and the channels fit together: at most one entry for each avail id (R110), each bound entry with its channel and
each bound channel with its entry, and at most one bound channel for each service (R118). -/
def CuesOk (s : State) : Prop :=
  (s.splice.cues.map CueEntry.avail).Nodup ∧ (∀ e ∈ s.splice.cues, EntryOk s e) ∧
  (∀ n c, s.splice.channels.get n = some c → ∃ e ∈ s.splice.cues, e.avail = c.avail ∧ e.channel = some n) ∧
  (∀ m n c d, s.splice.channels.get m = some c → s.splice.channels.get n = some d → c.service = d.service → m = n)

end Sys2Proof.Machine
end

