-- ==== Sys2Proof/Laws/Event.lean ====
section
/-! SUPPORT. What the end of a command, the forming of a reply and the transmitter can do: each field of the state after them. -/

namespace Sys2Proof.Machine
open Sys2Proof

/-! ## Operations that touch the Alarm Unit alone -/

theorem offerNotice_only (kind : Nat) (body : List Byte) (s : State) : ∃ a, offerNotice kind body s = s.setAlarms a := by
  unfold offerNotice
  split
  · split
    · exact ⟨_, rfl⟩
    · exact ⟨_, rfl⟩
  · exact ⟨s.alarms, rfl⟩

theorem setLatch_only (item : Nat) (s : State) : ∃ a, setLatch item s = s.setAlarms a := by
  unfold setLatch
  dsimp only
  split
  · obtain ⟨a, ha⟩ := offerNotice_only 0 (be 1 item ++ be 4 (s.alarms.epoch + 1).toNat)
      (s.setAlarms { s.alarms with
        epoch := s.alarms.epoch + 1
        records := (s.alarms.records.map (ageRecord (s.alarms.epoch + 1))).set (item - 1)
          { latched := true, setEpoch := s.alarms.epoch + 1, count := 1 } })
    exact ⟨a, by rw [ha]; rfl⟩
  · exact ⟨_, rfl⟩

theorem latchItem_only (s : State) (item : Nat) : ∃ a, latchItem s item = s.setAlarms a := by
  unfold latchItem
  dsimp only
  split
  · exact ⟨_, rfl⟩
  · exact setLatch_only item s

/-- A fold of operations that each touch the Alarm Unit alone touches it alone. -/
theorem fold_only {α : Type} (f : State → α → State) (h : ∀ s x, ∃ a, f s x = s.setAlarms a) (xs : List α) (s : State) :
    ∃ a, xs.foldl f s = s.setAlarms a := by
  induction xs generalizing s with
  | nil => exact ⟨s.alarms, rfl⟩
  | cons x xs ih =>
    obtain ⟨a, ha⟩ := h s x
    obtain ⟨b, hb⟩ := ih (f s x)
    exact ⟨b, by rw [List.foldl_cons, hb, ha]; rfl⟩

theorem latchAll_only (s : State) : ∃ a, latchAll s = s.setAlarms a := fold_only _ latchItem_only _ s

theorem queueNotices_only (s : State) : ∃ a, queueNotices s = s.setAlarms a :=
  fold_only (fun s (n : Nat × List Byte) => offerNotice n.1 n.2 s) (fun s n => offerNotice_only n.1 n.2 s) _ s

/-! ## Permission -/

theorem enterSilent_only (m : DriveMode) (o : Nat) (s : State) : ∃ d e, enterSilent m o s = (s.setDrive d).setEv e := ⟨_, _, rfl⟩

theorem enterSteady_only (o : Nat) (s : State) : ∃ d e, enterSteady o s = (s.setDrive d).setEv e := ⟨_, _, rfl⟩

theorem enterRamping_only (o : Nat) (s : State) : ∃ d e, enterRamping o s = (s.setDrive d).setEv e := by
  unfold enterRamping steadyAtCeiling
  dsimp only
  split <;> split <;> exact ⟨_, _, rfl⟩

theorem judgePermission_only (s : State) : ∃ d e, judgePermission s = (s.setDrive d).setEv e := by
  unfold judgePermission
  split <;> try split
  all_goals first
    | exact enterRamping_only _ _
    | exact enterSilent_only _ _ _
    | exact ⟨s.drive, s.ev, rfl⟩

/-- Permission that has been judged has nothing more to change: the drive is fixed, whatever the rest of the state, as long as the
Emission Scheduler is the same. -/
theorem judgePermission_settled {s t : State} (hd : t.drive = (judgePermission s).drive) (he : t.em = s.em) :
    (judgePermission t).drive = t.drive := by
  have key : ∀ m, (judgePermission s).drive.mode = m →
      (m = .standby → permitted t = false) ∧ (m = .ramping ∨ m = .steady → permitted t = true) := by
    intro m hm
    have hmt : t.drive.mode = m := by rw [hd, hm]
    have hp : ∀ d : DriveState, t.drive = d →
        (permitted t = (permission s && (d.rfEnabled && (d.supply == .inside && (!(d.reflLatch || d.shutLatch) &&
          d.mode != .retryWait))))) := by
      intro d h
      simp [permitted, driveConditions, permission, he, h]
    have hps : permitted s = (permission s && (s.drive.rfEnabled && (s.drive.supply == .inside &&
        (!(s.drive.reflLatch || s.drive.shutLatch) && s.drive.mode != .retryWait)))) := by
      simp [permitted, driveConditions]
    rw [hp _ hd]
    subst hm
    revert hps
    unfold judgePermission
    split <;> rename_i hmode
    · split
      · rename_i h
        intro hps
        unfold enterRamping steadyAtCeiling
        dsimp only
        rw [hps, hmode] at h
        split <;> split <;>
          simp_all [noteDrive, setLevel, enterSteady]
      · rename_i h
        intro hps
        rw [hps, hmode] at h
        simp_all
    · split
      · rename_i h
        intro hps
        rw [hps, hmode] at h
        simp_all
      · rename_i h
        intro hps
        rw [hps, hmode] at h
        simp_all [enterSilent, noteDrive, setLevel]
    · split
      · rename_i h
        intro hps
        rw [hps, hmode] at h
        simp_all
      · rename_i h
        intro hps
        rw [hps, hmode] at h
        simp_all [enterSilent, noteDrive, setLevel]
    · rename_i h1 h2 h3
      intro hps
      simp_all
  have := key _ rfl
  rw [← hd] at this
  unfold judgePermission
  split <;> rename_i hm
  · simp [this.1 hm]
  · simp [this.2 (.inl hm)]
  · simp [this.2 (.inr hm)]
  · rfl

/-! ## The end of a command -/

/-- The end of a command touches the drive, as permission leaves it, the Alarm Unit and the report. -/
theorem closeEvent_eq (s : State) :
    closeEvent s = { s with drive := (judgePermission s).drive, alarms := (closeEvent s).alarms, ev := {} } := by
  obtain ⟨d, e, hp⟩ := judgePermission_only s
  obtain ⟨a, ha⟩ := latchAll_only (judgePermission s)
  obtain ⟨b, hb⟩ := queueNotices_only (latchAll (judgePermission s))
  unfold closeEvent judgeLines
  rw [hb, ha, hp]
  rfl

/-- The transmitter touches the notice queue, the frame being sent and the kind of the last frame. -/
theorem transmit_eq (s : State) :
    transmit s =
      { s with
        alarms := { s.alarms with notices := (transmit s).alarms.notices }
        link := { s.link with tx := (transmit s).link.tx, lastSent := (transmit s).link.lastSent } } := by
  unfold transmit
  split
  · rfl
  · split
    · rfl
    · rfl
    · rfl
    · split <;> rfl

section
variable (s : State)

@[simp] theorem closeEvent_powered : (closeEvent s).powered = s.powered := by rw [closeEvent_eq]
@[simp] theorem closeEvent_starts : (closeEvent s).starts = s.starts := by rw [closeEvent_eq]
@[simp] theorem closeEvent_clock : (closeEvent s).clock = s.clock := by rw [closeEvent_eq]
@[simp] theorem closeEvent_feed : (closeEvent s).feed = s.feed := by rw [closeEvent_eq]
@[simp] theorem closeEvent_store : (closeEvent s).store = s.store := by rw [closeEvent_eq]
@[simp] theorem closeEvent_em : (closeEvent s).em = s.em := by rw [closeEvent_eq]
@[simp] theorem closeEvent_clips : (closeEvent s).clips = s.clips := by rw [closeEvent_eq]
@[simp] theorem closeEvent_splice : (closeEvent s).splice = s.splice := by rw [closeEvent_eq]
@[simp] theorem closeEvent_drive : (closeEvent s).drive = (judgePermission s).drive := by rw [closeEvent_eq]
@[simp] theorem closeEvent_link : (closeEvent s).link = s.link := by rw [closeEvent_eq]
@[simp] theorem closeEvent_live : (closeEvent s).live = s.live := by rw [closeEvent_eq]
@[simp] theorem closeEvent_mem : (closeEvent s).mem = s.mem := by rw [closeEvent_eq]
@[simp] theorem closeEvent_ev : (closeEvent s).ev = {} := by rw [closeEvent_eq]
@[simp] theorem closeEvent_pending : (closeEvent s).pending = s.pending := by rw [closeEvent_eq]

@[simp] theorem transmit_powered : (transmit s).powered = s.powered := by rw [transmit_eq]
@[simp] theorem transmit_starts : (transmit s).starts = s.starts := by rw [transmit_eq]
@[simp] theorem transmit_clock : (transmit s).clock = s.clock := by rw [transmit_eq]
@[simp] theorem transmit_feed : (transmit s).feed = s.feed := by rw [transmit_eq]
@[simp] theorem transmit_store : (transmit s).store = s.store := by rw [transmit_eq]
@[simp] theorem transmit_em : (transmit s).em = s.em := by rw [transmit_eq]
@[simp] theorem transmit_clips : (transmit s).clips = s.clips := by rw [transmit_eq]
@[simp] theorem transmit_splice : (transmit s).splice = s.splice := by rw [transmit_eq]
@[simp] theorem transmit_drive : (transmit s).drive = s.drive := by rw [transmit_eq]
@[simp] theorem transmit_live : (transmit s).live = s.live := by rw [transmit_eq]
@[simp] theorem transmit_mem : (transmit s).mem = s.mem := by rw [transmit_eq]
@[simp] theorem transmit_ev : (transmit s).ev = s.ev := by rw [transmit_eq]
@[simp] theorem transmit_pending : (transmit s).pending = s.pending := by rw [transmit_eq]
@[simp] theorem transmit_records : (transmit s).alarms.records = s.alarms.records := by rw [transmit_eq]
@[simp] theorem transmit_epoch : (transmit s).alarms.epoch = s.alarms.epoch := by rw [transmit_eq]
@[simp] theorem transmit_alert : (transmit s).alarms.alert = s.alarms.alert := by rw [transmit_eq]
@[simp] theorem transmit_pins : (transmit s).alarms.pins = s.alarms.pins := by rw [transmit_eq]
@[simp] theorem transmit_lost : (transmit s).alarms.lost = s.alarms.lost := by rw [transmit_eq]
@[simp] theorem transmit_rx : (transmit s).link.rx = s.link.rx := by rw [transmit_eq]
@[simp] theorem transmit_rxLast : (transmit s).link.rxLast = s.link.rxLast := by rw [transmit_eq]
@[simp] theorem transmit_queue : (transmit s).link.queue = s.link.queue := by rw [transmit_eq]
@[simp] theorem transmit_reply : (transmit s).link.reply = s.link.reply := by rw [transmit_eq]
@[simp] theorem transmit_protocolError : (transmit s).link.protocolError = s.link.protocolError := by rw [transmit_eq]
@[simp] theorem transmit_startFlag : (transmit s).link.startFlag = s.link.startFlag := by rw [transmit_eq]
@[simp] theorem transmit_cause : (transmit s).link.cause = s.link.cause := by rw [transmit_eq]
@[simp] theorem transmit_source : (transmit s).link.source = s.link.source := by rw [transmit_eq]
@[simp] theorem transmit_held : (transmit s).link.held = s.link.held := by rw [transmit_eq]
@[simp] theorem transmit_stored : (transmit s).link.stored = s.link.stored := by rw [transmit_eq]
@[simp] theorem transmit_busy : (transmit s).link.busy = s.link.busy := by rw [transmit_eq]
@[simp] theorem transmit_restart : (transmit s).link.restart = s.link.restart := by rw [transmit_eq]
@[simp] theorem transmit_rate : (transmit s).link.rate = s.link.rate := by rw [transmit_eq]
@[simp] theorem transmit_rateNew : (transmit s).link.rateNew = s.link.rateNew := by rw [transmit_eq]
@[simp] theorem transmit_rateDue : (transmit s).link.rateDue = s.link.rateDue := by rw [transmit_eq]

end

/-- The transmitter never lengthens the notice queue. -/
theorem transmit_notices_le (s : State) : (transmit s).alarms.notices.length ≤ s.alarms.notices.length := by
  unfold transmit
  split
  · exact le_refl _
  · split
    · exact le_refl _
    · exact le_refl _
    · rename_i n rest _ h
      simp [sendNotice, h]
    · rename_i f n rest _ h
      split
      · simp [sendNotice, h]
      · exact le_refl _

/-! ## Events and requests -/

/-- What a command with power answers. -/
theorem event_next (f : State → State) {s : State} (h : s.powered = true) :
    event f s = .next (transmit (closeEvent (f (s.setEv {})))) := by
  simp [event, h]

/-- Without power a command leaves the state as it is. -/
theorem event_dead (f : State → State) {s : State} (h : s.powered = false) : event f s = .next s := by
  simp [event, h]

/-- A command with an effect always completes. -/
theorem event_completes (f : State → State) (s : State) : ∃ t, event f s = .next t := by
  unfold event
  split <;> exact ⟨_, rfl⟩

@[simp] theorem linkFree_setEv (s : State) (e : Report) : linkFree (s.setEv e) = linkFree s := rfl

/-- A request at a ready part is answered at once. -/
theorem request_ready {s : State} (h : Ready s) (kind tag : Byte) (body : List Byte) (op : State → Answer) :
    request kind tag body op s = .next (transmit (closeEvent (formReply kind tag (op (s.setEv {}))))) := by
  have hf : linkFree (s.setEv {}) = true := by simpa using h.2
  simp [request, event_next _ h.1, submit, hf]

section
variable (kind tag : Byte) (a : Answer)

@[simp] theorem formReply_powered : (formReply kind tag a).powered = a.state.powered := by simp [formReply]
@[simp] theorem formReply_starts : (formReply kind tag a).starts = a.state.starts := by simp [formReply]
@[simp] theorem formReply_clock : (formReply kind tag a).clock = a.state.clock := by simp [formReply]
@[simp] theorem formReply_feed : (formReply kind tag a).feed = a.state.feed := by simp [formReply]
@[simp] theorem formReply_store : (formReply kind tag a).store = a.state.store := by simp [formReply]
@[simp] theorem formReply_em : (formReply kind tag a).em = a.state.em := by simp [formReply]
@[simp] theorem formReply_clips : (formReply kind tag a).clips = a.state.clips := by simp [formReply]
@[simp] theorem formReply_splice : (formReply kind tag a).splice = a.state.splice := by simp [formReply]
@[simp] theorem formReply_drive : (formReply kind tag a).drive = (judgePermission a.state).drive := by simp [formReply]
@[simp] theorem formReply_live : (formReply kind tag a).live = a.state.live := by simp [formReply]
@[simp] theorem formReply_mem : (formReply kind tag a).mem = a.state.mem := by simp [formReply]
@[simp] theorem formReply_ev : (formReply kind tag a).ev = {} := by simp [formReply]
@[simp] theorem formReply_pending : (formReply kind tag a).pending = a.state.pending := by simp [formReply]
@[simp] theorem formReply_records : (formReply kind tag a).alarms.records = (closeEvent a.state).alarms.records := by simp [formReply]
@[simp] theorem formReply_epoch : (formReply kind tag a).alarms.epoch = (closeEvent a.state).alarms.epoch := by simp [formReply]
@[simp] theorem formReply_notices : (formReply kind tag a).alarms.notices = (closeEvent a.state).alarms.notices := by simp [formReply]
@[simp] theorem formReply_lost : (formReply kind tag a).alarms.lost = false := by simp [formReply]

/-- The reply that is formed, and the flag that it clears; the rest of the link is as the owner left it. -/
theorem formReply_link : (formReply kind tag a).link =
    { a.state.link with reply := some (replyFrame (closeEvent a.state) kind tag a.result a.body), protocolError := false } := by
  simp [formReply]

@[simp] theorem formReply_reply : (formReply kind tag a).link.reply =
    some (replyFrame (closeEvent a.state) kind tag a.result a.body) := by
  rw [formReply_link]

end

/-- The drive after an answered request: as permission leaves what the owner left. -/
@[simp] theorem answered_drive (kind tag : Byte) (a : Answer) :
    (judgePermission (formReply kind tag a)).drive = (judgePermission a.state).drive := by
  rw [judgePermission_settled (s := a.state) (by simp) (by simp)]
  simp

@[simp] theorem statusSummary_length (s : State) : (statusSummary s).length = 4 := rfl

/-- A reply frame read as a statement reads it. -/
theorem replied_of_reply {t : State} {kind tag : Byte} {s : State} {r : Result} {body : List Byte}
    (h : t.link.reply = some (replyFrame s kind tag r body)) :
    Replied t kind tag r (if r = .ok ∨ r = .adjusted then body else []) :=
  ⟨statusSummary s, statusSummary_length s, h⟩

end Sys2Proof.Machine
end

