-- ==== Sys2Proof/Laws/After.lean ====
section
/-! SUPPORT. How the end of a command leaves the alarm records, and the two lemmas that a statement about one command rests on: what
is left by an event, and by an answered request. -/

namespace Sys2Proof.Machine
open Sys2Proof

/-! ## Alarm records -/

@[simp] theorem offerNotice_records (kind : Nat) (body : List Byte) (s : State) :
    (offerNotice kind body s).alarms.records = s.alarms.records := by
  unfold offerNotice
  split
  · split <;> rfl
  · rfl

@[simp] theorem offerNotice_epoch (kind : Nat) (body : List Byte) (s : State) :
    (offerNotice kind body s).alarms.epoch = s.alarms.epoch := by
  unfold offerNotice
  split
  · split <;> rfl
  · rfl

theorem setLatch_records (item : Nat) (s : State) : (setLatch item s).alarms.records =
    (s.alarms.records.map (ageRecord (s.alarms.epoch + 1))).set (item - 1)
      { latched := true, setEpoch := s.alarms.epoch + 1, count := 1 } := by
  unfold setLatch
  dsimp only
  split
  · rw [offerNotice_records]; rfl
  · rfl

theorem setLatch_epoch (item : Nat) (s : State) : (setLatch item s).alarms.epoch = s.alarms.epoch + 1 := by
  unfold setLatch
  dsimp only
  split
  · rw [offerNotice_epoch]; rfl
  · rfl

@[simp] theorem ageRecord_latched (e : BitVec 32) (r : AlarmRec) : (ageRecord e r).latched = r.latched := by
  unfold ageRecord; split <;> rfl

@[simp] theorem ageRecord_count (e : BitVec 32) (r : AlarmRec) : (ageRecord e r).count = r.count := by
  unfold ageRecord; split <;> rfl

@[simp] theorem latchItem_length (item : Nat) (s : State) :
    (latchItem s item).alarms.records.length = s.alarms.records.length := by
  unfold latchItem
  dsimp only
  split
  · simp
  · simp [setLatch_records]

/-- An item that has just occurred is latched. -/
theorem latchItem_self (item : Nat) (s : State) (h : item - 1 < s.alarms.records.length) :
    (alarmRec (latchItem s item) item).latched = true := by
  unfold latchItem
  dsimp only
  split
  · rename_i hr
    simpa [alarmRec, h] using hr
  · simp [alarmRec, setLatch_records, h]

/-- An occurrence leaves the latch and the count of every other item. -/
theorem latchItem_other {item i : Nat} (s : State) (h : item - 1 ≠ i - 1) :
    (alarmRec (latchItem s item) i).latched = (alarmRec s i).latched ∧
    (alarmRec (latchItem s item) i).count = (alarmRec s i).count := by
  unfold latchItem
  dsimp only
  split
  · simp [alarmRec, List.getElem?_set_ne h]
  · simp only [alarmRec, setLatch_records, List.getD_eq_getElem?_getD, List.getElem?_set_ne h, List.getElem?_map]
    cases s.alarms.records[i - 1]? <;> simp

/-- An occurrence leaves a latch that is set. -/
theorem latchItem_mono (item i : Nat) (s : State) (h : (alarmRec s i).latched = true) :
    (alarmRec (latchItem s item) i).latched = true := by
  by_cases hi : item - 1 = i - 1
  · have hlen : item - 1 < s.alarms.records.length := by
      rw [hi]
      by_contra hc
      simp [alarmRec, List.getElem?_eq_none (not_lt.mp hc)] at h
    have := latchItem_self item s hlen
    simpa [alarmRec, hi] using this
  · rw [(latchItem_other s hi).1, h]

theorem latchFold_took (is : List Nat) (his : ∀ j ∈ is, 1 ≤ j ∧ j ≤ 36) (s : State) (hl : s.alarms.records.length = 36) (i : Nat)
    (h1 : 1 ≤ i) :
    (i ∈ is → (alarmRec (is.foldl latchItem s) i).latched = true) ∧
    (i ∉ is → (alarmRec (is.foldl latchItem s) i).latched = (alarmRec s i).latched ∧
      (alarmRec (is.foldl latchItem s) i).count = (alarmRec s i).count) ∧
    ((alarmRec s i).latched = true → (alarmRec (is.foldl latchItem s) i).latched = true) := by
  induction is generalizing s with
  | nil => simp
  | cons j is ih =>
    have hj := his j (by simp)
    have ih' := ih (fun k hk => his k (by simp [hk])) (latchItem s j) (by simpa using hl)
    refine ⟨fun hm => ?_, fun hm => ?_, fun hm => ?_⟩
    · simp only [List.foldl_cons]
      rcases List.mem_cons.mp hm with rfl | hm
      · exact ih'.2.2 (latchItem_self _ _ (by omega))
      · exact ih'.1 hm
    · simp only [List.mem_cons, not_or] at hm
      have hne : j - 1 ≠ i - 1 := by omega
      simp only [List.foldl_cons]
      rw [(ih'.2.1 hm.2).1, (ih'.2.1 hm.2).2]
      exact latchItem_other s hne
    · exact ih'.2.2 (latchItem_mono j i s hm)

/-- An item occurs in a command when its owner reported it. -/
theorem mem_occurrences {s : State} {i : Nat} : i ∈ occurrences s ↔ (1 ≤ i ∧ i ≤ 36) ∧ i ∈ s.ev.items := by
  unfold occurrences items
  simp only [List.mem_flatMap, List.mem_filter, List.mem_map, List.mem_range, decide_eq_true_eq]
  constructor
  · rintro ⟨_, ⟨k, hk, rfl⟩, hm, rfl⟩
    exact ⟨⟨by omega, by omega⟩, hm⟩
  · rintro ⟨⟨h1, h2⟩, hm⟩
    exact ⟨i, ⟨i - 1, by omega, by omega⟩, hm, rfl⟩

@[simp] theorem judgePermission_alarms (s : State) : (judgePermission s).alarms = s.alarms := by
  obtain ⟨d, e, h⟩ := judgePermission_only s
  rw [h]; rfl

@[simp] theorem judgePermission_items (s : State) : (judgePermission s).ev.items = s.ev.items := by
  unfold judgePermission enterRamping enterSilent steadyAtCeiling enterSteady noteDrive setLevel
  split <;> (try split) <;> (try dsimp only) <;> (try split) <;> (try split) <;> rfl

@[simp] theorem queueNotices_records (s : State) : (queueNotices s).alarms.records = s.alarms.records := by
  unfold queueNotices
  generalize noticesOf s = ns
  induction ns generalizing s with
  | nil => rfl
  | cons n ns ih => rw [List.foldl_cons, ih, offerNotice_records]

@[simp] theorem queueNotices_epoch (s : State) : (queueNotices s).alarms.epoch = s.alarms.epoch := by
  unfold queueNotices
  generalize noticesOf s = ns
  induction ns generalizing s with
  | nil => rfl
  | cons n ns ih => rw [List.foldl_cons, ih, offerNotice_epoch]

theorem closeEvent_records (s : State) : (closeEvent s).alarms.records = (latchAll (judgePermission s)).alarms.records := by
  unfold closeEvent judgeLines
  simp

theorem closeEvent_epoch (s : State) : (closeEvent s).alarms.epoch = (latchAll (judgePermission s)).alarms.epoch := by
  unfold closeEvent judgeLines
  simp

theorem alarmRec_congr {s t : State} (h : s.alarms.records = t.alarms.records) (i : Nat) : alarmRec s i = alarmRec t i := by
  simp [alarmRec, h]

/-- The end of a command latches what the command reported. -/
theorem closeEvent_took {s : State} (hl : s.alarms.records.length = 36 ∨ s.ev.items = []) :
    AlarmsTook s.ev.items s (closeEvent s) := by
  intro i h1 h36
  rw [alarmRec_congr (closeEvent_records s)]
  have hr : alarmRec s i = alarmRec (judgePermission s) i := by simp [alarmRec]
  have hmem : ∀ j, j ∈ occurrences (judgePermission s) ↔ (1 ≤ j ∧ j ≤ 36) ∧ j ∈ s.ev.items := by
    intro j; rw [mem_occurrences, judgePermission_items]
  rcases hl with hl | hl
  · have := latchFold_took (occurrences (judgePermission s)) (fun j hj => ((hmem j).mp hj).1) (judgePermission s)
      (by simpa using hl) i h1
    refine ⟨fun h => this.1 ((hmem i).mpr ⟨⟨h1, h36⟩, h⟩), fun h => ?_⟩
    rw [hr]
    exact this.2.1 (fun hm => h ((hmem i).mp hm).2)
  · have ho : occurrences (judgePermission s) = [] := by
      rw [List.eq_nil_iff_forall_not_mem]
      intro j hj
      have := ((hmem j).mp hj).2
      rw [hl] at this
      simp at this
    simp [hl, latchAll, ho, hr]

/-! ## What a command leaves -/

theorem enterRamping_drive_ev (o : Nat) (s : State) (e : Report) : (enterRamping o (s.setEv e)).drive = (enterRamping o s).drive := by
  unfold enterRamping steadyAtCeiling
  by_cases h : s.live.drive.rampCode = 0
  · simp [h, noteDrive, setLevel, enterSteady]
  · simp only [State.setEv_live, h, if_false, noteDrive, State.setEv_drive, State.setDrive_drive, State.setEv_ev, State.setDrive_ev,
      State.setDrive_live]
    split <;> simp_all [enterSteady, noteDrive]

/-- What a command has reported so far does not bear on permission. -/
theorem judgePermission_drive_ev (s : State) (e : Report) : (judgePermission (s.setEv e)).drive = (judgePermission s).drive := by
  have hp : permitted (s.setEv e) = permitted s := rfl
  unfold judgePermission
  simp only [State.setEv_drive, hp]
  split <;> (try split) <;> first | rfl | exact enterRamping_drive_ev _ _ _

/-- An event with its effect. -/
theorem afterEvent_intro {s u : State} {f : State → State} {is : List Nat} {e : Report} (hp : s.powered = true)
    (hf : f (s.setEv {}) = u.setEv e) (hi : e.items = is) (hl : u.alarms.records.length = 36 ∨ is = []) :
    ∃ t, event f s = .next t ∧ AfterEvent is u t := by
  refine ⟨_, event_next f hp, ?_, ?_, ?_⟩
  · rw [transmit_eq, hf, closeEvent_eq, judgePermission_drive_ev]
    rfl
  · rw [hf]
    have := closeEvent_took (s := u.setEv e) (by simpa [hi] using hl)
    intro i h1 h36
    have hi' := this i h1 h36
    rw [show (u.setEv e).ev.items = is from hi] at hi'
    rw [show alarmRec (transmit (closeEvent (u.setEv e))) i = alarmRec (closeEvent (u.setEv e)) i by simp [alarmRec]]
    exact hi'
  · rw [hf, transmit_eq]
    simp

/-- A request that is answered at once, with its effect. -/
theorem afterRequest_intro {s u : State} {op : State → Answer} {is : List Nat} {e : Report} {r : Result} {body : List Byte}
    (kind tag : Byte) (bytes : List Byte) (hs : Ready s) (hf : op (s.setEv {}) = ⟨u.setEv e, r, body⟩) (hi : e.items = is)
    (hl : u.alarms.records.length = 36 ∨ is = []) :
    ∃ t, request kind tag bytes op s = .next t ∧ Replied t kind tag r (if r = .ok ∨ r = .adjusted then body else []) ∧
      AfterRequest is u t := by
  refine ⟨_, request_ready hs kind tag bytes op, ?_, ?_, ?_, ?_⟩
  · apply replied_of_reply (s := closeEvent (u.setEv e))
    simp [hf]
  · rw [transmit_eq, hf, closeEvent_eq, answered_drive]
    simp only [judgePermission_drive_ev]
    unfold formReply
    dsimp only
    rw [closeEvent_eq (u.setEv e)]
    rfl
  · rw [hf]
    have h1 := closeEvent_took (s := u.setEv e) (by simpa [hi] using hl)
    have hx : (formReply kind tag ⟨u.setEv e, r, body⟩).ev.items = [] := by simp
    have h2 := closeEvent_took (s := formReply kind tag ⟨u.setEv e, r, body⟩) (.inr hx)
    intro i hi1 hi36
    have a := h1 i hi1 hi36
    have b := (h2 i hi1 hi36).2 (by simp)
    rw [show (u.setEv e).ev.items = is from hi] at a
    rw [show alarmRec (transmit (closeEvent (formReply kind tag ⟨u.setEv e, r, body⟩))) i =
      alarmRec (closeEvent (formReply kind tag ⟨u.setEv e, r, body⟩)) i by simp [alarmRec]]
    rw [b.1, b.2, show alarmRec (formReply kind tag ⟨u.setEv e, r, body⟩) i = alarmRec (closeEvent (u.setEv e)) i by simp [alarmRec]]
    exact a
  · rw [hf, transmit_eq]
    simp [formReply_link]

end Sys2Proof.Machine
end

