-- ==== Sys2Proof/Laws/Frames.lean ====
section
/-! SUPPORT. Which blocks the shared operations of each chapter can change. `OnlyDrive s t` and the like say that t is s but for the
blocks named; every operation has one lemma, and a command's frame is the chain of its operations' lemmas. -/

namespace Sys2Proof.Machine
open Sys2Proof

/-! ## The sets of blocks -/

/-- Only the drive and the report differ. -/
def OnlyDrive (s t : State) : Prop :=
  t = { s with drive := t.drive, ev := t.ev }

/-- Only the Site Clock and the report differ. -/
def OnlyClock (s t : State) : Prop :=
  t = { s with clock := t.clock, ev := t.ev }

/-- Only Splicing, the clip records, the Frame Store and the report differ. -/
def OnlySplice (s t : State) : Prop :=
  t = { s with store := t.store, clips := t.clips, splice := t.splice, ev := t.ev }

/-- Only the Emission Scheduler, what `OnlySplice` allows, and the drive differ. -/
def OnlyEmission (s t : State) : Prop :=
  t = { s with em := t.em, store := t.store, clips := t.clips, splice := t.splice, drive := t.drive, ev := t.ev }

/-- Only what `OnlyEmission` allows, Feed Intake and attached memory differ. -/
def OnlyFeed (s t : State) : Prop :=
  t = { s with feed := t.feed, em := t.em, store := t.store, clips := t.clips, splice := t.splice, drive := t.drive, mem := t.mem, ev := t.ev }

/-- Only what `OnlyFeed` allows and the Site Clock differ. -/
def OnlyBlocks (s t : State) : Prop :=
  t = { s with clock := t.clock, feed := t.feed, em := t.em, store := t.store, clips := t.clips, splice := t.splice, drive := t.drive, mem := t.mem, ev := t.ev }

theorem OnlyDrive.refl (s : State) : OnlyDrive s s := rfl
theorem OnlyClock.refl (s : State) : OnlyClock s s := rfl
theorem OnlySplice.refl (s : State) : OnlySplice s s := rfl
theorem OnlyEmission.refl (s : State) : OnlyEmission s s := rfl
theorem OnlyFeed.refl (s : State) : OnlyFeed s s := rfl
theorem OnlyBlocks.refl (s : State) : OnlyBlocks s s := rfl

theorem OnlyDrive.trans {s t r : State} (h : OnlyDrive s t) (k : OnlyDrive t r) : OnlyDrive s r :=
  Eq.trans k (by rw [show t = _ from h])

theorem OnlyClock.trans {s t r : State} (h : OnlyClock s t) (k : OnlyClock t r) : OnlyClock s r :=
  Eq.trans k (by rw [show t = _ from h])

theorem OnlySplice.trans {s t r : State} (h : OnlySplice s t) (k : OnlySplice t r) : OnlySplice s r :=
  Eq.trans k (by rw [show t = _ from h])

theorem OnlyEmission.trans {s t r : State} (h : OnlyEmission s t) (k : OnlyEmission t r) : OnlyEmission s r :=
  Eq.trans k (by rw [show t = _ from h])

theorem OnlyFeed.trans {s t r : State} (h : OnlyFeed s t) (k : OnlyFeed t r) : OnlyFeed s r :=
  Eq.trans k (by rw [show t = _ from h])

theorem OnlyBlocks.trans {s t r : State} (h : OnlyBlocks s t) (k : OnlyBlocks t r) : OnlyBlocks s r :=
  Eq.trans k (by rw [show t = _ from h])

theorem OnlyDrive.emission {s t : State} (h : OnlyDrive s t) : OnlyEmission s t := by
  unfold OnlyEmission
  rw [show t = _ from h]

theorem OnlySplice.emission {s t : State} (h : OnlySplice s t) : OnlyEmission s t := by
  unfold OnlyEmission
  rw [show t = _ from h]

theorem OnlyEmission.feed {s t : State} (h : OnlyEmission s t) : OnlyFeed s t := by
  unfold OnlyFeed
  rw [show t = _ from h]

theorem OnlyFeed.blocks {s t : State} (h : OnlyFeed s t) : OnlyBlocks s t := by
  unfold OnlyBlocks
  rw [show t = _ from h]

theorem OnlyClock.blocks {s t : State} (h : OnlyClock s t) : OnlyBlocks s t := by
  unfold OnlyBlocks
  rw [show t = _ from h]

theorem OnlySplice.feed {s t : State} (h : OnlySplice s t) : OnlyFeed s t := h.emission.feed
theorem OnlyEmission.blocks {s t : State} (h : OnlyEmission s t) : OnlyBlocks s t := h.feed.blocks
theorem OnlyDrive.blocks {s t : State} (h : OnlyDrive s t) : OnlyBlocks s t := h.emission.blocks

/-- A fold of steps that each keep a frame keeps it. -/
theorem fold_frame {α : Type} {R : State → State → Prop} (refl : ∀ s, R s s) (trans : ∀ {s t r}, R s t → R t r → R s r)
    {f : State → α → State} (h : ∀ s x, R s (f s x)) (xs : List α) (s : State) : R s (xs.foldl f s) := by
  induction xs generalizing s with
  | nil => exact refl s
  | cons x xs ih => exact trans (h s x) (ih (f s x))

/-! ## One update of a block, and the reports -/

theorem setDrive_only (x : DriveState) (s : State) : OnlyDrive s (s.setDrive x) := rfl
theorem setClock_only (x : ClockState) (s : State) : OnlyClock s (s.setClock x) := rfl
theorem setSplice_only (x : SpliceState) (s : State) : OnlySplice s (s.setSplice x) := rfl
theorem setClips_only (x : ClipState) (s : State) : OnlySplice s (s.setClips x) := rfl
theorem setStore_only (x : StoreState) (s : State) : OnlySplice s (s.setStore x) := rfl
theorem setEm_only (x : EmissionState) (s : State) : OnlyEmission s (s.setEm x) := rfl
theorem setFeed_only (x : FeedState) (s : State) : OnlyFeed s (s.setFeed x) := rfl
theorem setMem_only (x : Memory) (s : State) : OnlyFeed s (s.setMem x) := rfl
theorem occur_drive (i : Nat) (s : State) : OnlyDrive s (occur i s) := rfl
theorem occur_clock (i : Nat) (s : State) : OnlyClock s (occur i s) := rfl
theorem noteDrive_only (o : Nat) (s : State) : OnlyDrive s (noteDrive o s) := rfl
theorem noteEmission_only (o : Nat) (s : State) : OnlyEmission s (noteEmission o s) := rfl

/-! ## The Drive Controller (07) -/

theorem setLevel_only (l : Nat) (s : State) : OnlyDrive s (setLevel l s) := rfl

theorem steadyAtCeiling_only (o : Nat) (s : State) : OnlyDrive s (steadyAtCeiling o s) := by
  unfold steadyAtCeiling
  split
  · exact rfl
  · exact .refl s

theorem enterRamping_frame (o : Nat) (s : State) : OnlyDrive s (enterRamping o s) := by
  obtain ⟨d, e, h⟩ := enterRamping_only o s
  rw [h]
  rfl

theorem enterSilent_frame (m : DriveMode) (o : Nat) (s : State) : OnlyDrive s (enterSilent m o s) := rfl

theorem lowerToCeiling_only (s : State) : OnlyDrive s (lowerToCeiling s) := by
  unfold lowerToCeiling
  split <;> exact rfl

theorem followCeiling_only (old : Nat) (s : State) : OnlyDrive s (followCeiling old s) := by
  unfold followCeiling
  split
  · refine OnlyDrive.trans ?_ (steadyAtCeiling_only _ _)
    split
    · exact setLevel_only _ _
    · exact .refl s
  · split
    · exact enterRamping_frame _ _
    · exact .refl s
  · exact .refl s

theorem recomputeCeiling_only (s : State) : OnlyDrive s (recomputeCeiling s) :=
  (lowerToCeiling_only s).trans (followCeiling_only _ _)

theorem setDirectivePower_only (p : Int) (s : State) : OnlyDrive s (setDirectivePower p s) :=
  OnlyDrive.trans (by exact rfl) (recomputeCeiling_only _)

theorem judgeSupply_only (v : Nat) (s : State) : OnlyDrive s (judgeSupply v s) := by
  unfold judgeSupply
  dsimp only
  split
  · exact rfl
  · split <;> exact rfl

theorem judgeWarning_only (theta : Int) (s : State) : OnlyDrive s (judgeWarning theta s) := by
  unfold judgeWarning
  dsimp only
  split
  · exact rfl
  · split <;> exact rfl

theorem judgeShutdown_only (theta : Int) (s : State) : OnlyDrive s (judgeShutdown theta s) := by
  unfold judgeShutdown
  split
  · dsimp only
    split <;> exact rfl
  · exact rfl

theorem judgeTemperature_only (theta : Int) (s : State) : OnlyDrive s (judgeTemperature theta s) :=
  (judgeWarning_only theta s).trans (judgeShutdown_only _ _)

theorem judgeOvercurrent_only (c : Nat) (n : Four) (s : State) : OnlyDrive s (judgeOvercurrent c n s) := by
  unfold judgeOvercurrent
  dsimp only
  (repeat' split) <;> exact rfl

theorem judgeOpen_only (c : Nat) (n : Four) (s : State) : OnlyDrive s (judgeOpen c n s) := by
  unfold judgeOpen
  dsimp only
  (repeat' split) <;> exact rfl

theorem judgeModule_only (c : PerFour Nat) (s : State) (n : Four) : OnlyDrive s (judgeModule c s n) := by
  unfold judgeModule
  generalize hs : s.setDrive _ = s1
  have h : OnlyDrive s s1 := by rw [← hs]; rfl
  exact (h.trans (judgeOvercurrent_only _ _ _)).trans (judgeOpen_only _ _ _)

theorem reflectedTrip_only (s : State) : OnlyDrive s (reflectedTrip s) := by
  unfold reflectedTrip
  dsimp only
  split
  · exact (((setDrive_only _ s).trans (occur_drive _ _)).trans (enterSilent_frame _ _ _)).trans (setDrive_only _ _)
  · exact ((((setDrive_only _ s).trans (occur_drive _ _)).trans (setDrive_only _ _)).trans (occur_drive _ _)).trans
      (enterSilent_frame _ _ _)

theorem judgeReflected_only (rho : Nat) (s : State) : OnlyDrive s (judgeReflected rho s) := by
  unfold judgeReflected
  dsimp only
  (repeat' split) <;> first
    | exact rfl
    | exact OnlyDrive.trans (by exact rfl) (reflectedTrip_only _)

theorem judgeFoldback_only (theta : Int) (rho : Nat) (s : State) : OnlyDrive s (judgeFoldback theta rho s) :=
  OnlyDrive.trans (by exact rfl) (recomputeCeiling_only _)

theorem judgeLowOutput_only (f : Nat) (s : State) : OnlyDrive s (judgeLowOutput f s) := by
  unfold judgeLowOutput
  dsimp only
  split
  · split <;> exact rfl
  · exact rfl

theorem judgeSample_only (x : Samples) (s : State) : OnlyDrive s (judgeSample x s) := by
  unfold judgeSample
  exact (((((judgeSupply_only _ _).trans (judgeTemperature_only _ _)).trans
    (fold_frame OnlyDrive.refl OnlyDrive.trans (judgeModule_only x.current) _ _)).trans (judgeReflected_only _ _)).trans
    (judgeFoldback_only _ _ _)).trans (judgeLowOutput_only _ _)

/-- A monitoring sample changes the drive alone. -/
theorem sampleEffect_only (x : Samples) (s : State) : OnlyDrive s (sampleEffect x s) := by
  unfold sampleEffect
  split
  · exact OnlyDrive.trans (by exact rfl) (judgeSample_only _ _)
  · exact .refl s

theorem rampTickEffect_only (s : State) : OnlyDrive s (rampTickEffect s) := by
  unfold rampTickEffect
  dsimp only
  split
  · split
    · exact OnlyDrive.trans (by exact rfl) (steadyAtCeiling_only _ _)
    · exact rfl
  · exact .refl s

theorem retryEndEffect_only (s : State) : OnlyDrive s (retryEndEffect s) := by
  unfold retryEndEffect
  dsimp only
  split
  · split
    · split
      · exact OnlyDrive.trans (by exact rfl) (enterRamping_frame _ _)
      · exact rfl
    · exact .refl s
  · exact .refl s

theorem steadyEffect_only (s : State) : OnlyDrive s (steadyEffect s) := by
  unfold steadyEffect
  dsimp only
  split
  · split
    · exact rfl
    · exact .refl s
  · exact .refl s

theorem reEnable_only (s : State) (n : Four) : OnlyDrive s (reEnable s n) := by
  unfold reEnable
  dsimp only
  split
  · exact rfl
  · exact .refl s

/-! ## Splicing (06) -/

theorem countCue_only (f : CueCounts → CueCounts) (s : State) : OnlySplice s (countCue f s) := rfl
theorem occur_splice (i : Nat) (s : State) : OnlySplice s (occur i s) := rfl
theorem removeCue_only (a : Nat) (s : State) : OnlySplice s (removeCue a s) := rfl
theorem editCue_only (a : Nat) (f : CueEntry → CueEntry) (s : State) : OnlySplice s (editCue a f s) := rfl
theorem setChannel_only (n : Four) (c : Option Channel) (s : State) : OnlySplice s (setChannel n c s) := rfl
theorem noteSplice_only (n : SpliceNote) (s : State) : OnlySplice s (noteSplice n s) := rfl
theorem setClip_only (n : Nat) (c : Clip) (s : State) : OnlySplice s (setClip n c s) := rfl
theorem bindChannel_only (n : Four) (e : CueEntry) (p : Plan) (s : State) : OnlySplice s (bindChannel n e p s) :=
  rfl
theorem releaseChannel_only (n : Four) (c : Channel) (s : State) : OnlySplice s (releaseChannel n c s) := rfl
theorem turnUnfilled_only (a : Nat) (s : State) : OnlySplice s (turnUnfilled a s) := rfl
theorem disarm_only (n : Four) (c : Channel) (s : State) : OnlySplice s (disarm n c s) := rfl

theorem setBase_only (b : Option Seq) (s : State) : OnlySplice s (setBase b s) := by
  cases b <;> exact rfl

theorem arbitrateLoop_only (fuel : Nat) (n : Four) (s : State) : OnlySplice s (arbitrateLoop fuel n s) := by
  induction fuel generalizing s with
  | zero => exact .refl s
  | succ fuel ih =>
    unfold arbitrateLoop
    split
    · exact .refl s
    · split
      · exact OnlySplice.trans (by exact rfl) (ih _)
      · split
        · exact (turnUnfilled_only _ _).trans (ih _)
        · split
          · exact bindChannel_only _ _ _ _
          · exact (turnUnfilled_only _ _).trans (ih _)

theorem arbitrate_only (n : Four) (s : State) : OnlySplice s (arbitrate n s) := by
  unfold arbitrate
  split
  · exact arbitrateLoop_only _ _ _
  · exact .refl s

theorem markResync_only (v : Nat) (s : State) : OnlySplice s (markResync v s) := by
  unfold markResync
  split
  · exact rfl
  · exact .refl s

theorem endSplice_only (n : Four) (c : Channel) (r : ReturnReason) (s : State) : OnlySplice s (endSplice n c r s) := by
  unfold endSplice
  dsimp only
  have h : OnlySplice s (markResync c.service (releaseChannel n c (noteChannel n c 3 (reasonCode r) s))) :=
    OnlySplice.trans (by exact rfl) (markResync_only _ _)
  split
  · exact h.trans (occur_splice _ _)
  · exact h

theorem returnChannel_only (n : Four) (c : Channel) (r : ReturnReason) (s : State) : OnlySplice s (returnChannel n c r s) := by
  unfold returnChannel
  dsimp only
  split
  · exact endSplice_only _ _ _ _
  · exact (endSplice_only _ _ _ _).trans (arbitrate_only _ _)

theorem enterCue_only (c : OutCue) (again : Bool) (m : CueMode) (s : State) : OnlySplice s (enterCue c again m s) := by
  unfold enterCue
  split <;> exact rfl

theorem enterUnfilled_only (c : OutCue) (again : Bool) (s : State) : OnlySplice s (enterUnfilled c again s) :=
  (enterCue_only _ _ _ _).trans (by exact rfl)

theorem placeCue_only (c : OutCue) (again : Bool) (s : State) : OnlySplice s (placeCue c again s).1 := by
  unfold placeCue
  split
  · split <;> exact rfl
  · split
    · exact rfl
    · split
      · exact enterUnfilled_only _ _ _
      · split
        · exact enterCue_only _ _ _ _
        · split
          · dsimp only
            split
            · exact (enterCue_only _ _ _ _).trans (bindChannel_only _ _ _ _)
            · exact enterCue_only _ _ _ _
          · exact enterUnfilled_only _ _ _

theorem judgeNewCue_only (c : OutCue) (s : State) : OnlySplice s (judgeNewCue c s).1 := by
  unfold judgeNewCue
  split
  · exact rfl
  · exact placeCue_only _ _ _

theorem reviseCue_only (c : OutCue) (e : CueEntry) (s : State) : OnlySplice s (reviseCue c e s).1 := by
  unfold reviseCue
  dsimp only
  split
  · split
    · exact ((OnlySplice.trans (countCue_only _ _) (disarm_only _ _ _)).trans (judgeNewCue_only _ _)).trans (arbitrate_only _ _)
    · exact ((OnlySplice.trans (countCue_only _ _) (removeCue_only _ _)).trans (judgeNewCue_only _ _)).trans (arbitrate_only _ _)
  · exact (OnlySplice.trans (countCue_only _ _) (removeCue_only _ _)).trans (judgeNewCue_only _ _)

theorem judgeCue_only (d : CueData) (src : CueSource) (q : Seq) (s : State) : OnlySplice s (judgeCue d src q s).1 := by
  unfold judgeCue
  split
  · unfold judgeOut
    split
    · exact judgeNewCue_only _ _
    · split
      · dsimp only
        split
        · exact OnlySplice.trans (by exact rfl) (placeCue_only _ _ _)
        · exact rfl
      · split
        · exact rfl
        · exact reviseCue_only _ _ _
  · split
    · unfold judgeIn
      dsimp only
      split
      · split
        · split
          · split <;> exact rfl
          · exact rfl
        · exact rfl
      · exact rfl
    · unfold judgeCancel
      dsimp only
      split
      · exact rfl
      · split
        · exact rfl
        · split
          · split
            · exact ((disarm_only _ _ _).trans (arbitrate_only _ _)).trans (by exact rfl)
            · exact rfl
          · exact rfl

theorem networkCues_only (q : Seq) (cs : List CueData) (s : State) : OnlySplice s (networkCues q cs s) := by
  refine fold_frame OnlySplice.refl OnlySplice.trans ?_ cs s
  intro s d
  split
  · exact countCue_only _ _
  · exact judgeCue_only _ _ _ _

theorem returnsAt_only (q : Seq) (s : State) (n : Four) : OnlySplice s (returnsAt q s n) := by
  unfold returnsAt
  split
  · split
    · split
      · exact returnChannel_only _ _ _ _
      · split
        · exact returnChannel_only _ _ _ _
        · exact returnChannel_only _ _ _ _
        · exact .refl s
    · exact .refl s
  · exact .refl s

theorem startEntry_only (s : State) (e : CueEntry) : OnlySplice s (startEntry s e) := by
  unfold startEntry
  split
  · unfold activate
    split
    · split
      · exact rfl
      · exact .refl s
    · exact .refl s
  · exact rfl
  · exact rfl
  · exact .refl s

theorem spliceFrameStart_only (q : Seq) (s : State) : OnlySplice s (spliceFrameStart q s) := by
  unfold spliceFrameStart
  dsimp only
  refine OnlySplice.trans ?_ (by exact rfl)
  refine OnlySplice.trans ?_ (fold_frame OnlySplice.refl OnlySplice.trans startEntry_only _ _)
  exact OnlySplice.trans (by exact rfl) (fold_frame OnlySplice.refl OnlySplice.trans (returnsAt_only q) _ _)

theorem spliceFrameEnd_only (s : State) : OnlySplice s (spliceFrameEnd s) := by
  refine fold_frame OnlySplice.refl OnlySplice.trans ?_ _ s
  intro s n
  unfold backlogAt
  split
  · split
    · split
      · exact returnChannel_only _ _ _ _
      · split
        · exact setChannel_only _ _ _
        · exact .refl s
    · exact .refl s
  · exact .refl s

theorem rewrite_only (i : Bool) (p : Packet) (s : State) : OnlySplice s (rewrite i p s).2 := by
  unfold rewrite
  split
  · exact .refl s
  · exact rfl

theorem takePosition_only (n : Four) (c : Channel) (s : State) : OnlySplice s (takePosition n c s).2 := by
  unfold takePosition
  dsimp only
  split
  · exact .refl s
  · split
    · exact (setChannel_only _ _ _).trans (rewrite_only _ _ _)
    · exact setChannel_only _ _ _

theorem substitute_only (p : Packet) (s : State) : OnlySplice s (substitute p s).2 := by
  unfold substitute
  split
  · split
    · exact takePosition_only _ _ _
    · exact .refl s
  · split
    · exact takePosition_only _ _ _
    · exact rewrite_only _ _ _

theorem spliceAnchoring_only (s : State) : OnlySplice s (spliceAnchoring s) := by
  refine OnlySplice.trans (fold_frame OnlySplice.refl OnlySplice.trans (f := reAnchorChannel) ?_ Four.all s)
    (by exact rfl)
  intro s n
  unfold reAnchorChannel
  split
  · split
    · exact returnChannel_only _ _ _ _
    · exact .refl s
  · exact .refl s

theorem spliceOff_only (s : State) : OnlySplice s (spliceOff s) := by
  refine OnlySplice.trans (fold_frame OnlySplice.refl OnlySplice.trans (f := stopChannel) ?_ Four.all s)
    (by exact rfl)
  intro s n
  unfold stopChannel
  split
  · split
    · exact returnChannel_only _ _ _ _
    · exact disarm_only _ _ _
  · exact .refl s

theorem passedEntry_only (s : State) (e : CueEntry) : OnlySplice s (passedEntry s e) := by
  have h (t : State) (ht : OnlySplice s t) : OnlySplice s (occur 19 (countMissed t)) :=
    (ht.trans (countCue_only _ t)).trans (occur_splice _ _)
  unfold passedEntry
  split
  · exact removeCue_only _ _
  · exact h _ (removeCue_only _ _)
  · apply h
    split
    · split
      · exact disarm_only _ _ _
      · exact removeCue_only _ _
    · exact removeCue_only _ _
  · exact .refl s

theorem spliceRunning_only (b : Seq) (s : State) : OnlySplice s (spliceRunning b s) := by
  unfold spliceRunning
  dsimp only
  refine OnlySplice.trans (fold_frame OnlySplice.refl OnlySplice.trans passedEntry_only _ s)
    (fold_frame OnlySplice.refl OnlySplice.trans ?_ _ _)
  intro s n
  split
  · exact arbitrate_only _ _
  · exact .refl s

/-! ## Emission and the Frame Store (03, 04) -/

theorem countEmission_only (f : EmissionCounts → EmissionCounts) (s : State) : OnlyEmission s (countEmission f s) :=
  rfl

theorem setMute_only (m : MuteSet) (s : State) : OnlyEmission s (setMute m s) := by
  unfold setMute
  split
  · exact .refl s
  · exact rfl

theorem emptyStore_only (s : State) : OnlySplice s (emptyStore s) := rfl

theorem leaveRunning_only (s : State) : OnlyEmission s (leaveRunning s) := by
  unfold leaveRunning
  split
  · split <;> exact rfl
  · exact .refl s

theorem dropAnchor_only (s : State) : OnlyEmission s (dropAnchor s) := by
  unfold dropAnchor
  dsimp only
  exact (((leaveRunning_only s).trans (emptyStore_only _).emission).trans (by exact rfl)).trans (setMute_only _ _)

theorem enterOff_only (s : State) : OnlyEmission s (enterOff s) := by
  unfold enterOff
  exact ((((dropAnchor_only s).trans (noteEmission_only _ _)).trans (setEm_only _ _)).trans
    (spliceOff_only _).emission).trans (setDirectivePower_only _ _).emission

theorem enterAnchoring_only (o : Nat) (s : State) : OnlyEmission s (enterAnchoring o s) := by
  unfold enterAnchoring
  dsimp only
  refine OnlyEmission.trans ?_ (spliceAnchoring_only _).emission
  have h := ((dropAnchor_only s).trans (by exact rfl) :
    OnlyEmission s (noteEmission o (dropAnchor s)))
  split
  · exact h.trans (by exact rfl)
  · exact h.trans (by exact rfl)

theorem reAnchorUnlessOff_only (o : Nat) (s : State) : OnlyEmission s (reAnchorUnlessOff o s) := by
  unfold reAnchorUnlessOff
  split
  · exact .refl s
  · exact enterAnchoring_only _ _

theorem judgeFit_only (s : State) : OnlyEmission s (judgeFit s) := by
  unfold judgeFit
  split
  · exact .refl s
  · split
    · split
      · exact rfl
      · exact .refl s
    · exact setMute_only _ _
    · exact .refl s

theorem placeCopy_only (o : Offer) (i : Int) (s : State) : OnlyFeed s (placeCopy o i s) := by
  unfold placeCopy
  dsimp only
  refine OnlyFeed.trans ?_ (by exact rfl)
  exact OnlyFeed.trans (by exact rfl) (networkCues_only _ _ _).feed

theorem admit_only (o : Offer) (i : Int) (s : State) : OnlyFeed s (admitCopy o i s) :=
  (placeCopy_only o i s).trans (by exact rfl)

theorem takeAnchor_only (o : Offer) (s : State) : OnlyFeed s (takeAnchor o s) := by
  unfold takeAnchor
  exact (((((setEm_only _ s).feed.trans (setBase_only _ _).feed).trans (admit_only _ _ _)).trans
    (setStore_only _ _).feed).trans (countEmission_only _ _).feed).trans (noteEmission_only _ _).feed

theorem judgeCandidate_only (o : Offer) (s : State) : OnlyFeed s (judgeCandidate o s) := by
  unfold judgeCandidate
  dsimp only
  split
  · exact rfl
  · split
    · exact .refl s
    · split
      · exact .refl s
      · split
        · exact rfl
        · split
          · exact .refl s
          · exact takeAnchor_only _ _

theorem jumpStep_only (o : Offer) (s : State) : OnlyEmission s (jumpStep o s) := by
  unfold jumpStep
  split
  · split
    · exact OnlyEmission.trans (by exact rfl) (reAnchorUnlessOff_only _ _)
    · exact rfl
  · exact .refl s

theorem mismatchStep_only (s : State) : OnlyEmission s (mismatchStep s) := by
  unfold mismatchStep
  split
  · exact OnlyEmission.trans (by exact rfl) (reAnchorUnlessOff_only _ _)
  · exact rfl

theorem countOffer_only (p : PortId) (f : AdmissionCounts → AdmissionCounts) (s : State) : OnlySplice s (countOffer p f s) :=
  rfl

theorem compareCopy_only (o : Offer) (i : Int) (h : Held) (s : State) : OnlyFeed s (compareCopy o i h s) := by
  unfold compareCopy
  split
  · split
    · exact (countOffer_only _ _ _).feed
    · exact rfl
  · exact (countOffer_only _ _ _).feed
  · exact (placeCopy_only _ _ _).trans (countOffer_only _ _ _).feed
  · exact (countOffer_only _ _ _).feed

theorem settleOffer_only (o : Offer) (i : Int) (s : State) : OnlyFeed s (settleOffer o i s) := by
  unfold settleOffer
  dsimp only
  split
  · exact OnlyFeed.trans (by exact rfl) (compareCopy_only _ _ _ _)
  · exact OnlyFeed.trans (by exact rfl) (admit_only _ _ _)

theorem judgeWindow_only (o : Offer) (a : Anchor) (b : Seq) (s : State) : OnlyFeed s (judgeWindow o a b s) := by
  have hstale : OnlyFeed s (staleOffer o s) := ((countOffer_only _ _ _).emission.trans (jumpStep_only _ _)).feed
  unfold judgeWindow
  dsimp only
  split
  · exact hstale
  · split
    · exact ((countOffer_only _ _ _).emission.trans (jumpStep_only _ _)).feed
    · split
      · exact hstale
      · split
        · exact (countOffer_only _ _ _).feed
        · split
          · exact ((countOffer_only _ _ _).emission.trans (mismatchStep_only _)).feed
          · exact settleOffer_only _ _ _

/-- An offer at the Frame Store. -/
theorem takeOffer_only (o : Offer) (s : State) : OnlyFeed s (takeOffer o s) := by
  unfold takeOffer
  split
  · exact .refl s
  · split
    · exact rfl
    · split
      · exact judgeWindow_only _ _ _ _
      · exact judgeCandidate_only _ _

theorem takeEffect_only (s : State) : OnlyEmission s (takeEffect s) := by
  unfold takeEffect
  split
  · split
    · dsimp only
      unfold takeSlot
      split <;> exact rfl
    · exact .refl s
  · exact .refl s

theorem gapAccounting_only (real : Bool) (s : State) : OnlyEmission s (gapAccounting real s) := by
  unfold gapAccounting
  dsimp only
  (repeat' split) <;> first
    | exact setEm_only _ _
    | exact (setEm_only _ _).trans (setMute_only _ _)
    | exact ((setEm_only _ _).trans (setMute_only _ _)).trans (occur_drive _ _).emission

theorem actDirective_only (s : State) (d : Directive) : OnlyEmission s (actDirective s d) := by
  unfold actDirective
  split
  · split
    · exact (setMute_only _ _).trans (countEmission_only _ _)
    · split
      · exact (setMute_only _ _).trans (countEmission_only _ _)
      · split
        · exact (setDirectivePower_only _ _).emission.trans (countEmission_only _ _)
        · split
          · exact OnlyEmission.trans (by exact rfl) (countEmission_only _ _)
          · exact countEmission_only _ _
  · exact countEmission_only _ _

theorem startFrame_only (a : Anchor) (k : Nat) (s : State) : OnlyEmission s (startFrame a k s) := by
  unfold startFrame
  dsimp only
  have h (s : State) : OnlyEmission s (gapAccounting (frameContent s (frameSeq a k)).isSome (spliceFrameStart (frameSeq a k) s)) :=
    (spliceFrameStart_only _ _).emission.trans (gapAccounting_only _ _)
  split
  · refine OnlyEmission.trans ?_ (fold_frame OnlyEmission.refl OnlyEmission.trans actDirective_only _ _)
    exact (OnlyEmission.trans (by exact rfl) (spliceFrameStart_only _ _).emission).trans (gapAccounting_only _ _)
  · exact (OnlyEmission.trans (by exact rfl) (spliceFrameStart_only _ _).emission).trans (gapAccounting_only _ _)

theorem anchorReachedEffect_only (s : State) : OnlyEmission s (anchorReachedEffect s) := by
  unfold anchorReachedEffect
  split
  · split
    · exact (((((setMute_only _ s).trans (noteEmission_only _ _)).trans (setEm_only _ _)).trans
        (spliceRunning_only _ _).emission).trans (judgeFit_only _)).trans (startFrame_only _ _ _)
    · exact .refl s
  · exact .refl s

theorem endFrame_only (s : State) : OnlyEmission s (endFrame s) := by
  unfold endFrame
  split <;> exact rfl

theorem rebase_only (s : State) : OnlyEmission s (rebase s) := by
  unfold rebase
  split
  · split
    · exact rfl
    · exact .refl s
  · exact .refl s

theorem departPacket_only (a : Anchor) (k j : Nat) (s : State) : OnlyEmission s (departPacket a k j s) := by
  unfold departPacket
  dsimp only
  have h : OnlyEmission s (sendPacket (gridInstant s a k j) (substitute (framePacket s a k j) s).1
      (substitute (framePacket s a k j) s).2) :=
    (substitute_only _ _).emission.trans (by exact rfl)
  split
  · refine h.trans ?_
    unfold finishFrame
    exact ((OnlyEmission.trans (by exact rfl) (endFrame_only _)).trans (rebase_only _)).trans
      (spliceFrameEnd_only _).emission
  · exact h.trans (by exact rfl)

theorem departureEffect_only (s : State) : OnlyEmission s (departureEffect s) := by
  unfold departureEffect
  split
  · split
    · split
      · exact startFrame_only _ _ _
      · exact departPacket_only _ _ _ _
    · exact .refl s
  · exact .refl s

theorem freeGridEffect_only (s : State) : OnlyEmission s (freeGridEffect s) := by
  unfold freeGridEffect
  dsimp only
  split
  · split <;> split <;> exact rfl
  · exact .refl s

end Sys2Proof.Machine
end

