-- ==== Sys2Proof/Laws/Effects.lean ====
section
/-! SUPPORT. Which blocks the operations of Feed Intake (02), the Site Clock (01) and the Clip Store (05) can change. -/

namespace Sys2Proof.Machine
open Sys2Proof

/-! ## Feed Intake (02) -/

theorem setPort_only (p : PortId) (x : PortRec) (s : State) : OnlyFeed s (setPort p x s) := rfl
theorem countPort_only (p : PortId) (f : PortCounts → PortCounts) (s : State) : OnlyFeed s (countPort p f s) := rfl
theorem occur_feed (i : Nat) (s : State) : OnlyFeed s (occur i s) := rfl
theorem loseAlignment_only (p : PortId) (s : State) : OnlyFeed s (loseAlignment p s) := rfl
theorem alignContinuity_only (p : PortId) (s : State) : OnlyFeed s (alignContinuity p s) := rfl
theorem enterHunting_only (p : PortId) (s : State) : OnlyFeed s (enterHunting p s) := rfl

theorem setPortMode_only (p : PortId) (m : PortMode) (s : State) : OnlyFeed s (setPortMode p m s) := by
  unfold setPortMode
  dsimp only
  split
  · exact .refl s
  · exact rfl

theorem enterImpaired_only (p : PortId) (s : State) : OnlyFeed s (enterImpaired p s) :=
  (setPortMode_only _ _ _).trans (occur_feed _ _)

theorem enterFailed_only (p : PortId) (s : State) : OnlyFeed s (enterFailed p s) :=
  (setPortMode_only _ _ _).trans (occur_feed _ _)

theorem judgeHealth_only (p : PortId) (s : State) : OnlyFeed s (judgeHealth p s) := by
  unfold judgeHealth
  dsimp only
  (repeat' split) <;> first
    | exact .refl s
    | exact setPort_only _ _ _
    | exact (setPort_only _ _ _).trans (enterImpaired_only _ _)
    | exact (setPort_only _ _ _).trans (enterFailed_only _ _)
    | exact (setPort_only _ _ _).trans (setPortMode_only _ _ _)

theorem giveVerdict_only (p : PortId) (v : Verdict) (s : State) : OnlyFeed s (giveVerdict p v s) :=
  (setPort_only _ _ s).trans (judgeHealth_only _ _)

theorem offerFrame_only (p : PortId) (f : Assembly) (q : Quality) (s : State) : OnlyFeed s (offerFrame p f q s) := by
  unfold offerFrame
  split
  · split
    · exact countPort_only _ _ _
    · exact (countPort_only _ _ _).trans (takeOffer_only _ _)
  · exact .refl s

theorem completeFrame_only (p : PortId) (f : Assembly) (s : State) : OnlyFeed s (completeFrame p f s) := by
  unfold completeFrame
  exact ((setPort_only _ _ s).trans (giveVerdict_only _ _ _)).trans (offerFrame_only _ _ _ _)

theorem addPacket_only (p : PortId) (f : Assembly) (k : Packet) (b : Bool) (s : State) : OnlyFeed s (addPacket p f k b s) := by
  have hclose (g : Assembly) (x : PortRec) (t : State) (ht : OnlyFeed s t) :
      OnlyFeed s (if g.count = perFrame (setPort p x t) then completeFrame p g (setPort p x t) else setPort p x t) := by
    split
    · exact (ht.trans (setPort_only _ _ _)).trans (completeFrame_only _ _ _)
    · exact ht.trans (setPort_only _ _ _)
  refine hclose _ _ _ ?_
  split
  · exact countPort_only _ _ _
  · exact .refl s

theorem alignmentError_only (p : PortId) (s : State) : OnlyFeed s (alignmentError p s) :=
  (countPort_only _ _ _).trans (enterHunting_only _ _)

theorem damagedPacket_only (p : PortId) (s : State) : OnlyFeed s (damagedPacket p s) := by
  unfold damagedPacket
  split
  · exact addPacket_only _ _ _ _ _
  · split
    · exact alignmentError_only _ _
    · exact .refl s

theorem ordinaryPacket_only (p : PortId) (k : Packet) (s : State) : OnlyFeed s (ordinaryPacket p k s) := by
  unfold ordinaryPacket
  dsimp only
  split
  · exact (setPort_only _ _ s).trans (addPacket_only _ _ _ _ _)
  · split
    · exact (setPort_only _ _ s).trans (alignmentError_only _ _)
    · exact setPort_only _ _ s

theorem openFrame_only (p : PortId) (t : Int) (k : Packet) (s : State) : OnlyFeed s (openFrame p t k s) :=
  (alignContinuity_only _ _).trans (setPort_only _ _ _)

/-- What follows the end of an open frame at a timing candidate. -/
theorem candidateRest_only (p : PortId) (t : Int) (k : Packet) (s : State) :
    OnlyFeed s (if !validTiming k then giveVerdict p .badTiming (enterHunting p s)
      else if !inFormat s (readTiming k) then giveVerdict p .format (enterHunting p s)
      else openFrame p t k s) := by
  split
  · exact (enterHunting_only _ _).trans (giveVerdict_only _ _ _)
  · split
    · exact (enterHunting_only _ _).trans (giveVerdict_only _ _ _)
    · exact openFrame_only _ _ _ _

theorem timingCandidate_only (p : PortId) (t : Int) (k : Packet) (s : State) : OnlyFeed s (timingCandidate p t k s) := by
  unfold timingCandidate
  refine OnlyFeed.trans (t := if (portRec s p).opened.isSome then
    giveVerdict p .short (setPort p { portRec s p with opened := none } s) else s) ?_ (candidateRest_only _ _ _ _)
  split
  · exact (setPort_only _ _ s).trans (giveVerdict_only _ _ _)
  · exact .refl s

theorem loseSync_only (p : PortId) (s : State) : OnlyFeed s (loseSync p s) := by
  unfold loseSync
  exact (((countPort_only _ _ s).trans (loseAlignment_only _ _)).trans (setPortMode_only _ _ _)).trans (occur_feed _ _)

theorem alignedPacket_only (p : PortId) (t : Int) (k : Packet) (s : State) : OnlyFeed s (alignedPacket p t k s) := by
  unfold alignedPacket
  dsimp only
  split
  · split
    · exact (setPort_only _ _ s).trans (timingCandidate_only _ _ _ _)
    · exact (setPort_only _ _ s).trans (ordinaryPacket_only _ _ _)
  · split
    · exact (setPort_only _ _ s).trans (loseSync_only _ _)
    · exact (setPort_only _ _ s).trans (damagedPacket_only _ _)

theorem findAlignment_only (p : PortId) (n : Nat) (s : State) : OnlyFeed s (findAlignment p n s) := by
  unfold findAlignment
  exact ((((setPort_only _ _ s).trans (setPortMode_only _ _ _)).trans (setPort_only _ _ _)).trans
    (alignContinuity_only _ _)).trans (occur_feed _ _)

theorem huntByte_only (p : PortId) (b : Byte) (s : State) : OnlyFeed s (huntByte p b s) := by
  have h (c : Prop) [Decidable c] (x : PortRec) (n : Nat) :
      OnlyFeed s (if c then findAlignment p n (setPort p x s) else setPort p x s) := by
    split
    · exact (setPort_only _ _ _).trans (findAlignment_only _ _ _)
    · exact setPort_only _ _ _
  exact h _ _ _

theorem feedByteEffect_only (p : PortId) (b : Byte) (s : State) : OnlyFeed s (feedByteEffect p b s) := by
  unfold feedByteEffect
  dsimp only
  split
  · exact .refl s
  · split
    · split
      · exact ((setPort_only _ _ s).trans (setPortMode_only _ _ _)).trans (setPort_only _ _ _)
      · exact (setPort_only _ _ s).trans (setPort_only _ _ _)
    · split
      · exact ((setPort_only _ _ s).trans (setPortMode_only _ _ _)).trans (huntByte_only _ _ _)
      · exact (setPort_only _ _ s).trans (huntByte_only _ _ _)

theorem feedPacketEffect_only (p : PortId) (k : Packet) (s : State) : OnlyFeed s (feedPacketEffect p k s) := by
  unfold feedPacketEffect
  split
  · exact (setPort_only _ _ s).trans (alignedPacket_only _ _ _ _)
  · exact .refl s

theorem lineActivityEffect_only (p : PortId) (s : State) : OnlyFeed s (lineActivityEffect p s) := by
  unfold lineActivityEffect
  dsimp only
  split
  · split
    · exact (((loseAlignment_only _ _).trans (setPortMode_only _ _ _)).trans (countPort_only _ _ _)).trans (occur_feed _ _)
    · exact (loseAlignment_only _ _).trans (setPortMode_only _ _ _)
  · exact .refl s

theorem silenceEffect_only (p : PortId) (s : State) : OnlyFeed s (silenceEffect p s) := by
  unfold silenceEffect
  dsimp only
  split
  · split
    · split
      · exact giveVerdict_only _ _ _
      · exact giveVerdict_only _ _ _
      · exact setPort_only _ _ _
      · exact .refl s
    · exact .refl s
  · exact .refl s

theorem formatWriteAt_only (p : PortId) (s : State) : OnlyFeed s (formatWriteAt p s) := by
  unfold formatWriteAt
  split
  · exact (enterHunting_only _ _).trans (setPort_only _ _ _)
  · exact .refl s

theorem formatWrite_only (s : State) : OnlyFeed s (formatWrite s) := (formatWriteAt_only _ _).trans (formatWriteAt_only _ _)

/-! ## The Site Clock (01) -/

theorem setInput_only (n : InputId) (r : InputRec) (s : State) : OnlyClock s (setInput n r s) := rfl

theorem setInputMode_only (n : InputId) (m : InputMode) (s : State) : OnlyClock s (setInputMode n m s) := by
  unfold setInputMode
  dsimp only
  split
  · exact .refl s
  · split <;> exact rfl

theorem enterSuspect_only (n : InputId) (s : State) : OnlyClock s (enterSuspect n s) :=
  (setInput_only _ _ _).trans (setInputMode_only _ _ _)

theorem enterDisqualified_only (n : InputId) (s : State) : OnlyClock s (enterDisqualified n s) :=
  ((setInput_only _ _ _).trans (setInputMode_only _ _ _)).trans (occur_clock _ _)

theorem enterQualified_only (n : InputId) (s : State) : OnlyClock s (enterQualified n s) :=
  (setInput_only _ _ _).trans (setInputMode_only _ _ _)

theorem enterClock_only (m : ClockMode) (s : State) : OnlyClock s (enterClock m s) := by
  cases m <;> exact rfl

theorem actOnGoverning_only (s : State) : OnlyClock s (actOnGoverning s) := by
  unfold actOnGoverning
  split <;> try split
  all_goals first
    | exact .refl s
    | exact enterClock_only _ _
    | exact setClock_only _ _

theorem regovern_only (s : State) : OnlyClock s (regovern s) := by
  unfold regovern
  split
  · exact .refl s
  · exact OnlyClock.trans (by exact rfl) (actOnGoverning_only _)

/-- The re-evaluation with what Emission makes of it. -/
theorem regovernFit_only (s : State) : OnlyBlocks s (regovernFit s) := (regovern_only s).blocks.trans (judgeFit_only _).blocks

theorem judgeGuard_only (s : State) : OnlyClock s (judgeGuard s) := by
  unfold judgeGuard
  split
  · exact enterClock_only _ _
  · exact .refl s

theorem moveFeedTimes_only (d : Int) (s : State) : OnlyFeed s (moveFeedTimes d s) := rfl
theorem moveStoreTimes_only (d : Int) (s : State) : OnlySplice s (moveStoreTimes d s) := rfl
theorem moveDriveTimes_only (d : Int) (s : State) : OnlyDrive s (moveDriveTimes d s) := rfl
theorem moveClock_only (d : Int) (s : State) : OnlyClock s (moveClock d s) := rfl

/-- The step event reaches the Site Clock, Feed Intake, the Frame Store, Emission with Splicing, and the drive. -/
theorem stepEvent_only (d : Int) (s : State) : OnlyBlocks s (stepEvent d s) := by
  unfold stepEvent stepEmission
  exact ((((OnlyBlocks.trans (by exact rfl) (moveClock_only _ _).blocks).trans (moveFeedTimes_only _ _).blocks).trans
    (moveStoreTimes_only _ _).feed.blocks).trans ((setEm_only _ _).trans (reAnchorUnlessOff_only _ _)).blocks).trans
    (moveDriveTimes_only _ _).blocks

theorem filterPulse_only (n : InputId) (e : Int) (s : State) : OnlyClock s (filterPulse n e s) := by
  unfold filterPulse
  dsimp only
  split
  · exact setInput_only _ _ _
  · split
    · exact .refl s
    · split
      · exact .refl s
      · exact setInput_only _ _ _

theorem pulseTransition_only (n : InputId) (out wrong : Bool) (s : State) : OnlyClock s (pulseTransition n out wrong s) := by
  unfold pulseTransition
  dsimp only
  (repeat' split) <;> first
    | exact .refl s
    | exact (setInput_only _ _ _).trans (setInputMode_only _ _ _)

theorem crossCheck_only (n : InputId) (s : State) : OnlyClock s (crossCheck n s) := by
  unfold crossCheck
  split
  · split
    · dsimp only
      have h (c : Prop) [Decidable c] (r : InputRec) (x : InputId) (g : State → ClockState) :
          OnlyClock s (if c then enterSuspect x (occur 7 ((setInput n r s).setClock (g (setInput n r s)))) else setInput n r s) := by
        split
        · exact (((setInput_only _ _ _).trans (setClock_only _ _)).trans (occur_clock _ _)).trans (enterSuspect_only _ _)
        · exact setInput_only _ _ _
      exact h _ _ _ (fun t => { t.clock with inputs := t.clock.inputs.map (fun r => { r with disagree := 0 }) })
    · exact .refl s
  · exact .refl s

theorem countLock_only (n : InputId) (s : State) : OnlyClock s (countLock n s) := by
  unfold countLock
  dsimp only
  have h (c : Prop) [Decidable c] (x : ClockState) : OnlyClock s (if c then enterClock .locked (s.setClock x) else s.setClock x) := by
    split
    · exact (setClock_only _ _).trans (enterClock_only _ _)
    · exact setClock_only _ _
  exact h _ _

theorem setSecondCount_only (k : Option Nat) (s : State) : OnlyBlocks s (setSecondCount k s) := by
  unfold setSecondCount
  split
  · split
    · dsimp only
      split
      · exact (setClock_only _ _).blocks
      · exact (setClock_only _ _).blocks.trans (stepEvent_only _ _)
    · exact .refl s
  · exact .refl s

theorem stepClock_only (n : InputId) (e : Int) (k : Option Nat) (s : State) : OnlyBlocks s (stepClock n e k s) := by
  unfold stepClock dropSlew
  exact ((setClock_only _ _).trans (setClock_only _ _)).blocks.trans (stepEvent_only _ _)

theorem slewClock_only (n : InputId) (s : State) : OnlyClock s (slewClock n s) := rfl

theorem governPulse_only (n : InputId) (e : Int) (k : Option Nat) (s : State) : OnlyBlocks s (governPulse n e k s) := by
  have hrest (t : State) : OnlyBlocks t (if t.clock.mode = .acquiring ∨ t.clock.mode = .locked then slewClock n t else t) := by
    split
    · exact (slewClock_only _ _).blocks
    · exact .refl t
  have hlock (t : State) : OnlyBlocks t (judgeFit (if t.clock.mode = .acquiring then countLock n t else t)) := by
    refine OnlyBlocks.trans ?_ (judgeFit_only _).blocks
    split
    · exact (countLock_only _ _).blocks
    · exact .refl t
  unfold governPulse
  dsimp only
  split
  · split
    · exact ((regovern_only s).blocks.trans (judgeFit_only _).blocks).trans (stepClock_only _ _ _ _)
    · exact (((regovern_only s).blocks.trans (hlock _)).trans (setSecondCount_only _ _)).trans (hrest _)
  · exact (regovern_only s).blocks.trans (judgeFit_only _).blocks

theorem recordPulse_only (n : InputId) (e : Int) (b : Bool) (k : Option Nat) (s : State) : OnlyClock s (recordPulse n e b k s) :=
  rfl

/-- A pulse. -/
theorem pulseEffect_only (n : InputId) (s : State) : OnlyBlocks s (pulseEffect n s) := by
  have hcross (b : Bool) (t : State) : OnlyClock t (if b then crossCheck n t else t) := by
    split
    · exact crossCheck_only _ _
    · exact .refl t
  unfold pulseEffect
  split
  · exact ((((setInput_only n _ s).trans (filterPulse_only _ _ _)).trans (pulseTransition_only _ _ _ _)).trans
      (hcross _ _)).blocks.trans ((governPulse_only _ _ _ _).trans (recordPulse_only _ _ _ _ _).blocks)
  · exact .refl s

theorem missingTransition_only (n : InputId) (s : State) : OnlyClock s (missingTransition n s) := by
  unfold missingTransition
  dsimp only
  (repeat' split) <;> first
    | exact .refl s
    | exact (setInput_only _ _ _).trans (setInputMode_only _ _ _)
    | exact setInput_only _ _ _
    | exact enterSuspect_only _ _
    | exact enterDisqualified_only _ _

theorem missingEffect_only (n : InputId) (s : State) : OnlyBlocks s (missingEffect n s) := by
  unfold missingEffect
  split
  · exact ((setInput_only n _ s).trans (missingTransition_only _ _)).blocks.trans (regovernFit_only _)
  · exact .refl s

theorem suspectTimeoutEffect_only (n : InputId) (s : State) : OnlyBlocks s (suspectTimeoutEffect n s) := by
  unfold suspectTimeoutEffect
  dsimp only
  split
  · exact (enterDisqualified_only _ _).blocks.trans (regovernFit_only _)
  · exact .refl s

theorem secondBoundaryEffect_only (s : State) : OnlyBlocks s (secondBoundaryEffect s) := by
  unfold secondBoundaryEffect
  split
  · split
    · exact ((setClock_only _ s).trans (judgeGuard_only _)).blocks.trans (judgeFit_only _).blocks
    · exact (setClock_only _ s).blocks
  · exact .refl s

/-! ## The Clip Store (05) -/

theorem reportClip_only (n : Nat) (s : State) : OnlySplice s (reportClip n s) := by
  unfold reportClip
  dsimp only
  split <;> exact rfl

theorem verifyPacket_only (n : Nat) (s : State) (p : Packet) : OnlySplice s (verifyPacket n s p) := rfl

theorem endPass_only (n : Nat) (rest : List Nat) (s : State) : OnlySplice s (endPass n rest s) := by
  unfold endPass beginPass setQueue
  exact (((setClip_only _ _ s).trans (reportClip_only _ _)).trans (setClips_only _ _)).trans (setClips_only _ _)

theorem verificationEffect_only (s : State) : OnlySplice s (verificationEffect s) := by
  unfold verificationEffect
  split
  · exact .refl s
  · split
    · dsimp only
      split
      · exact (((fold_frame OnlySplice.refl OnlySplice.trans (verifyPacket_only _) _ s).trans (setClip_only _ _ _)).trans
          (setClips_only _ _)).trans (endPass_only _ _ _)
      · exact ((fold_frame OnlySplice.refl OnlySplice.trans (verifyPacket_only _) _ s).trans (setClip_only _ _ _)).trans
          (setClips_only _ _)
    · exact .refl s

theorem deleteClip_only (n : Nat) (s : State) : OnlySplice s (deleteClip n s) := by
  unfold deleteClip
  dsimp only
  split <;> exact rfl

theorem loadPacket_only (n : Nat) (s : State) (p : Packet) : OnlyFeed s (loadPacket n s p) := rfl

end Sys2Proof.Machine
end

