-- ==== Sys2Proof/Laws/Memory.lean ====
section
/-! SUPPORT. Attached memory: a write keeps the canonical form, a read of a written byte gives what was written, and every other byte
reads as before. -/

namespace Sys2Proof.Machine
open Sys2Proof

/-- The canonical form, said with the order of the addresses and their bound. -/
theorem Memory.wf_iff (m : Memory) :
    Memory.wf m = true ↔ m.Pairwise (fun c d => c.1 < d.1) ∧ ∀ c ∈ m, c.1 < Config.memoryBytes := by
  induction m with
  | nil => simp [Memory.wf]
  | cons c rest ih =>
    cases rest with
    | nil => simp [Memory.wf]
    | cons d rest =>
      simp only [Memory.wf, Bool.and_eq_true, decide_eq_true_eq, ih]
      constructor
      · rintro ⟨hcd, hp, hb⟩
        have hc : ∀ e ∈ d :: rest, c.1 < e.1 := by
          intro e he
          rcases List.mem_cons.mp he with rfl | he
          · exact hcd
          · exact lt_trans hcd ((List.pairwise_cons.mp hp).1 e he)
        refine ⟨List.pairwise_cons.mpr ⟨hc, hp⟩, ?_⟩
        intro e he
        rcases List.mem_cons.mp he with rfl | he
        · exact lt_trans hcd (hb d (List.mem_cons_self ..))
        · exact hb e he
      · rintro ⟨hp, hb⟩
        have := List.pairwise_cons.mp hp
        exact ⟨this.1 d (List.mem_cons_self ..), this.2, fun e he => hb e (List.mem_cons_of_mem _ he)⟩

theorem Memory.mem_cells {c : Host.Cell} {a : Nat} {bs : List Byte} (h : c ∈ Memory.cells a bs) :
    a ≤ c.1 ∧ c.1 < a + bs.length := by
  induction bs generalizing a with
  | nil => simp [Memory.cells] at h
  | cons b bs ih =>
    rcases List.mem_cons.mp h with rfl | h
    · simp
    · have := ih h
      simp only [List.length_cons]
      omega

theorem Memory.cells_pairwise (a : Nat) (bs : List Byte) : (Memory.cells a bs).Pairwise (fun c d => c.1 < d.1) := by
  induction bs generalizing a with
  | nil => exact List.Pairwise.nil
  | cons b bs ih =>
    refine List.pairwise_cons.mpr ⟨?_, ih (a + 1)⟩
    intro d hd
    have := Memory.mem_cells hd
    simp only
    omega

/-- A write keeps the canonical form. -/
theorem Memory.write_wf {m : Memory} (h : Memory.wf m = true) (a : Nat) (bs : List Byte) :
    Memory.wf (Memory.write m a bs) = true := by
  rw [Memory.wf_iff] at h ⊢
  obtain ⟨hp, hb⟩ := h
  have hcells : ∀ c ∈ Memory.cells a (bs.take (Config.memoryBytes - a)),
      a ≤ c.1 ∧ c.1 < a + bs.length ∧ c.1 < Config.memoryBytes := by
    intro c hc
    have := Memory.mem_cells hc
    simp only [List.length_take] at this
    omega
  unfold Memory.write
  refine ⟨?_, ?_⟩
  · rw [List.pairwise_append, List.pairwise_append]
    refine ⟨⟨hp.filter _, Memory.cells_pairwise _ _, ?_⟩, hp.filter _, ?_⟩
    · intro x hx y hy
      have hx := (List.mem_filter.mp hx).2
      have := hcells y hy
      simp only [decide_eq_true_eq] at hx
      omega
    · intro x hx y hy
      have hy := (List.mem_filter.mp hy).2
      simp only [decide_eq_true_eq] at hy
      rcases List.mem_append.mp hx with hx | hx
      · have hx := (List.mem_filter.mp hx).2
        simp only [decide_eq_true_eq] at hx
        omega
      · have := hcells x hx
        omega
  · intro c hc
    rcases List.mem_append.mp hc with hc | hc
    · rcases List.mem_append.mp hc with hc | hc
      · exact hb c (List.mem_filter.mp hc).1
      · exact (hcells c hc).2.2
    · exact hb c (List.mem_filter.mp hc).1

theorem Memory.read_append (m n : Memory) (x : Nat) :
    Memory.read (m ++ n) x = (Memory.read m x).or (Memory.read n x) := by
  induction m with
  | nil => simp [Memory.read]
  | cons c m ih =>
    simp only [List.cons_append, Memory.read]
    split
    · simp
    · exact ih

theorem Memory.read_none {m : Memory} {x : Nat} (h : ∀ c ∈ m, c.1 ≠ x) : Memory.read m x = none := by
  induction m with
  | nil => rfl
  | cons c m ih =>
    have hc := h c (List.mem_cons_self ..)
    simp [Memory.read, hc, ih (fun d hd => h d (List.mem_cons_of_mem _ hd))]

/-- A filter by address keeps the reads of the addresses it keeps. -/
theorem Memory.read_filter (m : Memory) (p : Nat → Bool) {x : Nat} (h : p x = true) :
    Memory.read (m.filter (fun c => p c.1)) x = Memory.read m x := by
  induction m with
  | nil => rfl
  | cons c m ih =>
    by_cases hc : c.1 = x
    · simp [Memory.read, hc, h]
    · by_cases hp : p c.1 = true
      · simp [Memory.read, hc, hp, ih]
      · simp [Memory.read, hc, hp, ih]

theorem Memory.read_cells (a : Nat) (bs : List Byte) (i : Nat) : Memory.read (Memory.cells a bs) (a + i) = bs[i]? := by
  induction bs generalizing a i with
  | nil => rfl
  | cons b bs ih =>
    cases i with
    | zero => simp [Memory.cells, Memory.read]
    | succ i =>
      have : a + (i + 1) = a + 1 + i := by omega
      simp [Memory.cells, Memory.read, this, ih]
      omega

/-- Every byte outside a written block reads as before. -/
theorem Memory.read_write_outside (m : Memory) (a : Nat) (bs : List Byte) {x : Nat} (h : x < a ∨ a + bs.length ≤ x) :
    Memory.read (Memory.write m a bs) x = Memory.read m x := by
  have hc : Memory.read (Memory.cells a (bs.take (Config.memoryBytes - a))) x = none := by
    apply Memory.read_none
    intro c hc
    have := Memory.mem_cells hc
    simp only [List.length_take] at this
    omega
  unfold Memory.write
  rw [Memory.read_append, Memory.read_append, hc]
  rcases h with h | h
  · have h2 : Memory.read (m.filter (fun c => a + bs.length ≤ c.1)) x = none := by
      apply Memory.read_none
      intro c hc
      have := (List.mem_filter.mp hc).2
      simp only [decide_eq_true_eq] at this
      omega
    have h1 := Memory.read_filter m (fun y => decide (y < a)) (x := x) (by simpa using h)
    rw [h2, h1]
    simp
  · have h1 : Memory.read (m.filter (fun c => c.1 < a)) x = none := by
      apply Memory.read_none
      intro c hc
      have := (List.mem_filter.mp hc).2
      simp only [decide_eq_true_eq] at this
      omega
    have h2 := Memory.read_filter m (fun y => decide (a + bs.length ≤ y)) (x := x) (by simpa using h)
    rw [h1, h2]
    simp

/-- A written byte reads as it was written. -/
theorem Memory.read_write_inside (m : Memory) (a : Nat) (bs : List Byte) {i : Nat} (h : i < bs.length)
    (hm : a + i < Config.memoryBytes) : Memory.read (Memory.write m a bs) (a + i) = bs[i]? := by
  have h1 : Memory.read (m.filter (fun c => c.1 < a)) (a + i) = none := by
    apply Memory.read_none
    intro c hc
    have := (List.mem_filter.mp hc).2
    simp only [decide_eq_true_eq] at this
    omega
  unfold Memory.write
  rw [Memory.read_append, Memory.read_append, h1, Memory.read_cells]
  have ht : (bs.take (Config.memoryBytes - a))[i]? = bs[i]? := by
    rw [List.getElem?_take]
    simp
    omega
  rw [ht, List.getElem?_eq_getElem h]
  simp

/-- Packets written leave every byte outside them as it was, and nothing but memory changed. -/
theorem writePackets_spec (s : State) (a : Nat) (ps : List Packet) :
    (∃ m, writePackets s a ps = s.setMem m) ∧
    ∀ x, x < a ∨ a + ps.flatten.length ≤ x → Memory.read (writePackets s a ps).mem x = Memory.read s.mem x :=
  ⟨⟨_, rfl⟩, fun _ hx => Memory.read_write_outside s.mem a ps.flatten hx⟩

/-- Packets written keep the canonical form. -/
theorem writePackets_wf {s : State} (h : Memory.wf s.mem = true) (a : Nat) (ps : List Packet) :
    Memory.wf (writePackets s a ps).mem = true := Memory.write_wf h a _

end Sys2Proof.Machine
end

