-- ==== Sys2Proof/Certificates/Slice0/Obligations.lean ====
section
/-! DEFINITION. The statements for the provers. `AfterEvent` and `AfterRequest` name what a command leaves; each statement gives them
the state that the command's own effect makes, so that what differs from it is exactly what they say. -/

section
open Sys2Proof Sys2Proof.Machine

/-! ## The queue, time, power and starts -/

/-- The command at the front of the queue is carried out on the state with the rest of the queue. The queue is the model's own (log 37).
-/
def Obligations.FrontCommandRuns : Prop :=
  ∀ (s : State) (c : Instr) (rest : List Instr), s.pending = c :: rest →
    Machine.step s = exec c { s with pending := rest }

/-- With no command waiting, one oscillator cycle passes: the correction and the slew each add or withhold at most one STU, and at most
one is withheld in all, so that site time never decreases (R1). The idle cycle is the model's choice (log 3). -/
def Obligations.IdleCycleNeverTurnsTimeBack : Prop :=
  ∀ s : State, Powered s → s.pending = [] → TimeOk s → s.clock.time + 3 < 18446744073709551616 →
    ∃ (add : Int) (pos left : Nat),
      -1 ≤ add ∧ add ≤ 2 ∧ left ≤ s.clock.slewLeft ∧
      Machine.step s = .next { s with clock := { s.clock with
        time := s.clock.time + 1 + add, cycles := s.clock.cycles + 1, slewPos := pos, slewLeft := left } }

/-- A start loads the stored contents, and every block takes its start values: the clock, both ports, the store, emission, the clips,
Splicing, the whole drive record with its latches, limits, runs, modules and counts, the alarm records, the alert line, the pins and the
lost flag, and the link (R23, R44, R67, R92, R109, R133, R155, R167, R182); with AUTO START emission enters ANCHORING (R69). Power on
with no intact stored contents gives the reset state, and a restart with none gives it with RESTART as the cause (R182); that nothing
has been stored is the model's choice for its reset (log 1), the sample values and the places of the ramp and sample clocks at a start
are the model's too, and so are the count of starts and the queue. -/
def Obligations.StartLoadsTheStore : Prop :=
  (∀ (s : State) (c : Contents), s.link.stored = some c →
    let started (cause : StartCause) (t : State) : Prop :=
      t.powered = true ∧ t.live = c.params ∧ t.clock = { corr := c.corr } ∧
      t.feed = { ports := c.params.feed.enabled.map (fun on => { mode := if on then .dark else .disabled }) } ∧
      t.store = {} ∧
      t.em =
        { mode := if c.params.em.autoStart then .anchoring else .off, mute := { host := c.hostMute }, offset := c.siteOffset } ∧
      t.clips = {} ∧
      t.splice = { services := c.services, plans := c.plans,
                   offsets := (c.services.flatMap Service.streams).map (fun x => { stream := x }) } ∧
      t.drive =
        { mode := .standby, level := 0, line := 0, power := c.power, directive := 1000, rfEnabled := c.rfEnabled, compTheta := 4095,
          effTheta := 4095, compRho := 4095, effRho := 4095, ceiling := ceilingOf t, supply := .unjudged, reflLatch := false,
          shutLatch := false, retries := 0, retryEnd := none, steadySince := none, reflRun := 0, warn := false, lowRun := 0,
          forward := 0, reflected := 0, temperature := 0, supplySample := 0, counts := {}, rampTicks := 0, samplesTaken := 0,
          modules := t.drive.modules } ∧
      (∀ n, t.drive.modules.get n =
        { latchedOff := false, overRun := 0, opened := 0, current := 0, enable := decide (n.num ≤ c.params.drive.installed) }) ∧
      t.alarms =
        { epoch := 0, records := List.replicate 36 { latched := false, setEpoch := 0, count := 0 }, notices := [], lost := false,
          alert := false, pins := c.params.alarm.lines.map (fun l => pinOf l (l.source == 0 && l.direct)) } ∧
      t.link =
        { rx := .hunt, rxLast := 0, queue := [], reply := none, tx := t.link.tx, lastSent := t.link.lastSent, protocolError := false,
          startFlag := true, cause := cause, source := .store, held := c, stored := some c, busy := none, restart := .none,
          rate := c.params.lineRate, rateNew := none, rateDue := none } ∧
      t.mem = [] ∧ t.pending = s.pending
    (s.link.busy = none → ∃ t, exec .powerOn s = .next t ∧ started .powerOn t) ∧
    (Powered s → s.link.restart = .due → ∃ t, exec .restartStart s = .next t ∧ started .restart t)) ∧
  (∀ s : State, (s.link.stored = none ∨ s.link.busy.isSome = true) →
    exec .powerOn s = .next { State.reset with starts := s.starts + 1, pending := s.pending }) ∧
  (∀ s : State, Powered s → s.link.restart = .due → s.link.stored = none →
    exec .restartStart s = .next
      { State.reset with
        link := { State.reset.link with cause := .restart }, starts := s.starts + 1, pending := s.pending })

/-- When power fails, a write in progress leaves no intact contents (R180). That the part then holds still, doing nothing until power
returns, is the model's choice (log 21). -/
def Obligations.PowerLossStopsEverything : Prop :=
  (∀ s : State, exec .powerFail s = .next
    { s with
      powered := false
      link := { s.link with stored := if s.link.busy.isSome then none else s.link.stored, busy := none } }) ∧
  (∀ (s : State) (c : Instr), s.powered = false → c ≠ .powerOn → c ≠ .powerFail → exec c s = .next s) ∧
  (∀ s : State, s.powered = false → s.pending = [] → Machine.step s = .next s)

/-! ## Invariants -/

/-- The reset state meets every invariant. -/
def Obligations.ResetMeetsEveryInvariant : Prop :=
  MemoryOk State.reset ∧ TimeOk State.reset ∧ ClockOk State.reset ∧ DriveOk State.reset ∧ LinesOk State.reset ∧
  EpochsOk State.reset ∧ SizesOk State.reset ∧ SlotsOk State.reset ∧ ClipsOk State.reset ∧ UseOk State.reset ∧ CuesOk State.reset

/-- Attached memory keeps its canonical form at every step: addresses rise strictly and lie in its 268,435,456 bytes (00). The form, and
that a byte which nothing has written has a free value, are the model's choice (logs 2 and 33). -/
def Obligations.StepKeepsMemoryCanonical : Prop :=
  ∀ s t : State, MemoryOk s → Machine.step s = .next t → MemoryOk t

/-- Site time stays an unsigned 64-bit number, and the clock state keeps its table (01, section 1.5): a governing input exactly in
ACQUIRING and LOCKED, u 0 in LOCKED and maximal in FREE and ACQUIRING (R18). -/
def Obligations.StepKeepsClockTable : Prop :=
  ∀ s t : State, TimeOk s ∧ ClockOk s → Machine.step s = .next t → TimeOk t ∧ ClockOk t

/-- The drive level never exceeds the ceiling (R138), is 0 outside RAMPING and STEADY and equal to the ceiling in STEADY (R140), and is
0 whenever the drive is not permitted (R139). -/
def Obligations.StepKeepsDriveSafe : Prop :=
  ∀ s t : State, DriveOk s → Machine.step s = .next t → DriveOk t

/-- The alert line and the four pins are at every step as the latches, the enables and the sources give them (R162, R165, R166), and no
set-epoch of a latched item falls 2^31 or more behind the epoch (R158). -/
def Obligations.StepKeepsAlarmLines : Prop :=
  ∀ s t : State, LinesOk s ∧ EpochsOk s → Machine.step s = .next t → LinesOk t ∧ EpochsOk t

/-- Every queue and table stays within its size: 4 requests (R171), 16 notices (R163), 16 cues (R110), 16 services in ascending order
and 32 plans (05), 64 slots (R45), 32 clip records, 36 alarm records. -/
def Obligations.StepKeepsTableSizes : Prop :=
  ∀ s t : State, SizesOk s → Machine.step s = .next t → SizesOk t

/-- A HELD or TAKEN slot's sequence number, taken modulo 64, equals the slot's index at every step (R45). -/
def Obligations.StepKeepsSlotIndex : Prop :=
  ∀ s t : State, SlotsOk s → Machine.step s = .next t → SlotsOk t

/-- Clip extents stay apart and inside the clip region (R96), the verification queue holds VERIFYING clips and none twice (05, section
5.3), and a clip's use count is the number of channels ARMED or ACTIVE with it, a clip in use being READY (R104). -/
def Obligations.StepKeepsClipsAndUseCounts : Prop :=
  ∀ s t : State, ClipsOk s ∧ UseOk s → Machine.step s = .next t → ClipsOk t ∧ UseOk t

/-- At every step there is at most one cue entry for each avail id (R110), at most one bound channel for each service (R118), and bound
entries and bound channels name each other. -/
def Obligations.StepKeepsCueTable : Prop :=
  ∀ s t : State, CuesOk s → Machine.step s = .next t → CuesOk t

/-! ## The control link -/

/-- Every well-formed request, sent byte by byte as one frame of section 9.2 to a receiver in HUNT, is the request that its command
stands for (R169, R171, R184, 10.4): the receiver finds the frame complete, and the owner reads the parameters that were sent. -/
def Obligations.FramedRequestIsItsCommand : Prop :=
  ∀ (s : State) (i : Instr) (r : Request), Powered s → s.link.rx = .hunt → i.WellFormed = true → requestOf i = some r →
    exec (.requestFrame (linkFrame r.kind r.tag r.body)) s =
      exec i { s with link := { s.link with rxLast := s.clock.cycles } }

/-- The frame errors of R169: a bad length is found at the second length byte, a bad CRC at the second CRC byte, and a gap when 200,000
cycles pass; each sets the protocol-error flag and returns the receiver to HUNT, and nothing is answered. A byte other than 0xA5 is
discarded in HUNT and does not set the flag. -/
def Obligations.FrameErrorsSetTheFlag : Prop :=
  ∀ s : State, Powered s →
    (∀ high low : Byte, s.link.rx = .hunt → fromBE [high, low] < 2 ∨ 1026 < fromBE [high, low] →
      ∃ t, exec (.requestFrame [0xA5, high, low]) s = .next t ∧
        AfterEvent [] { s with link := { s.link with rxLast := s.clock.cycles, protocolError := true } } t) ∧
    (∀ (kind tag : Byte) (body : List Byte) (c d : Byte), s.link.rx = .hunt → body.length ≤ 1024 →
      fromBE [c, d] ≠ (crc16 (be 2 (body.length + 2) ++ [kind, tag] ++ body)).toNat →
      ∃ t, exec (.requestFrame ([0xA5] ++ be 2 (body.length + 2) ++ [kind, tag] ++ body ++ [c, d])) s = .next t ∧
        AfterEvent [] { s with link := { s.link with rxLast := s.clock.cycles, protocolError := true } } t) ∧
    (s.link.rx ≠ .hunt → s.link.rxLast + 200000 ≤ s.clock.cycles →
      ∃ t, exec .gapExpiry s = .next t ∧
        AfterEvent [] { s with link := { s.link with rx := .hunt, protocolError := true } } t) ∧
    (∀ b : Byte, s.link.rx = .hunt → b ≠ 0xA5 →
      ∃ t, exec (.requestFrame [b]) s = .next t ∧
        AfterEvent [] { s with link := { s.link with rxLast := s.clock.cycles } } t)

/-- A complete request that is not dispatched at once joins the queue while it holds fewer than 4 requests; with 4 in the queue it is
discarded without a reply, and the protocol-error flag is set (R171). -/
def Obligations.RequestQueueHoldsFour : Prop :=
  ∀ (s : State) (i : Instr) (r : Request), requestOf i = some r → Powered s → linkFree s = false →
    (s.link.queue.length < 4 → ∃ t, exec i s = .next t ∧
      AfterEvent [] { s with link := { s.link with queue := s.link.queue ++ [r] } } t) ∧
    (4 ≤ s.link.queue.length → ∃ t, exec i s = .next t ∧
      AfterEvent [] { s with link := { s.link with protocolError := true } } t)

/-- A kind that 10.4 does not list is answered UNKNOWN (R172, R184). A listed request whose body does not have exactly the length of its
fixed layout, or, with a counted layout (DEFINE SERVICE, CLIP DATA, PLAN SET), does not reach its count byte or is not as long as that
count makes it, is answered BAD_PARAMETER, and its owner does not act (R172, R184). -/
def Obligations.UnknownAndMisfitRequests : Prop :=
  ∀ (s : State) (kind tag : Byte) (body : List Byte), Ready s →
    let fixedLayouts : List (Nat × Nat) :=
      [(0x01, 0), (0x02, 0), (0x03, 0), (0x04, 0), (0x05, 2), (0x06, 6), (0x07, 0), (0x08, 0), (0x10, 0), (0x11, 0), (0x12, 1), (0x13, 1),
       (0x18, 2), (0x19, 1), (0x1A, 1), (0x1B, 0), (0x20, 0), (0x21, 0), (0x22, 0), (0x23, 0), (0x24, 0), (0x25, 4), (0x26, 1), (0x29, 2),
       (0x2A, 0), (0x30, 9), (0x32, 5), (0x33, 1), (0x34, 1), (0x35, 1), (0x39, 5), (0x3A, 1), (0x40, 9), (0x41, 1), (0x42, 1), (0x43, 1),
       (0x48, 0), (0x49, 0), (0x4A, 2), (0x4B, 0), (0x4C, 1), (0x4D, 1), (0x50, 0), (0x51, 9)]
    let misfit : Prop := body.length ≤ 1024 → s.link.rx = .hunt →
      ∃ t, exec (.requestFrame (linkFrame kind tag body)) s = .next t ∧ Replied t kind tag .badParameter [] ∧
        AfterRequest [] { s with link := { s.link with rxLast := s.clock.cycles } } t
    (kind.toNat ∉ requestKinds → ∃ t, exec (.unknownKind kind tag body) s = .next t ∧
      Replied t kind tag .unknown [] ∧ AfterRequest [] s t) ∧
    (∀ length, (kind.toNat, length) ∈ fixedLayouts → body.length ≠ length → misfit) ∧
    (kind = 0x28 → body.length ≤ 3 ∨ body.length ≠ 4 + 2 * (body.getD 3 0).toNat → misfit) ∧
    (kind = 0x31 → body.length ≤ 1 ∨ body.length ≠ 2 + 188 * (body.getD 1 0).toNat → misfit) ∧
    (kind = 0x38 → body.length ≤ 8 ∨ body.length ≠ 9 + 4 * (body.getD 8 0).toNat → misfit)

/-- The forms of R185: a reply frame carries the request's kind with bit 7 set, its tag, a length of 7 plus the owner's body, the result
code, the status summary and the owner's body; a notice frame carries the notice's kind code, a tag of 0 and the notice body alone.
Request kinds lie in 0x01 to 0x51 and notice kinds in 0xF0 to 0xF7. -/
def Obligations.ReplyAndNoticeFrames : Prop :=
  (∀ (s : State) (kind tag : Byte) (r : Result) (body : List Byte), r = .ok ∨ r = .adjusted →
    replyFrame s kind tag r body =
      let content := be 2 (7 + body.length) ++ [kind ||| 0x80, tag, BitVec.ofNat 8 (resultCode r)] ++ statusSummary s ++ body
      [0xA5] ++ content ++ be 2 (crc16 content).toNat) ∧
  (∀ (s : State) (kind tag : Byte) (r : Result) (body : List Byte), r ≠ .ok → r ≠ .adjusted →
    replyFrame s kind tag r body =
      let content := be 2 7 ++ [kind ||| 0x80, tag, BitVec.ofNat 8 (resultCode r)] ++ statusSummary s
      [0xA5] ++ content ++ be 2 (crc16 content).toNat) ∧
  (∀ (s : State) (n : Notice) (rest : List Notice), (sendNotice s n rest).link.tx = some ⟨false,
      let content := be 2 (n.body.length + 2) ++ [n.kind, 0] ++ n.body
      [0xA5] ++ content ++ be 2 (crc16 content).toNat⟩) ∧
  (∀ k ∈ requestKinds, 0x01 ≤ k ∧ k ≤ 0x51) ∧
  (∀ k, k < 8 → (noticeKind k).toNat = 0xF0 + k)

/-- The transmitter (R171, R174). With it free, the reply to a request that is dispatched starts at once, where no notice waits. At the
end of a transmission, with no restart asked for and no line rate due: a notice has left and a reply waits, and the reply starts,
whatever notices wait; a notice has left and no reply waits, and the next notice starts, or nothing; a reply has left and no request
waits, and the reply buffer empties and the head notice starts, or nothing; a reply has left and an IDENTIFY heads the queue, and it is
dispatched at that instant: where a notice waits beside its reply the notice starts, since a reply was sent last, and where none waits
its reply starts. A command may itself queue a DRIVE notice (R139, R152), and DRIVE notices are off where a clause says that no notice
waits. -/
def Obligations.TransmitterTakesTurns : Prop :=
  ∀ s : State, Powered s → s.link.restart = .none → s.link.rateDue = none →
    (∀ sent reply, s.link.tx = some ⟨false, sent⟩ → s.link.reply = some reply → s.link.lastSent = .notice →
      ∃ t, exec .transmitComplete s = .next t ∧ AfterEvent [] { s with link := { s.link with tx := none } } t ∧
        t.link.tx = some ⟨true, reply⟩ ∧ t.link.lastSent = .reply) ∧
    (∀ (sent : List Byte) (n : Notice) (rest : List Notice), s.link.tx = some ⟨true, sent⟩ → s.link.lastSent = .reply →
      s.link.queue = [] → s.link.rateNew = none → s.alarms.notices = n :: rest →
      ∃ t, exec .transmitComplete s = .next t ∧
        AfterEvent [] { s with link := { s.link with tx := none, reply := none } } t ∧
        t.link.tx = some ⟨false, linkFrame n.kind 0 n.body⟩ ∧ t.link.lastSent = .notice) ∧
    (∀ (sent : List Byte) (tag : Byte) (rest : List Request), s.link.tx = some ⟨true, sent⟩ → s.link.rateNew = none →
      s.link.queue = ⟨0x01, tag, []⟩ :: rest →
      ∃ t, exec .transmitComplete s = .next t ∧ Replied t 0x01 tag .ok identifyBody ∧ t.link.queue = rest ∧
        (∀ (n : Notice) (others : List Notice), s.link.lastSent = .reply → s.alarms.notices = n :: others →
          t.link.tx = some ⟨false, linkFrame n.kind 0 n.body⟩ ∧ t.link.lastSent = .notice) ∧
        (s.alarms.notices = [] → noticeEnabled s 6 = false →
          ∃ reply, t.link.reply = some reply ∧ t.link.tx = some ⟨true, reply⟩ ∧ t.link.lastSent = .reply)) ∧
    (∀ (sent : List Byte) (n : Notice) (rest : List Notice), s.link.tx = some ⟨false, sent⟩ → s.link.reply = none →
      s.link.queue = [] → s.alarms.notices = n :: rest →
      ∃ t, exec .transmitComplete s = .next t ∧ AfterEvent [] { s with link := { s.link with tx := none } } t ∧
        t.link.tx = some ⟨false, linkFrame n.kind 0 n.body⟩ ∧ t.link.lastSent = .notice ∧
        (noticeEnabled s 6 = false → t.alarms.notices = rest)) ∧
    (∀ (sent : List Byte) (isReply : Bool), s.link.tx = some ⟨isReply, sent⟩ → isReply = true ∨ s.link.reply = none →
      s.link.queue = [] → s.link.rateNew = none → s.alarms.notices = [] → noticeEnabled s 6 = false →
      ∃ t, exec .transmitComplete s = .next t ∧
        AfterEvent [] { s with link := { s.link with tx := none, reply := none } } t ∧ t.link.tx = none) ∧
    (∀ tag : Byte, linkFree s = true → s.link.tx = none → s.alarms.notices = [] → noticeEnabled s 6 = false →
      ∃ t reply, exec (.identify tag) s = .next t ∧ AfterRequest [] s t ∧ t.link.reply = some reply ∧
        t.link.tx = some ⟨true, reply⟩ ∧ t.link.lastSent = .reply)

/-- The start flag is set at power-on and at RESTART, every reply's status summary carries it, and ACK START clears it, answering OK
with the flag clear in its own summary (R176). -/
def Obligations.StartFlagAndAckStart : Prop :=
  (∀ s t : State, exec .powerOn s = .next t → t.link.startFlag = true) ∧
  (∀ s t : State, Powered s → s.link.restart = .due → exec .restartStart s = .next t → t.link.startFlag = true) ∧
  (∀ (s : State) (kind tag : Byte) (r : Result) (body : List Byte),
    ((replyFrame s kind tag r body).getD 6 0).getLsbD 1 = s.link.startFlag) ∧
  (∀ (s : State) (tag : Byte), Ready s →
    ∃ t summary, exec (.ackStart tag) s = .next t ∧ summary.length = 4 ∧ (summary.getD 0 0).getLsbD 1 = false ∧
      t.link.reply = some (linkFrame 0x83 tag ([0] ++ summary)) ∧
      AfterRequest [] { s with link := { s.link with startFlag := false } } t)

/-- RESTART while the store is not busy replies OK and restarts the part when that reply has left; while it is busy the reply is BUSY
and nothing changes (R177). SET SETTING of the line rate keeps the old rate in use while its reply goes out (R168). When that reply has
left, the new rate is due and nothing more is sent or dispatched before it is in use; LINE_RATE_APPLY puts it in use, and dispatches the
request that heads the queue, so that a STATUS which waited reports the new rate. That the rate is put in use by a command of its own is
the model's reading (log 27). -/
def Obligations.RestartAndLineRateFollowTheReply : Prop :=
  ∀ s : State,
    (∀ tag : Byte, Ready s → s.link.busy = none →
      ∃ t, exec (.restart tag) s = .next t ∧ Replied t 0x04 tag .ok [] ∧
        AfterRequest [] { s with link := { s.link with restart := .afterReply } } t) ∧
    (∀ tag : Byte, Ready s → s.link.busy.isSome = true →
      ∃ t, exec (.restart tag) s = .next t ∧ Replied t 0x04 tag .busy [] ∧ AfterRequest [] s t) ∧
    (∀ sent : List Byte, Powered s → s.link.tx = some ⟨true, sent⟩ → s.link.restart = .afterReply → s.link.rateNew = none →
      ∃ t, exec .transmitComplete s = .next t ∧
        AfterEvent [] { s with link := { s.link with tx := none, reply := none, restart := .due } } t ∧ t.link.tx = none) ∧
    (∀ (tag : Byte) (rate : BitVec 32), Ready s → rate.toNat ∈ [9600, 19200, 57600, 115200, 230400, 460800, 921600] →
      s.live.lineRate ≠ rate.toNat →
      ∃ t, exec (.setSetting tag 0x0700 rate) s = .next t ∧ Replied t 0x06 tag .ok (be 4 rate.toNat) ∧
        AfterRequest [] { s with
          live := { s.live with lineRate := rate.toNat }, link := { s.link with rateNew := some rate.toNat } } t ∧
        t.link.rate = s.link.rate) ∧
    (∀ (sent : List Byte) (r : Nat), Powered s → s.link.tx = some ⟨true, sent⟩ → s.link.rateNew = some r → s.link.restart = .none →
      ∃ t, exec .transmitComplete s = .next t ∧
        AfterEvent [] { s with link := { s.link with tx := none, reply := none, rateNew := none, rateDue := some r } } t ∧
        t.link.tx = none) ∧
    (∀ r : Nat, Powered s → s.link.rateDue = some r →
      (s.link.queue = [] →
        ∃ t, exec .lineRateApply s = .next t ∧
          AfterEvent [] { s with link := { s.link with rate := r, rateDue := none } } t) ∧
      (∀ (tag : Byte) (rest : List Request), s.link.queue = ⟨0x02, tag, []⟩ :: rest → s.link.reply = none → s.link.restart = .none →
        ∃ t, exec .lineRateApply s = .next t ∧ t.link.queue = rest ∧ t.link.rate = r ∧
          Replied t 0x02 tag .ok
            (be 5 (s.clock.time / 10000000) ++ be 4 (s.clock.time % 10000000) ++
              [if s.link.cause = .restart then 1 else 0, if s.link.source = .factory then 1 else 0] ++
              be 4 s.link.held.count.toNat ++ be 1 rest.length ++ be 1 s.alarms.notices.length ++ be 4 r ++
              be 4 s.alarms.epoch.toNat)))

/-! ## Settings -/

/-- COMMIT SETTINGS takes the snapshot that R180 lists and makes the store busy; while it is busy the reply is BUSY. The completion
makes the snapshot the stored and the held contents, and ends the busy state (R180). It offers one SETTINGS notice: enabled, it joins
the end of a notice queue of fewer than 16, and with 16 waiting it is discarded and the notices-lost flag is set (R163); a reply that
reports the flag clears it (R164). So that the notices of this command are seen apart, the transmitter is taken and DRIVE notices are
off in that clause. -/
def Obligations.CommitTakesASnapshot : Prop :=
  ∀ (s : State) (tag : Byte),
    (Ready s → s.link.busy = none →
      let taken : Contents :=
        { params := s.live, power := s.drive.power, rfEnabled := s.drive.rfEnabled, hostMute := s.em.mute.host,
          siteOffset := s.em.pendingOffset.getD s.em.offset, corr := s.clock.corr, services := s.splice.services,
          plans := s.splice.plans, count := s.link.held.count + 1 }
      ∃ t, exec (.commitSettings tag) s = .next t ∧ Replied t 0x07 tag .ok (be 4 (s.link.held.count + 1).toNat) ∧
        AfterRequest [] { s with link := { s.link with busy := some taken } } t ∧ t.alarms.lost = false) ∧
    (Ready s → s.link.busy.isSome = true →
      ∃ t, exec (.commitSettings tag) s = .next t ∧ Replied t 0x07 tag .busy [] ∧ AfterRequest [] s t) ∧
    (∀ c, Powered s → s.link.busy = some c →
      ∃ t, exec .commitCompletion s = .next t ∧
        AfterEvent [] { s with link := { s.link with stored := some c, held := c, busy := none } } t ∧
        (s.link.tx.isSome = true → noticeEnabled s 6 = false →
          let fits := s.alarms.notices.length < 16
          let offered := noticeEnabled s 7
          (offered = true → fits → t.alarms.notices = s.alarms.notices ++ [⟨0xF7, be 4 c.count.toNat⟩] ∧
            t.alarms.lost = s.alarms.lost) ∧
          (offered = true → ¬ fits → t.alarms.notices = s.alarms.notices ∧ t.alarms.lost = true) ∧
          (offered = false → t.alarms.notices = s.alarms.notices ∧ t.alarms.lost = s.alarms.lost)))

/-- With emission OFF and the store not busy, REVERT SETTINGS returns every setting to its held value and leaves none (R181). While the
store is busy it replies BUSY and changes nothing. -/
def Obligations.RevertRestoresTheHeldSettings : Prop :=
  ∀ (s : State) (tag : Byte), Ready s →
    (s.link.busy = none → s.em.mode = .off → s.live.alarm.report.length = 36 → s.live.alarm.notice.length = 8 →
      s.link.held.params.alarm.report.length = 36 → s.link.held.params.alarm.notice.length = 8 →
      ∃ t written, exec (.revertSettings tag) s = .next t ∧ t.live = s.link.held.params ∧
        Replied t 0x08 tag .ok (be 2 (written : Nat) ++ be 1 0) ∧
        t.drive.power = s.drive.power ∧ t.drive.rfEnabled = s.drive.rfEnabled ∧ t.em.mute.host = s.em.mute.host ∧
        t.em.offset = s.em.offset ∧ t.em.pendingOffset = s.em.pendingOffset ∧ t.clock.corr = s.clock.corr ∧
        t.splice.services = s.splice.services ∧ t.splice.plans = s.splice.plans ∧ t.link.held = s.link.held ∧
        t.link.stored = s.link.stored) ∧
    (s.link.busy.isSome = true →
      ∃ t, exec (.revertSettings tag) s = .next t ∧ Replied t 0x08 tag .busy [] ∧ AfterRequest [] s t)

/-- SET SETTING puts the value, clamped into its range, in force, and replies with the value held, OK or, after a clamp, ADJUSTED; the
alert line and the pins follow at once (R156, R162, R165). GET SETTING replies OK with the live value and changes nothing. The refusals,
in the order of the checks: an id that names no setting, a code that is not one of the setting's codes, and a setting of R89 while
emission is not OFF; then nothing changes (R179). That this last refusal also meets a write of the value already held is the model's
choice (log 56). What the owners make of a write of another value: an input's enabled flag and its priority (R10, R12; what
chooseGoverning chooses is said in SelectReferenceForces), a port's enabled setting (R24), the frame period at both ports and on the
free grid (R34, R35, R80), and the installed module count (R135, R138). A port that is DISABLED while its setting says so, and one that
is not while it does not, is the premise of the port clause. There R24 keeps the degrade and recover counts of a port that is disabled,
and R38 sets both to 0 at every change of state: that the change to DISABLED zeroes them is the model's choice (log 18), and so is the
assembly phase HUNTING of a port that is not aligned (log 44). -/
def Obligations.SettingsAreWrittenAndRead : Prop :=
  (∀ (s : State) (tag : Byte) (id : BitVec 16) (x : Setting), Ready s → settingOf (groupOf id) (indexOf id) = some x →
    (∀ (value : BitVec 32) (v : Int), judgeValue x.values value.toInt = some v →
      (needsOff (groupOf id) (indexOf id) = true → s.em.mode = .off) → s.live.alarm.report.length = 36 →
      s.live.alarm.notice.length = 8 →
      ∃ t, exec (.setSetting tag id value) s = .next t ∧ x.get t.live = v ∧
        Replied t 0x06 tag (if v = value.toInt then .ok else .adjusted) (be 4 v) ∧ LinesOk t) ∧
    (∃ t, exec (.getSetting tag id) s = .next t ∧ Replied t 0x05 tag .ok (be 4 (x.get s.live)) ∧ AfterRequest [] s t)) ∧
  (∀ (s : State) (tag : Byte) (id : BitVec 16) (value : BitVec 32), Ready s →
    (settingOf (groupOf id) (indexOf id) = none →
      (∃ t, exec (.setSetting tag id value) s = .next t ∧ Replied t 0x06 tag .notFound [] ∧ AfterRequest [] s t) ∧
      (∃ t, exec (.getSetting tag id) s = .next t ∧ Replied t 0x05 tag .notFound [] ∧ AfterRequest [] s t)) ∧
    (∀ x, settingOf (groupOf id) (indexOf id) = some x → judgeValue x.values value.toInt = none →
      ∃ t, exec (.setSetting tag id value) s = .next t ∧ Replied t 0x06 tag .badParameter [] ∧ AfterRequest [] s t) ∧
    (∀ x v, settingOf (groupOf id) (indexOf id) = some x → judgeValue x.values value.toInt = some v →
      needsOff (groupOf id) (indexOf id) = true → s.em.mode ≠ .off →
      ∃ t, exec (.setSetting tag id value) s = .next t ∧ Replied t 0x06 tag .refusedState [] ∧ AfterRequest [] s t)) ∧
  (∀ (s : State) (tag : Byte), Ready s →
    let sets (id : Nat) (value : Nat) (t : State) : Prop :=
      exec (.setSetting tag (BitVec.ofNat 16 id) (BitVec.ofNat 32 value)) s = .next t
    (∀ n : InputId, s.live.clock.enabled.get n = true →
      ∃ t, sets (0x0112 + n.num) 0 t ∧ t.live.clock.enabled.get n = false ∧
        t.clock.inputs = s.clock.inputs.set n { s.clock.inputs.get n with mode := .absent, lastPulse := none } ∧
        ((s.clock.inputs.get n).mode ≠ .absent → t.clock.forced ≠ some n) ∧ t.clock.governing = chooseGoverning t) ∧
    (∀ n : InputId, s.live.clock.enabled.get n = false →
      ∃ t, sets (0x0112 + n.num) 1 t ∧ t.live.clock.enabled.get n = true ∧
        t.clock.inputs = s.clock.inputs.set n { s.clock.inputs.get n with mode := .absent }) ∧
    (∀ (n : InputId) (p : Nat), 1 ≤ p → p ≤ 3 → s.live.clock.priority.get n ≠ p →
      ∃ t, sets (0x0115 + n.num) p t ∧ t.live.clock.priority.get n = p ∧ t.clock.inputs = s.clock.inputs ∧
        (∀ m, m ≠ n → t.live.clock.priority.get m =
          if s.live.clock.priority.get m = p then s.live.clock.priority.get n else s.live.clock.priority.get m) ∧
        t.clock.governing = chooseGoverning t) ∧
    (∀ (p : PortId) (on : Bool), s.live.feed.enabled.get p = !on →
      let x := s.feed.ports.get p
      let live : Params := { s.live with feed := { s.live.feed with enabled := s.live.feed.enabled.set p on } }
      let made : PortRec :=
        if on then { x with mode := .dark, lastByte := s.clock.cycles, degrade := 0, recover := 0 }
        else
          { x with
            mode := .disabled, runs := List.replicate 188 0, phase := 0, packetPhase := none, firstByte := none, wrongSync := 0,
            assembling := false, opened := none, continuity := [], deadline := none, degrade := 0, recover := 0 }
      x.mode ≠ made.mode →
      ∃ t, sets (0x01FF + p.num) (if on then 1 else 0) t ∧
        AfterRequest [] { s with live := live, feed := { s.feed with ports := s.feed.ports.set p made } } t) ∧
    (∀ f : Nat, s.em.mode = .off → 100000 ≤ f → f ≤ 10000000 → s.live.em.period ≠ f →
      ∃ t, sets 0x0300 f t ∧ t.live = { s.live with em := { s.live.em with period := f } } ∧
        t.em = { s.em with origin := s.clock.time, freePeriod := 0, freePacket := 0 } ∧ t.store = s.store ∧
        ∀ p, t.feed.ports.get p =
          let x := s.feed.ports.get p
          if isAligned x.mode then
            { x with
              assembling := false, opened := none,
              continuity := (feedStreams s).map (fun stream => (stream, (x.continuity.lookup stream).join)),
              deadline := x.deadline.map (fun _ => s.clock.time + 2 * f) }
          else x) ∧
    (∀ count : Nat, 1 ≤ count → count ≤ 4 → s.live.drive.installed ≠ count →
      ∃ t, sets 0x0500 count t ∧ t.live = { s.live with drive := { s.live.drive with installed := count } } ∧
        t.drive.ceiling = ceilingOf t ∧ (LevelOk s → LevelOk t) ∧
        ∀ n, t.drive.modules.get n =
          let m := s.drive.modules.get n
          if decide (n.num ≤ count) = decide (n.num ≤ s.live.drive.installed) then m
          else { latchedOff := false, overRun := 0, opened := 0, current := m.current, enable := decide (n.num ≤ count) }))

/-! ## Reports -/

/-- The reports without a clear parameter reply OK with their body, and change nothing (R175, R21, R22, R66, R95, R105, R108, R132,
R159); a clip above 31, a start index above 31 and a channel outside 1 to 4 are BAD_PARAMETER. Each body is written out in the order and
the bytes of its rule; PLAN LIST lists the plans by exact key and then by any-avail key, each ascending (R108). The free positions and
the longest free run of CLIP STATUS are counted where the extents lie apart and inside the clip region. The slew in CLOCK STATUS is what
is not yet applied (log 34); the last raw error and ε256 are sent in their low 32 bits (logs 43 and 50), and the second in its low 40
bits (log 51). -/
def Obligations.PlainReportsChangeNothing : Prop :=
  ∀ (s : State) (tag : Byte), Ready s →
    let answers (c : Instr) (kind : Byte) (body : List Byte) : Prop :=
      ∃ t, exec c s = .next t ∧ Replied t kind tag .ok body ∧ AfterRequest [] s t
    let flag (b : Bool) : List Byte := [if b then 1 else 0]
    let instant : List Byte := be 5 (s.clock.time / 10000000) ++ be 4 (s.clock.time % 10000000)
    let input (n : InputId) : List Byte :=
      let r := s.clock.inputs.get n
      flag (s.live.clock.enabled.get n) ++ be 1 (s.live.clock.priority.get n) ++ be 1 (inputCode r.mode) ++ be 4 r.rawErr ++
        be 4 r.eps ++ be 1 r.good ++ be 1 r.missing ++ be 1 r.disagree ++
        (match r.lastPulse with | some p => be 8 (s.clock.time - p) | none => List.replicate 8 0xFF) ++
        (match r.lastSecond with | some k => be 5 k | none => List.replicate 5 0xFF)
    let heldFields (h : Held) : List Byte :=
      be 1 h.source.num ++ [match h.quality with | .clean => 1 | .flawed => 2] ++ be 1 h.cues.length ++ be 1 h.directives.length ++
        be 4 (h.emission - h.arrival)
    let slot (x : Slot) : List Byte :=
      match x with
      | .free => List.replicate 11 0
      | .held h => [1] ++ be 2 h.seq.toNat ++ heldFields h
      | .taken seq (some h) => [2] ++ be 2 seq.toNat ++ heldFields h
      | .taken seq none => [3] ++ be 2 seq.toNat ++ List.replicate 8 0
    let clip (n : Nat) : List Byte :=
      let c := clipRec s n
      if c.mode = .empty then List.replicate 39 0
      else
        be 1 (clipCode c.mode) ++ be 2 c.frames ++ be 2 c.perFrame ++ be 4 c.base ++ be 4 c.length ++ be 4 c.writePos ++
          be 4 c.highWater ++ be 2 c.wraps ++ be 4 c.expected.toNat ++ be 4 (c.computed.getD 0).toNat ++ be 1 (rejectionCode c.reason) ++
          be 4 c.verified ++ be 1 (match s.clips.queue.idxOf? n with | some i => i + 1 | none => 0 : Nat) ++ be 1 c.uses ++
          be 1 c.streams.length ++ c.streams.flatMap (fun x : Nat => be 2 x)
    let isFree (p length : Nat) : Prop := p + length ≤ 1165704 ∧ ∀ m, (clipRec s m).mode ≠ .empty →
      p + length ≤ (clipRec s m).base ∨ (clipRec s m).base + (clipRec s m).length ≤ p
    let pair (m : Nat × Nat) : List Byte := be 2 m.1 ++ be 2 m.2
    let plan (p : Plan) : List Byte :=
      (match p.key with | .exact a => [0] ++ be 2 a | .any _ => [1, 0, 0]) ++ be 2 p.service ++ be 1 p.clip ++ flag p.harvest ++
        flag p.early ++ be 1 p.map.length ++ p.map.flatMap pair
    let before (p q : Plan) : Prop :=
      match p.key, q.key with
      | .exact a, .exact b => a ≤ b
      | .exact _, .any _ => True
      | .any _, .exact _ => False
      | .any a, .any b => a ≤ b
    let channel (c : Channel) : List Byte :=
      [if c.active then 2 else 1] ++ be 2 c.avail ++ be 2 c.service ++ be 1 c.clip ++ be 2 c.perFrame ++ be 4 c.length ++
        flag c.harvest ++ flag c.early ++ be 2 c.start.toNat ++ be 2 c.ending.toNat ++ be 4 c.read ++ be 4 c.due ++ flag c.exhausted ++
        [match c.pending with | .none => 0 | .early => 1 | .aborted => 2] ++ be 1 c.map.length ++ c.map.flatMap pair
    let hasLive : List Nat := [1, 2, 4, 5, 6, 8, 9, 10, 11, 13, 21, 22, 23, 24, 25, 26, 27, 28, 29, 30, 31, 32, 33, 34, 35]
    let failed (p : PortId) : Bool := decide ((s.feed.ports.get p).mode ∈ [.failed, .dark, .searching])
    let off (n : Four) : Bool := (s.drive.modules.get n).latchedOff
    let opened (n : Four) : Bool := decide ((s.drive.modules.get n).opened = s.live.drive.moduleFilter)
    let live : List (Nat × Bool) :=
      [(1, decide (s.clock.mode = .holdover)), (2, decide (s.clock.mode = .expired)),
       (4, decide (s.clock.inputs.in1.mode = .disqualified)), (5, decide (s.clock.inputs.in2.mode = .disqualified)),
       (6, decide (s.clock.inputs.in3.mode = .disqualified)), (8, decide (s.feed.ports.a.mode = .impaired)),
       (9, decide (s.feed.ports.b.mode = .impaired)), (10, failed .a), (11, failed .b), (13, s.em.mute.feed),
       (21, decide (s.drive.mode = .retryWait)), (22, s.drive.reflLatch), (23, s.drive.warn), (24, s.drive.shutLatch),
       (25, decide (s.drive.supply = .low)), (26, decide (s.drive.supply = .high)), (27, off .n1), (28, off .n2), (29, off .n3),
       (30, off .n4), (31, opened .n1), (32, opened .n2), (33, opened .n3), (34, opened .n4), (35, decide (s.drive.lowRun = 500))]
    let item (i : Nat) : List Byte :=
      let r := alarmRec s i
      be 1 ((if r.latched then 1 else 0) + (if (live.lookup i).getD false then 2 else 0) + (if reportEnabled s i then 4 else 0) +
        (if i ∈ hasLive then 8 else 0) : Nat) ++ be 4 r.setEpoch.toNat ++ be 2 r.count
    answers (.identify tag) 0x01
      ([0x52, 0x4F, 0x4E, 0x44, 0x41, 0x58, 0x20, 0x53, 0x58, 0x32, 0x34, 0x20, 0x20, 0x20, 0x20, 0x20] ++ [Config.siliconRevision] ++
        be 4 Config.deviceNumber.toNat ++ [64, 32, 4] ++ be 4 1165704) ∧
    answers (.status tag) 0x02
      (instant ++ [if s.link.cause = .restart then 1 else 0, if s.link.source = .factory then 1 else 0] ++
        be 4 s.link.held.count.toNat ++ [0] ++ be 1 s.alarms.notices.length ++ be 4 s.link.rate ++ be 4 s.alarms.epoch.toNat) ∧
    answers (.clockStatus tag) 0x10
      (instant ++ be 1 (clockCode s.clock.mode) ++
        be 1 (inputNum s.clock.governing) ++ be 1 (inputNum s.clock.forced) ++ be 4 s.clock.corr ++
        be 1 (s.clock.slew.sign * s.clock.slewLeft) ++ be 4 s.clock.u ++ be 1 s.clock.lockCount ++ flag s.clock.secondsSet) ∧
    answers (.referenceStatus tag) 0x11 (input .in1 ++ input .in2 ++ input .in3) ∧
    answers (.storeStatus tag) 0x1B
      (flag s.store.base.isSome ++ be 2 (s.store.base.getD 0).toNat ++
        be 4 (match s.em.anchor with | some a => a.counter | none => 0 : Nat) ++ be 1 s.store.jumpRun ++ be 1 s.store.mismatchRun ++
        s.store.slots.flatMap slot) ∧
    answers (.serviceList tag) 0x2A
      (be 1 s.splice.services.length ++ s.splice.services.flatMap (fun v =>
        be 2 v.number ++ flag v.eligible ++ be 1 v.streams.length ++ v.streams.flatMap (fun x : Nat => be 2 x))) ∧
    (∃ total longest : Nat,
      (∀ n : Byte, n.toNat ≤ 31 → answers (.clipStatus tag n) 0x35 (clip n.toNat ++ be 4 total ++ be 4 longest)) ∧
      (ClipsOk s → total + (s.clips.clips.map (fun c => if c.mode = .empty then 0 else c.length)).sum = 1165704 ∧
        (∃ p, isFree p longest) ∧ ∀ p, ¬ isFree p (longest + 1))) ∧
    (∃ listed : List Plan, listed.Perm s.splice.plans ∧ listed.Pairwise before ∧
      ∀ i : Byte, i.toNat ≤ 31 → answers (.planList tag i) 0x3A
        (be 1 s.splice.plans.length ++ be 1 ((listed.drop i.toNat).take 16).length ++
          ((listed.drop i.toNat).take 16).flatMap plan)) ∧
    (∀ n : Four, answers (.channelStatus tag (BitVec.ofNat 8 n.num)) 0x42
      (match s.splice.channels.get n with | some c => channel c | none => List.replicate 29 0)) ∧
    answers (.alarmRead tag) 0x50
      (be 4 s.alarms.epoch.toNat ++ (List.range 36).flatMap (fun i => item (i + 1))) ∧
    let refuses (c : Instr) (kind : Byte) : Prop :=
      ∃ t, exec c s = .next t ∧ Replied t kind tag .badParameter [] ∧ AfterRequest [] s t
    (∀ n : Byte, 31 < n.toNat → refuses (.clipStatus tag n) 0x35 ∧ refuses (.planList tag n) 0x3A) ∧
    (∀ n : Byte, n.toNat = 0 ∨ 4 < n.toNat → refuses (.channelStatus tag n) 0x42)

/-- The reports with a clear parameter: with 0 the body and nothing else, with 1 the body and then the counts at 0, above 1
BAD_PARAMETER (R43, R65, R91, R131, R153). Each body is written out in the order and the bytes of its rule; CUE LIST lists the entries
in table order, by distance from the cue reference and then by acceptance order (R110, R131). -/
def Obligations.ClearingReports : Prop :=
  ∀ (s : State) (tag : Byte), Ready s →
    let reports (c : Byte → Instr) (kind : Byte) (body : List Byte) (cleared : State) : Prop :=
      (∃ t, exec (c 0) s = .next t ∧ Replied t kind tag .ok body ∧ AfterRequest [] s t) ∧
      (∃ t, exec (c 1) s = .next t ∧ Replied t kind tag .ok body ∧ AfterRequest [] cleared t) ∧
      (∀ x : Byte, 1 < x.toNat → ∃ t, exec (c x) s = .next t ∧ Replied t kind tag .badParameter [] ∧ AfterRequest [] s t)
    (∀ port clear : Byte, port.toNat = 0 ∨ 2 < port.toNat →
      ∃ t, exec (.feedStatus tag port clear) s = .next t ∧ Replied t 0x18 tag .badParameter [] ∧ AfterRequest [] s t) ∧
    let flag (b : Bool) : List Byte := [if b then 1 else 0]
    let counts (each : Nat) (list : List Nat) : List Byte := list.flatMap (fun x : Nat => be each x)
    let until_ (instant : Option Int) : List Byte :=
      match instant with | some e => be 8 (max 0 (e - s.clock.time)) | none => List.replicate 8 0xFF
    (∀ p : PortId,
      let x := s.feed.ports.get p
      let c := x.counts
      reports (.feedStatus tag (BitVec.ofNat 8 p.num)) 0x18
        (be 1 (portCode x.mode) ++ be 1 (portNum s.feed.hold) ++ be 2 x.average ++ be 1 x.degrade ++ be 1 x.recover ++ flag x.assembling ++
          (match x.opened with | some f => be 2 f.timing.seq.toNat ++ be 2 f.count | none => List.replicate 4 0xFF) ++
          until_ x.deadline ++
          counts 2 [c.clean, c.flawed, c.short, c.badTiming, c.format, c.silence, c.offered, c.heldBack, c.frameAlignment,
            c.syncErrors, c.alignmentLosses, c.darkness, c.transportErrors, c.continuityErrors])
        { s with feed := { s.feed with ports := s.feed.ports.set p { x with counts := {} } } }) ∧
    (let admission (c : AdmissionCounts) : List Byte :=
       counts 2 [c.admitted, c.duplicateSame, c.duplicateDivergent, c.upgraded, c.stale, c.ahead, c.late, c.mismatch]
     reports (.feedCounts tag) 0x1A (admission s.store.counts.a ++ admission s.store.counts.b)
       { s with store := { s.store with counts := ⟨{}, {}⟩ } }) ∧
    (let c := s.em.counts
     reports (.emissionStatus tag) 0x26
       (flag s.live.em.singleSite ++ be 1 (emissionCode s.em.mode) ++ [muteByte s.em.mute] ++
         (match s.em.anchor with
          | some a => [1] ++ be 2 a.seq.toNat ++ be 8 a.instant ++ be 4 a.counter
          | none => List.replicate 15 0) ++
         be 4 s.em.offset ++ flag s.em.pendingOffset.isSome ++ be 4 (s.em.pendingOffset.getD 0) ++ be 4 s.em.dLast ++
         be 1 s.em.gapRun ++ be 1 s.em.resumeRun ++
         counts 4 [c.real, c.null, c.cut, c.anchorsTaken, c.anchorsAbandoned, c.depthRefusals, c.reAnchors, c.directivesActed,
           c.directivesPassed])
       { s with em := { s.em with counts := {} } }) ∧
    (let c := s.splice.counts
     let place (e : CueEntry) : Int := Seq.distance s.splice.cueRef e.start
     let entry (e : CueEntry) : List Byte :=
       be 2 e.avail ++ be 2 e.service ++ be 2 e.start.toNat ++ be 2 e.duration ++ be 2 e.ending.toNat ++
         be 1 (if e.source = .host then 1 else 0) ++ be 2 e.carrying.toNat ++
         be 1 (match e.mode with | .waiting => 0 | .unfilled => 1 | .armed => 2 | .active => 3 : Nat) ++
         be 1 (match e.channel with | some n => n.num | none => 0 : Nat) ++ be 4 e.order.toNat
     ∃ listed : List CueEntry, listed.Perm s.splice.cues ∧
       listed.Pairwise (fun d e => place d < place e ∨ (place d = place e ∧ d.order.toNat ≤ e.order.toNat)) ∧
       reports (.cueList tag) 0x41
         (be 2 s.splice.cueRef.toNat ++ be 1 s.splice.cues.length ++ listed.flatMap entry ++
           counts 2 [c.new, c.repeats, c.revision, c.lateRevision, c.dropped, c.missed, c.unfilled, c.endMoved, c.inIgnored,
             c.cancelled, c.cancelIgnored])
         { s with splice := { s.splice with counts := {} } }) ∧
    (let d := s.drive
     let c := d.counts
     let holds : List Bool :=
       [decide (s.em.mode = .running ∧ s.em.mute = {}), d.rfEnabled, decide (d.supply = .inside), !d.reflLatch && !d.shutLatch,
        decide (d.mode ≠ .retryWait)]
     let bit (value : Nat) (b : Bool) : Nat := if b then value else 0
     let installed : List Four := [.n1, .n2, .n3, .n4].filter (fun n => n.num ≤ s.live.drive.installed)
     let healthy : List Four := installed.filter (fun n => !(d.modules.get n).latchedOff)
     reports (.rfStatus tag) 0x4C
       (be 1 (driveCode d.mode) ++
         be 1 (bit 1 (holds.all id) + (List.zipWith bit [2, 4, 8, 16, 32] holds).sum : Nat) ++ counts 2 [d.level, d.ceiling] ++
         counts 2 [d.power, (d.power * 4095 + 500) / 1000, d.directive, (d.directive * 4095 + 500) / 1000] ++
         counts 2 [d.compTheta, d.effTheta, d.compRho, d.effRho] ++ be 1 healthy.length ++ be 1 installed.length ++
         be 1 (supplyCode d.supply) ++ flag d.reflLatch ++ flag d.shutLatch ++ flag d.warn ++ be 1 d.retries ++ until_ d.retryEnd ++
         (match d.steadySince with | some e => be 8 (s.clock.time - e) | none => List.replicate 8 0xFF) ++ be 1 d.reflRun ++
         be 2 d.lowRun ++ counts 2 [d.forward, d.reflected, d.temperature, d.supplySample] ++
         counts 2 [c.reflectedTrips, c.retriesEnded, c.shutdowns, c.modulesOff, c.clearRequests])
       { s with drive := { d with counts := {} } })

/-- MODULE STATUS n replies BAD_PARAMETER when n is not 1 to 4, and OK otherwise with the 7 bytes of R154; a module that is not
installed reports its latest sample and 0 in every other field. -/
def Obligations.ModuleStatusBody : Prop :=
  ∀ (s : State) (tag : Byte), Ready s →
    (∀ n : Four,
      let m := s.drive.modules.get n
      ∃ t, exec (.moduleStatus tag (BitVec.ofNat 8 n.num)) s = .next t ∧ AfterRequest [] s t ∧
        Replied t 0x4D tag .ok
          (if n.num ≤ s.live.drive.installed then
            [1, if m.latchedOff then 1 else 0, if m.enable then 1 else 0] ++ be 1 m.overRun ++ be 1 m.opened ++ be 2 m.current
          else [0, 0, 0, 0, 0] ++ be 2 m.current)) ∧
    (∀ n : Byte, n.toNat = 0 ∨ 4 < n.toNat →
      ∃ t, exec (.moduleStatus tag n) s = .next t ∧ Replied t 0x4D tag .badParameter [] ∧ AfterRequest [] s t)

/-! ## Site Time -/

/-- SELECT REFERENCE in the order of R13's table: 0 withdraws the force, a QUALIFIED input becomes the forced and the governing input,
and a CLOCK notice reports that it has come to govern (R20), an input in any other state is REFUSED_STATE, and a number above 3 is
BAD_PARAMETER. What chooseGoverning chooses is R12: a forced input that is QUALIFIED; else, in non-revertive operation, the governing
input while it is QUALIFIED; else the QUALIFIED input with the best priority, 1 being the best; and none where no input is QUALIFIED. -/
def Obligations.SelectReferenceForces : Prop :=
  ∀ (s : State) (tag : Byte), Ready s →
    (∃ t, exec (.selectReference tag 0) s = .next t ∧ Replied t 0x12 tag .ok [] ∧ t.clock.forced = none ∧
      t.clock.governing = chooseGoverning { s with clock := { s.clock with forced := none } } ∧ t.clock.time = s.clock.time ∧
      t.clock.inputs = s.clock.inputs) ∧
    (∀ n : InputId, (s.clock.inputs.get n).mode = .qualified →
      ∃ t, exec (.selectReference tag (BitVec.ofNat 8 n.num)) s = .next t ∧ Replied t 0x12 tag .ok [] ∧
        t.clock.forced = some n ∧ t.clock.governing = some n ∧ t.clock.time = s.clock.time ∧ t.clock.inputs = s.clock.inputs ∧
        Noticed 1 (if s.clock.governing = some n then [] else [be 1 (clockCode t.clock.mode) ++ be 1 n.num ++ [0, 0, 0]]) s t) ∧
    (∀ n : InputId, (s.clock.inputs.get n).mode ≠ .qualified →
      ∃ t, exec (.selectReference tag (BitVec.ofNat 8 n.num)) s = .next t ∧ Replied t 0x12 tag .refusedState [] ∧
        AfterRequest [] s t) ∧
    (∀ n : Byte, 3 < n.toNat →
      ∃ t, exec (.selectReference tag n) s = .next t ∧ Replied t 0x12 tag .badParameter [] ∧ AfterRequest [] s t) ∧
    (let fit (n : InputId) : Prop := (s.clock.inputs.get n).mode = .qualified
     let unforced : Prop := ∀ n, s.clock.forced = some n → ¬ fit n
     (∀ n, s.clock.forced = some n → fit n → chooseGoverning s = some n) ∧
     (∀ g, unforced → s.live.clock.nonRevertive = true → s.clock.governing = some g → fit g → chooseGoverning s = some g) ∧
     (∀ n, unforced → s.live.clock.nonRevertive = false ∨ (∀ g, s.clock.governing = some g → ¬ fit g) → fit n →
       (∀ m, m ≠ n → fit m → s.live.clock.priority.get n < s.live.clock.priority.get m) → chooseGoverning s = some n) ∧
     ((∀ n, ¬ fit n) → chooseGoverning s = none))

/-- RESEED REFERENCE of an enabled input takes it to QUALIFYING with its three counts at 0 and the reseed pending; it keeps its time of
last pulse and its last raw error, loses the force, and does not govern. A disabled input is REFUSED_STATE, and a number outside 1 to 3
is BAD_PARAMETER (R14). A forced input is QUALIFIED in every state that a run reaches (R13). -/
def Obligations.ReseedRestartsProving : Prop :=
  ∀ (s : State) (tag : Byte), Ready s →
    (∀ n : InputId, s.live.clock.enabled.get n = true →
      (s.clock.forced = some n → (s.clock.inputs.get n).mode = .qualified) →
      ∃ t, exec (.reseedReference tag (BitVec.ofNat 8 n.num)) s = .next t ∧ Replied t 0x13 tag .ok [] ∧
        t.clock.inputs = s.clock.inputs.set n { s.clock.inputs.get n with
          mode := .qualifying, good := 0, missing := 0, disagree := 0, reseed := true } ∧
        t.clock.forced ≠ some n ∧ t.clock.governing ≠ some n ∧ t.clock.time = s.clock.time) ∧
    (∀ n : InputId, s.live.clock.enabled.get n = false →
      ∃ t, exec (.reseedReference tag (BitVec.ofNat 8 n.num)) s = .next t ∧ Replied t 0x13 tag .refusedState [] ∧
        AfterRequest [] s t) ∧
    (∀ n : Byte, n.toNat = 0 ∨ 3 < n.toNat →
      ∃ t, exec (.reseedReference tag n) s = .next t ∧ Replied t 0x13 tag .badParameter [] ∧ AfterRequest [] s t)

/-- At the start of an oscillator second the residue gains c, and its quotient by 100,000, truncated, is removed from it and becomes the
correction of that second (R1). That the start is a command which is due once the cycles before it have passed is the model's choice
(log 4). -/
def Obligations.OscillatorSecondTakesTheCorrection : Prop :=
  ∀ s : State, Powered s → s.clock.secondsTaken * 10000000 ≤ s.clock.cycles →
    ∃ (t : State) (q left : Int),
      q * 100000 + left = s.clock.residue + s.clock.corr ∧ left.natAbs < 100000 ∧
      (0 ≤ s.clock.residue + s.clock.corr → 0 ≤ left) ∧ (s.clock.residue + s.clock.corr ≤ 0 → left ≤ 0) ∧
      exec .oscillatorSecond s = .next t ∧
      AfterEvent [] { s with clock := { s.clock with
        residue := left, quotient := q, secondsTaken := s.clock.secondsTaken + 1 } } t

/-- The first pulse of an ABSENT input takes it to QUALIFYING with a good-pulse count of 0 and seeds the filter with its error (R5, R6);
the pulse's error is the fraction of site time, folded, and its record is made (R3). A pulse on a disabled input has no effect. A second
number received is what the next pulse will carry (R3). -/
def Obligations.FirstPulseBeginsQualifying : Prop :=
  ∀ (s : State) (n : InputId), Powered s →
    (s.live.clock.enabled.get n = true → (s.clock.inputs.get n).mode = .absent → s.clock.forced ≠ some n →
      let r := s.clock.inputs.get n
      let f := s.clock.time % 10000000
      let e := if f < 5000000 then f else f - 10000000
      ∃ t, exec (.timePulse n) s = .next t ∧ t.clock.time = s.clock.time ∧
        t.clock.inputs = s.clock.inputs.set n { r with
          mode := .qualifying, rawErr := e, eps := e * 256, good := 0, missing := 0, reseed := false, lastPulse := some s.clock.time,
          lastSecond := r.received.or r.lastSecond, received := none, expiries := 0 }) ∧
    (s.live.clock.enabled.get n = false → ∃ t, exec (.timePulse n) s = .next t ∧ AfterEvent [] s t) ∧
    (∀ k : BitVec 40, ∃ t, exec (.secondNumberReceived n k) s = .next t ∧
      AfterEvent [] { s with clock := { s.clock with
        inputs := s.clock.inputs.set n { s.clock.inputs.get n with received := some k.toNat } } } t)

/-- A governing pulse inside the suspect band. In LOCKED with no wrong second number it moves the filter by the shift β (R5) and steers:
the slew −trunc(ε / 2^κ) clamped to a magnitude of 50 replaces the one in progress, and c learns trunc(p × 100,000 / 2^φ), clamped
(R19). In ACQUIRING it filters by βf; within the step threshold it moves the lock count, which takes the clock to LOCKED with u at 0
(R15), and steers; beyond the threshold it steps site time to its second with all that R2 lists, and the step event moves the times of
Feed Intake, the Frame Store, the drive and Emission by Δ, sets the step marks, latches CLOCK STEPPED and takes emission to ANCHORING
unless it is OFF, with a CLOCK and an EMISSION notice (R20, R39, R47, R88, R90, R145); that the EMISSION notice is queued also when
emission was ANCHORING already is the model's choice (log 52); another input's last raw error is kept as the move leaves it, in or out
of its range (log 50). In LOCKED with the seconds not set, the second number it carries sets the second count, which is a step event
unless Δ is 0 (R2, R16); that the pulse is then recorded in the new count, its time of last pulse being the moved site time, is the
model's reading (log 14). A site time within 64 bits is a premise (log 22). -/
def Obligations.LockedPulseSteers : Prop :=
  (∀ (s : State) (n : InputId), Powered s → s.live.clock.enabled.get n = true → s.clock.mode = .locked → s.clock.governing = some n →
    chooseGoverning s = some n → s.clock.secondsSet = true → (s.clock.inputs.get n).mode = .qualified →
    (s.clock.inputs.get n).reseed = false → wrongNumber s (s.clock.inputs.get n).received = false →
    let r := s.clock.inputs.get n
    let f := s.clock.time % 10000000
    let e := if f < 5000000 then f else f - 10000000
    let eps := r.eps + (e * 256 - r.eps) / (2 : Int) ^ s.live.clock.beta
    let p := clamp (-50) 50 (-((eps / 256).tdiv ((2 : Int) ^ s.live.clock.slewShift)))
    (e - r.eps / 256).natAbs ≤ s.live.clock.suspectBand →
    ∃ t, exec (.timePulse n) s = .next t ∧
      t.clock = { s.clock with
        slew := p, slewPos := 0, slewLeft := p.natAbs,
        corr := clamp (-2000000) 2000000 (s.clock.corr + (p * 100000).tdiv ((2 : Int) ^ s.live.clock.learnShift)),
        inputs := s.clock.inputs.set n { r with
          rawErr := e, eps := eps, missing := 0, lastPulse := some s.clock.time, lastSecond := r.received.or r.lastSecond,
          received := none, expiries := 0 } } ∧
      t.feed = s.feed ∧ t.store = s.store ∧ t.clips = s.clips ∧ t.splice = s.splice ∧ t.live = s.live ∧ t.mem = s.mem) ∧
  (∀ (s : State) (n : InputId), Powered s → s.live.clock.enabled.get n = true → s.clock.mode = .acquiring →
    s.clock.governing = some n → chooseGoverning s = some n → (s.clock.inputs.get n).mode = .qualified →
    (s.clock.inputs.get n).reseed = false → s.alarms.records.length = 36 →
    let r := s.clock.inputs.get n
    let f := s.clock.time % 10000000
    let e := if f < 5000000 then f else f - 10000000
    let eps := r.eps + (e * 256 - r.eps) / (2 : Int) ^ s.live.clock.betaFast
    let p := clamp (-50) 50 (-((eps / 256).tdiv ((2 : Int) ^ s.live.clock.slewShift)))
    (e - r.eps / 256).natAbs ≤ s.live.clock.suspectBand →
    (e.natAbs ≤ s.live.clock.stepThreshold → s.clock.secondsSet = true →
      let count := if (eps / 256).natAbs ≤ s.live.clock.lockWindow then min 60 (s.clock.lockCount + 1) else 0
      let locks := s.live.clock.lockCount ≤ count
      ∃ t, exec (.timePulse n) s = .next t ∧
        t.clock = { s.clock with
          lockCount := count, mode := if locks then .locked else .acquiring, u := if locks then 0 else s.clock.u,
          slew := p, slewPos := 0, slewLeft := p.natAbs,
          corr := clamp (-2000000) 2000000 (s.clock.corr + (p * 100000).tdiv ((2 : Int) ^ s.live.clock.learnShift)),
          inputs := s.clock.inputs.set n { r with
            rawErr := e, eps := eps, missing := 0, lastPulse := some s.clock.time, lastSecond := r.received.or r.lastSecond,
            received := none, expiries := 0 } } ∧
        t.feed = s.feed ∧ t.clips = s.clips ∧ t.live = s.live ∧ t.mem = s.mem) ∧
    (s.live.clock.stepThreshold < e.natAbs →
      let second : Int := match r.received with | some k => k | none => (s.clock.time + 5000000) / 10000000
      let delta := second * 10000000 - s.clock.time
      0 ≤ second → second * 10000000 < 18446744073709551616 →
      ∃ t, exec (.timePulse n) s = .next t ∧ t.clock.time = second * 10000000 ∧ t.clock.mode = .acquiring ∧
        t.clock.lockCount = 0 ∧ t.clock.secondsSet = true ∧ t.clock.slew = 0 ∧ t.clock.slewLeft = 0 ∧ t.clock.corr = s.clock.corr ∧
        (∀ m, t.clock.inputs.get m =
          let x := s.clock.inputs.get m
          if m = n then
            { x with
              rawErr := 0, eps := 0, disagree := 0, missing := 0, expiries := 0, lastPulse := some (second * 10000000),
              suspectStart := x.suspectStart + delta, disqTime := x.disqTime + delta,
              lastSecond := r.received.or r.lastSecond, received := none }
          else
            { x with
              rawErr := x.rawErr - e, eps := x.eps - e * 256, disagree := 0, lastPulse := x.lastPulse.map (· + delta),
              suspectStart := x.suspectStart + delta, disqTime := x.disqTime + delta }) ∧
        (alarmRec t 3).latched = true ∧
        (∀ q, t.feed.ports.get q =
          { s.feed.ports.get q with deadline := (s.feed.ports.get q).deadline.map (· + delta) }) ∧ t.feed.hold = s.feed.hold ∧
        t.drive.retryEnd = s.drive.retryEnd.map (· + delta) ∧ t.store.marks = ⟨true, true⟩ ∧
        (s.em.mode = .off → t.em = { s.em with
            anchor := s.em.anchor.map (fun a => { a with instant := a.instant + delta }), origin := s.em.origin + delta } ∧
          t.store = (moveStoreTimes delta s).store) ∧
        (s.em.mode ≠ .off → t.em.mode = .anchoring ∧ t.em.anchor = none ∧
          t.store = { s.store with
            slots := List.replicate 64 .free, base := none, jumpRun := 0, mismatchRun := 0, marks := ⟨true, true⟩ }) ∧
        Noticed 1 [[1] ++ be 1 n.num ++ [0, 0, 1]] s t ∧
        Noticed 3 (if s.em.mode = .off then [] else [emissionBody t 7]) s t ∧
        t.clips.queue = s.clips.queue ∧ t.live = s.live ∧ t.mem = s.mem)) ∧
  (∀ (delta : Int) (s : State) (i : Nat) (h : Held) (seq : Seq),
    let moved : Held := { h with arrival := h.arrival + delta, emission := h.emission + delta }
    (s.store.slots[i]? = some (.held h) → (moveStoreTimes delta s).store.slots[i]? = some (.held moved)) ∧
    (s.store.slots[i]? = some (.taken seq (some h)) →
      (moveStoreTimes delta s).store.slots[i]? = some (.taken seq (some moved)))) ∧
  (∀ (s : State) (n : InputId) (k : Nat), Powered s → s.live.clock.enabled.get n = true → s.clock.mode = .locked →
    s.clock.governing = some n → chooseGoverning s = some n → s.clock.secondsSet = false →
    (s.clock.inputs.get n).mode = .qualified → (s.clock.inputs.get n).reseed = false → (s.clock.inputs.get n).received = some k →
    s.alarms.records.length = 36 →
    let r := s.clock.inputs.get n
    let f := s.clock.time % 10000000
    let e := if f < 5000000 then f else f - 10000000
    let delta := ((k : Int) - (s.clock.time + 5000000) / 10000000) * 10000000
    (e - r.eps / 256).natAbs ≤ s.live.clock.suspectBand → 0 ≤ s.clock.time + delta → s.clock.time + delta < 18446744073709551616 →
    ∃ t, exec (.timePulse n) s = .next t ∧ t.clock.time = s.clock.time + delta ∧ t.clock.mode = .locked ∧ t.clock.secondsSet = true ∧
      (t.clock.inputs.get n).lastPulse = some (s.clock.time + delta) ∧ (t.clock.inputs.get n).lastSecond = some k ∧
      (∀ m, m ≠ n → (t.clock.inputs.get m).lastPulse = (s.clock.inputs.get m).lastPulse.map (· + delta)) ∧
      Noticed 1 (if delta = 0 then [] else [[2] ++ be 1 n.num ++ [0, 0, 1]]) s t ∧
      (delta ≠ 0 → (alarmRec t 3).latched = true ∧ t.store.marks = ⟨true, true⟩ ∧
        (s.em.mode ≠ .off → t.em.mode = .anchoring ∧ t.em.anchor = none)))

/-- A missing pulse of the governing input, 15,000,000 STU after its last pulse, with no other input QUALIFIED: the input becomes
SUSPECT from the current site time with its good-pulse count at 0 (R4, R7), and the clock goes from LOCKED to HOLDOVER with u at 0, no
slew and c unchanged, reporting CLOCK HOLDOVER, which latches or counts (R16, R17, R18, R157), and queuing one CLOCK notice of the
input's change (R20). In HOLDOVER or EXPIRED, with the seconds set, a good pulse of a QUALIFYING input counts, and the one that
completes Qe makes it QUALIFIED and governing: the clock is LOCKED again with u at 0 when its |ε| lies within the relock window, and
otherwise ACQUIRING with u at its maximum and the lock count at 0; the same pulse is then steered in the new state (R6, R17, R18, R19),
and one CLOCK notice tells of it. For the last case the lock window is no wider than the relock window and the error is within the step
threshold, so that the pulse neither counts toward the lock nor steps the clock. -/
def Obligations.MissingPulseLosesLock : Prop :=
  (∀ (s : State) (n : InputId) (p : Int), Powered s → s.live.clock.enabled.get n = true → s.clock.mode = .locked →
    s.clock.governing = some n → (s.clock.inputs.get n).mode = .qualified → (∀ m, m ≠ n → (s.clock.inputs.get m).mode ≠ .qualified) →
    (s.clock.inputs.get n).lastPulse = some p → (s.clock.inputs.get n).expiries = 0 → p + 15000000 ≤ s.clock.time →
    s.alarms.records.length = 36 →
    ∃ t, exec (.missingPulse n) s = .next t ∧ t.clock.mode = .holdover ∧ t.clock.governing = none ∧ t.clock.u = 0 ∧
      t.clock.slew = 0 ∧ t.clock.slewLeft = 0 ∧ t.clock.corr = s.clock.corr ∧ t.clock.time = s.clock.time ∧
      t.clock.inputs = s.clock.inputs.set n { s.clock.inputs.get n with
        mode := .suspect, suspectStart := s.clock.time, good := 0, missing := min 3 ((s.clock.inputs.get n).missing + 1),
        expiries := 1 } ∧
      Occurred 1 s t ∧ Noticed 1 [[3, 0] ++ be 1 n.num ++ [3, 0]] s t) ∧
  (∀ (s : State) (n : InputId) (last : Int), Powered s → s.live.clock.enabled.get n = true →
    s.clock.mode = .holdover ∨ s.clock.mode = .expired → s.clock.governing = none → s.clock.secondsSet = true →
    (s.clock.inputs.get n).mode = .qualifying → (s.clock.inputs.get n).reseed = false →
    (∀ m, m ≠ n → (s.clock.inputs.get m).mode ≠ .qualified) → (s.clock.inputs.get n).lastPulse = some last →
    9999000 ≤ s.clock.time - last → s.clock.time - last ≤ 10001000 →
    let r := s.clock.inputs.get n
    let f := s.clock.time % 10000000
    let e := if f < 5000000 then f else f - 10000000
    let eps := r.eps + (e * 256 - r.eps) / (2 : Int) ^ s.live.clock.beta
    let p := clamp (-50) 50 (-((eps / 256).tdiv ((2 : Int) ^ s.live.clock.slewShift)))
    let corr := clamp (-2000000) 2000000 (s.clock.corr + (p * 100000).tdiv ((2 : Int) ^ s.live.clock.learnShift))
    let pulsed (mode : InputMode) (good disagree : Nat) : InputRec := { r with
      mode := mode, good := good, disagree := disagree, rawErr := e, eps := eps, missing := 0, lastPulse := some s.clock.time,
      lastSecond := r.received.or r.lastSecond, received := none, expiries := 0 }
    (e - r.rawErr).natAbs ≤ s.live.clock.jitter →
    (min 15 (r.good + 1) < s.live.clock.entryCount →
      ∃ t, exec (.timePulse n) s = .next t ∧
        t.clock = { s.clock with inputs := s.clock.inputs.set n (pulsed .qualifying (min 15 (r.good + 1)) r.disagree) } ∧
        Noticed 1 [] s t) ∧
    (s.live.clock.entryCount ≤ min 15 (r.good + 1) → (eps / 256).natAbs ≤ s.live.clock.relockWindow →
      ∃ t, exec (.timePulse n) s = .next t ∧
        t.clock = { s.clock with
          mode := .locked, u := 0, governing := some n, slew := p, slewPos := 0, slewLeft := p.natAbs, corr := corr,
          inputs := s.clock.inputs.set n (pulsed .qualified 0 0) } ∧
        Noticed 1 [[2] ++ be 1 n.num ++ be 1 n.num ++ [2, 0]] s t) ∧
    (s.live.clock.entryCount ≤ min 15 (r.good + 1) → s.live.clock.relockWindow < (eps / 256).natAbs →
      s.live.clock.lockWindow ≤ s.live.clock.relockWindow → 1 ≤ s.live.clock.lockCount →
      e.natAbs ≤ s.live.clock.stepThreshold →
      ∃ t, exec (.timePulse n) s = .next t ∧
        t.clock = { s.clock with
          mode := .acquiring, u := 4294967295, lockCount := 0, governing := some n, slew := p, slewPos := 0,
          slewLeft := p.natAbs, corr := corr, inputs := s.clock.inputs.set n (pulsed .qualified 0 0) } ∧
        Noticed 1 [[1] ++ be 1 n.num ++ be 1 n.num ++ [2, 0]] s t))

/-- The suspect timeout takes a SUSPECT input to DISQUALIFIED at the current site time, with hold-off done clear unless the hold-off is
0, latches INPUT n LOST (R8, R9) and queues a CLOCK notice of the input (R20). The end of the hold-off sets hold-off done and nothing
else (R9). A pulse of a QUALIFIED input beyond the suspect band makes it SUSPECT, without its force, and leaves its filter (R5, R7); one
of a SUSPECT input sets its count to 0 (R8). In LOCKED, a good pulse of an input that does not govern, whose disagreement reaches Xc,
gives the verdict (R11). Of two QUALIFIED inputs that input goes SUSPECT. Of three, the one goes whose ε, with the pulse's own after its
update, lies farthest from the median of the three; of two equally far the one that does not govern, and, where neither governs, the one
with the worse priority. Every disagreement count is 0 then, and INPUTS DISAGREE latches. -/
def Obligations.SuspectTimeoutAndHoldOff : Prop :=
  ∀ (s : State) (n : InputId), Powered s →
    let r := s.clock.inputs.get n
    (r.mode = .suspect → r.suspectStart + (s.live.clock.suspectTimeout : Int) * 10000000 ≤ s.clock.time →
      s.alarms.records.length = 36 →
      ∃ t, exec (.suspectTimeout n) s = .next t ∧
        t.clock.inputs = s.clock.inputs.set n { r with
          mode := .disqualified, disqTime := s.clock.time, holdDone := s.live.clock.holdOff == 0 } ∧
        Noticed 1 [be 1 (clockCode t.clock.mode) ++ be 1 (inputNum t.clock.governing) ++ be 1 n.num ++ [4, 0]] s t ∧
        t.clock.forced ≠ some n ∧ t.clock.time = s.clock.time ∧ (alarmRec t (3 + n.num)).latched = true) ∧
    (r.mode = .disqualified → r.disqTime + (s.live.clock.holdOff : Int) * 10000000 ≤ s.clock.time →
      ∃ t, exec (.holdOffExpiry n) s = .next t ∧
        AfterEvent [] { s with clock := { s.clock with inputs := s.clock.inputs.set n { r with holdDone := true } } } t) ∧
    (s.live.clock.enabled.get n = true → r.mode = .qualified → r.reseed = false →
      let f := s.clock.time % 10000000
      let e := if f < 5000000 then f else f - 10000000
      s.live.clock.suspectBand < (e - r.eps / 256).natAbs →
      ∃ t, exec (.timePulse n) s = .next t ∧ t.clock.time = s.clock.time ∧ t.clock.forced ≠ some n ∧ t.clock.governing ≠ some n ∧
        t.clock.inputs = s.clock.inputs.set n { r with
          mode := .suspect, suspectStart := s.clock.time, good := 0, missing := 0, expiries := 0, rawErr := e,
          lastPulse := some s.clock.time, lastSecond := r.received.or r.lastSecond, received := none } ∧
        Noticed 1 [be 1 (clockCode t.clock.mode) ++ be 1 (inputNum t.clock.governing) ++ be 1 n.num ++ [3, 0]] s t) ∧
    (s.live.clock.enabled.get n = true → r.mode = .suspect → r.reseed = false →
      let f := s.clock.time % 10000000
      let e := if f < 5000000 then f else f - 10000000
      s.live.clock.suspectBand < (e - r.eps / 256).natAbs → 1 ≤ s.live.clock.returnCount →
      ∃ t, exec (.timePulse n) s = .next t ∧ t.clock.inputs = s.clock.inputs.set n { r with
        good := 0, missing := 0, expiries := 0, rawErr := e, lastPulse := some s.clock.time,
        lastSecond := r.received.or r.lastSecond, received := none }) ∧
    (∀ (g k : InputId) (last : Int), s.live.clock.enabled.get n = true → r.mode = .qualified → r.reseed = false →
      s.clock.mode = .locked → s.clock.governing = some g → g ≠ n → k ≠ n → k ≠ g →
      (s.clock.inputs.get g).mode = .qualified → (s.clock.inputs.get k).mode ≠ .qualified →
      (s.clock.inputs.get k).mode ≠ .suspect → r.lastPulse = some last → 9999000 ≤ s.clock.time - last →
      s.clock.time - last ≤ 10001000 → wrongNumber s r.received = false → s.alarms.records.length = 36 →
      let f := s.clock.time % 10000000
      let e := if f < 5000000 then f else f - 10000000
      let eps := r.eps + (e * 256 - r.eps) / (2 : Int) ^ s.live.clock.beta
      (e - r.rawErr).natAbs ≤ s.live.clock.jitter → (e - r.eps / 256).natAbs ≤ s.live.clock.suspectBand →
      s.live.clock.crossLimit < (eps / 256 - (s.clock.inputs.get g).eps / 256).natAbs →
      s.live.clock.crossCount ≤ min 15 (r.disagree + 1) →
      ∃ t, exec (.timePulse n) s = .next t ∧ t.clock.forced ≠ some n ∧ t.clock.governing ≠ some n ∧ (alarmRec t 7).latched = true ∧
        t.clock.inputs.get n = { r with
          mode := .suspect, suspectStart := s.clock.time, good := 0, disagree := 0, missing := 0, expiries := 0, rawErr := e,
          eps := eps, lastPulse := some s.clock.time, lastSecond := r.received.or r.lastSecond, received := none } ∧
        ∀ m, m ≠ n → t.clock.inputs.get m = { s.clock.inputs.get m with disagree := 0 }) ∧
    (∀ (g x : InputId) (last : Int), s.live.clock.enabled.get n = true → r.reseed = false → s.clock.mode = .locked →
      s.clock.governing = some g → g ≠ n → (∀ m, (s.clock.inputs.get m).mode = .qualified) → r.lastPulse = some last →
      9999000 ≤ s.clock.time - last → s.clock.time - last ≤ 10001000 → wrongNumber s r.received = false →
      s.alarms.records.length = 36 →
      let f := s.clock.time % 10000000
      let e := if f < 5000000 then f else f - 10000000
      let eps := r.eps + (e * 256 - r.eps) / (2 : Int) ^ s.live.clock.beta
      let whole (m : InputId) : Int := if m = n then eps / 256 else (s.clock.inputs.get m).eps / 256
      let median : Int := max (min (whole .in1) (whole .in2)) (min (max (whole .in1) (whole .in2)) (whole .in3))
      let far (m : InputId) : Nat := (whole m - median).natAbs
      (e - r.rawErr).natAbs ≤ s.live.clock.jitter → (e - r.eps / 256).natAbs ≤ s.live.clock.suspectBand →
      s.live.clock.crossLimit < (whole n - whole g).natAbs → s.live.clock.crossCount ≤ min 15 (r.disagree + 1) →
      (∀ m, m ≠ x → far m < far x ∨ (far m = far x ∧
        (m = g ∨ (x ≠ g ∧ s.live.clock.priority.get m < s.live.clock.priority.get x)))) →
      ∃ t, exec (.timePulse n) s = .next t ∧ t.clock.forced ≠ some x ∧ t.clock.governing ≠ some x ∧ (alarmRec t 7).latched = true ∧
        (t.clock.inputs.get x).mode = .suspect ∧ (t.clock.inputs.get x).good = 0 ∧
        (∀ m, m ≠ x → (t.clock.inputs.get m).mode = .qualified) ∧ ∀ m, (t.clock.inputs.get m).disagree = 0)

/-- At a second boundary in HOLDOVER or EXPIRED, u gains the holdover rate, saturating (R18), and HOLDOVER becomes EXPIRED when u
exceeds g × 1000, latching CLOCK EXPIRED and queuing a CLOCK notice (R20), the clock then being unfit (R17). In STAMPED emission an
unfit clock adds TIME to the mute-reason set in RUNNING (R84), and before E_anchor it abandons the anchor with the store emptied and the
abandonment counted (R76); an EMISSION notice tells of either (R90). One boundary is taken at a command (log 25). -/
def Obligations.SecondBoundaryGrowsUncertainty : Prop :=
  ∀ s : State, Powered s → s.clock.mode = .holdover ∨ s.clock.mode = .expired → s.clock.boundary < s.clock.time / 10000000 →
    s.alarms.records.length = 36 →
    let u := min 4294967295 (s.clock.u + s.live.clock.holdoverRate)
    let expires := s.clock.mode = .holdover ∧ s.live.clock.guardLimit * 1000 < u
    ∃ t, exec .secondBoundary s = .next t ∧
      t.clock = { s.clock with boundary := s.clock.boundary + 1, u := u, mode := if expires then .expired else s.clock.mode } ∧
      (expires → (alarmRec t 2).latched = true) ∧
      Noticed 1 (if expires then [[4] ++ be 1 (inputNum s.clock.governing) ++ [0, 0, 0]] else []) s t ∧ t.feed = s.feed ∧
      t.clips = s.clips ∧ t.live = s.live ∧ t.mem = s.mem ∧
      (expires → clockFit t = false) ∧
      (s.live.em.singleSite = true ∨ s.em.mode = .off → t.em = s.em ∧ t.store = s.store ∧ t.splice = s.splice) ∧
      (s.live.em.singleSite = false → s.em.mode = .running → t.em = { s.em with mute := { s.em.mute with time := !clockFit t } } ∧
        Noticed 3 (if t.em.mute = s.em.mute then [] else [emissionBody t 11]) s t) ∧
      (∀ a, s.live.em.singleSite = false → s.em.mode = .anchoring → s.em.anchor = some a →
        (clockFit t = true → t.em = s.em ∧ t.store = s.store) ∧
        (clockFit t = false →
          t.em = { s.em with
            anchor := none, counts := { s.em.counts with anchorsAbandoned := min 4294967295 (s.em.counts.anchorsAbandoned + 1) } } ∧
          t.store = { s.store with slots := List.replicate 64 .free, base := none, jumpRun := 0, mismatchRun := 0 } ∧
          Noticed 3 [emissionBody t 10] s t))

/-! ## Feed Intake and the Frame Store -/

/-- A byte at a DARK port takes it to SEARCHING and is the first that the hunt examines (R25, R26): it moves the run of its own phase
alone. A byte of 0x47 that completes a run of 5 finds alignment, with every effect that R26 lists; the table then holds the service
streams, all unset (R35; log 19), and the byte is the first of the first packet, whose stamp is the present site time (R28; log 7). A
FEED notice tells of each change of state (R42); at an alignment it carries the average that the alignment sets (log 45). -/
def Obligations.HuntFindsAlignment : Prop :=
  ∀ (s : State) (p : PortId) (byte : Byte), Powered s →
    let x := s.feed.ports.get p
    let run := if byte = 0x47 then x.runs.getD x.phase 0 + 1 else 0
    let hunted : PortRec := { x with
      lastByte := s.clock.cycles, runs := x.runs.set x.phase run, phase := (x.phase + 1) % 188 }
    (x.mode = .dark → run < 5 →
      ∃ t, exec (.feedByte p byte) s = .next t ∧
        AfterEvent [] { s with feed := { s.feed with
          ports := s.feed.ports.set p { hunted with mode := .searching, degrade := 0, recover := 0 } } } t ∧
        Noticed 2 [be 1 p.num ++ [1, 2] ++ be 2 x.average] s t) ∧
    (x.mode = .searching → run < 5 →
      ∃ t, exec (.feedByte p byte) s = .next t ∧
        AfterEvent [] { s with feed := { s.feed with ports := s.feed.ports.set p hunted } } t ∧ Noticed 2 [] s t) ∧
    (x.mode = .searching → 5 ≤ run → s.alarms.records.length = 36 →
      ∃ t, exec (.feedByte p byte) s = .next t ∧
        AfterEvent [impairedItem p] { s with feed := { s.feed with ports := s.feed.ports.set p { hunted with
          mode := .impaired, average := 32768, degrade := 0, recover := 0, wrongSync := 0, packetPhase := some x.phase,
          firstByte := some s.clock.time, assembling := false, opened := none, continuity := (feedStreams s).map (fun stream => (stream, none)),
          deadline := some (s.clock.time + 2 * s.live.em.period) } } } t ∧
        Noticed 2 [be 1 p.num ++ [2, 4] ++ be 2 32768] s t ∧ Occurred (impairedItem p) s t)

/-- What an aligned port makes of a byte and of a packet, but for the third damaged packet in a row. The first byte of a packet fixes
its stamp (R28; log 7). A timing candidate first ends an open frame as SHORT (R32); it then opens an assembly record as R30 lists when
it is valid and in format, and otherwise is LOST for BAD TIMING or FORMAT and the port hunts (R28, R29). Any other packet is checked for
continuity (R36) and added to the open frame with its tallies (R31). A damaged packet counts a sync error, is not checked, and adds to
the open frame the null packet with its transport error indicator set, which counts as flawed (R27). The packet that completes the frame
brings CLEAN or FLAWED, with a FEED notice where the state changes (R42), and the frame is offered, or held back, when the port is GOOD
or IMPAIRED after that verdict (R31, R40, R41); what the Frame Store makes of the offer, takeOffer, other statements say, and its
EMISSION and SPLICE notices follow, the SPLICE notices in channel order (log 11). Every verdict moves the average, the health of R38's
table and the deadline, and counts (R37, R38, R39). After a completion a packet that is no timing candidate is a frame alignment error,
and in HUNTING it is not kept (R27, R31, R33). That a port waits for its next frame as ASSEMBLING with no open record is read from R33
(log 20), and that the packet is checked against the view that still stands is the model's choice (log 46). -/
def Obligations.TimingCandidateOpensAFrame : Prop :=
  ∀ (s : State) (p : PortId) (sync : Byte) (rest : List Byte), Powered s → isAligned (s.feed.ports.get p).mode = true →
    s.alarms.records.length = 36 →
    let k : Packet := sync :: rest
    let x := s.feed.ports.get p
    let stamp := x.firstByte.getD s.clock.time
    let leaves (y : PortRec) (items : List Nat) (t : State) : Prop :=
      AfterEvent items { s with feed := { s.feed with ports := s.feed.ports.set p y } } t
    let arrived : PortRec := { x with lastByte := s.clock.cycles, firstByte := none, wrongSync := 0 }
    let aligned (y : PortRec) : PortRec :=
      { y with continuity := (feedStreams s).map (fun stream => (stream, (y.continuity.lookup stream).join)) }
    let short : PortRec :=
      scoredPort s { arrived with opened := none, counts := { x.counts with short := min 65535 (x.counts.short + 1) } } 65535
    let before : PortRec := if x.opened.isSome then short else arrived
    let beforeItems : List Nat := if x.opened.isSome then healthItems p x.mode short.mode else []
    let hunting (y : PortRec) : PortRec := aligned { y with assembling := false, opened := none }
    let takes (base : PortRec) (q : Packet) (flawedPacket failed : Bool) : Prop :=
      let counts := base.counts
      let counted : PortCounts :=
        if flawedPacket then { counts with transportErrors := min 65535 (counts.transportErrors + 1) } else counts
      (∀ f, x.opened = some f → f.count + 1 < s.live.em.packets →
        ∃ t, exec (.feedPacket p sync rest) s = .next t ∧
          leaves { base with
            counts := counted
            opened := some { f with
              buffer := f.buffer ++ [q], hash := crc32 f.hash q, count := f.count + 1,
              transportErrors := if flawedPacket then f.transportErrors + 1 else f.transportErrors,
              continuityErrors := if failed then f.continuityErrors + 1 else f.continuityErrors } } [] t) ∧
      (∀ f, x.opened = some f → f.count + 1 = s.live.em.packets →
        let clean : Prop := f.transportErrors = 0 ∧ f.continuityErrors = 0 ∧ flawedPacket = false ∧ failed = false
        let y : PortRec :=
          if clean then scoredPort s { base with opened := none, counts := { counted with clean := min 65535 (counted.clean + 1) } } 0
          else scoredPort s { base with opened := none, counts := { counted with flawed := min 65535 (counted.flawed + 1) } } 32768
        let usable : Prop := y.mode = .good ∨ y.mode = .impaired
        let ended : PortRec :=
          if usable then
            if heldOut s p then { y with counts := { y.counts with heldBack := min 65535 (y.counts.heldBack + 1) } }
            else { y with counts := { y.counts with offered := min 65535 (y.counts.offered + 1) } }
          else y
        let scored : State := { s with feed := { s.feed with ports := s.feed.ports.set p ended }, ev := {} }
        let offer : Offer :=
          { port := p, quality := if clean then .clean else .flawed, hash := crc32 f.hash q, arrival := f.arrival,
            timing := f.timing, packets := f.buffer ++ [q] }
        let u := if usable ∧ heldOut s p = false then takeOffer offer scored else scored
        ∃ t, exec (.feedPacket p sync rest) s = .next t ∧ t.feed = { s.feed with ports := s.feed.ports.set p ended } ∧
          t.clock = s.clock ∧ t.live = s.live ∧ (¬ usable ∨ heldOut s p = true ∨ s.em.mode = .off →
            leaves ended (healthItems p x.mode y.mode) t) ∧
          AfterEvent (healthItems p x.mode y.mode ++ u.ev.items) u t ∧
          Noticed 2 (if y.mode = x.mode then []
            else [be 1 p.num ++ be 1 (portCode x.mode) ++ be 1 (portCode y.mode) ++ be 2 y.average]) s t ∧
          Noticed 3 (match u.ev.emission.min? with | some occasion => [emissionBody t (BitVec.ofNat 8 occasion)] | none => []) s t ∧
          Noticed 4 (Four.all.flatMap (fun n => (u.ev.splice.filter (fun note => note.channel = n)).map spliceBody)) s t) ∧
      (x.opened = none → x.assembling = true →
        ∃ t, exec (.feedPacket p sync rest) s = .next t ∧
          leaves { hunting base with counts := { counts with frameAlignment := min 65535 (counts.frameAlignment + 1) } } [] t) ∧
      (x.opened = none → x.assembling = false → ∃ t, exec (.feedPacket p sync rest) s = .next t ∧ leaves base [] t)
    (∀ byte : Byte, ∃ t, exec (.feedByte p byte) s = .next t ∧
      leaves { x with lastByte := s.clock.cycles, firstByte := some stamp } [] t) ∧
    (Packet.whole k = true → hasSync k = true → streamOf k = s.live.feed.timingStream →
      (validTiming k = true → (readTiming k).period = s.live.em.period → (readTiming k).packets = s.live.em.packets →
        ∃ t, exec (.feedPacket p sync rest) s = .next t ∧
          leaves { aligned before with
            assembling := true
            opened := some
              { timing := readTiming k, arrival := stamp, count := 1, transportErrors := 0, continuityErrors := 0,
                hash := crc32 0xFFFFFFFF k, buffer := [k] } } beforeItems t) ∧
      (validTiming k = false →
        let counts := before.counts
        let y := scoredPort s { hunting before with counts := { counts with badTiming := min 65535 (counts.badTiming + 1) } } 65535
        ∃ t, exec (.feedPacket p sync rest) s = .next t ∧ leaves y (beforeItems ++ healthItems p before.mode y.mode) t) ∧
      (validTiming k = true → (readTiming k).period ≠ s.live.em.period ∨ (readTiming k).packets ≠ s.live.em.packets →
        let counts := before.counts
        let y := scoredPort s { hunting before with counts := { counts with format := min 65535 (counts.format + 1) } } 65535
        ∃ t, exec (.feedPacket p sync rest) s = .next t ∧ leaves y (beforeItems ++ healthItems p before.mode y.mode) t)) ∧
    (Packet.whole k = true → hasSync k = true → streamOf k ≠ s.live.feed.timingStream →
      let checked := checkContinuity arrived k
      takes checked.1 k (transportError k) checked.2) ∧
    (hasSync k = false → x.wrongSync < 2 →
      takes
        { arrived with
          wrongSync := x.wrongSync + 1, counts := { x.counts with syncErrors := min 65535 (x.counts.syncErrors + 1) } }
        ([0x47, 0x9F, 0xFF, 0x10] ++ List.replicate 184 0xFF) true false) ∧
    (∀ (y : PortRec) (entry : Option Nat), y.continuity.lookup (streamOf k) = some entry →
      (checkContinuity y k).1.continuity = y.continuity.map (fun e =>
        if e.1 = streamOf k then (e.1, if transportError k then none else some (continuityOf k)) else e) ∧
      ((checkContinuity y k).2 = true ↔ ∃ c, entry = some c ∧ transportError k = false ∧
        continuityOf k ≠ if carriesPayload k then (c + 1) % 16 else c) ∧
      (checkContinuity y k).1.counts.continuityErrors =
        if (checkContinuity y k).2 then min 65535 (y.counts.continuityErrors + 1) else y.counts.continuityErrors) ∧
    (∀ y : PortRec, y.continuity.lookup (streamOf k) = none → checkContinuity y k = (y, false))

/-- The third damaged packet in a row ends the alignment: the port enters SEARCHING with its alignment state at its start values, the
open record is discarded without a verdict, the table is emptied, the deadline becomes absent, FEED x FAILED occurs, a FEED notice tells
of the change with the average as it stands (R42), and the sync errors and the alignment losses gain one (R27). That the assembly phase
is HUNTING from then on is the model's choice (log 44). -/
def Obligations.ThirdDamagedPacketEndsAlignment : Prop :=
  ∀ (s : State) (p : PortId) (sync : Byte) (rest : List Byte), Powered s → isAligned (s.feed.ports.get p).mode = true →
    hasSync (sync :: rest) = false → 2 ≤ (s.feed.ports.get p).wrongSync → s.alarms.records.length = 36 →
    let x := s.feed.ports.get p
    ∃ t, exec (.feedPacket p sync rest) s = .next t ∧
      AfterEvent [failedItem p] { s with feed := { s.feed with ports := s.feed.ports.set p { x with
        mode := .searching, lastByte := s.clock.cycles, runs := List.replicate 188 0, phase := 0, packetPhase := none,
        firstByte := none, wrongSync := 0, assembling := false, opened := none, continuity := [], deadline := none, degrade := 0, recover := 0,
        counts := { x.counts with
          syncErrors := min 65535 (x.counts.syncErrors + 1)
          alignmentLosses := min 65535 (x.counts.alignmentLosses + 1) } } } } t ∧
      Occurred (failedItem p) s t ∧ Noticed 2 [be 1 p.num ++ be 1 (portCode x.mode) ++ [2] ++ be 2 x.average] s t

/-- After 100,000 cycles with no byte, a port that is SEARCHING or aligned becomes DARK with its alignment state at its start values,
and a FEED notice tells of it (R42); one that was aligned reports FEED x FAILED and counts a darkness (R25). That the assembly phase is
HUNTING from then on is the model's choice (log 44). -/
def Obligations.LineActivityExpiryDarkens : Prop :=
  ∀ (s : State) (p : PortId), Powered s → (s.feed.ports.get p).lastByte + 100000 ≤ s.clock.cycles →
    let x := s.feed.ports.get p
    let dark : PortRec := { x with
      mode := .dark, runs := List.replicate 188 0, phase := 0, packetPhase := none, firstByte := none, wrongSync := 0,
      assembling := false, opened := none, continuity := [], deadline := none, degrade := 0, recover := 0 }
    (x.mode = .searching →
      ∃ t, exec (.lineActivityExpiry p) s = .next t ∧
        AfterEvent [] { s with feed := { s.feed with ports := s.feed.ports.set p dark } } t ∧
        Noticed 2 [be 1 p.num ++ [2, 1] ++ be 2 x.average] s t) ∧
    (isAligned x.mode = true → s.alarms.records.length = 36 →
      ∃ t, exec (.lineActivityExpiry p) s = .next t ∧
        AfterEvent [failedItem p] { s with feed := { s.feed with ports := s.feed.ports.set p { dark with
          counts := { x.counts with darkness := min 65535 (x.counts.darkness + 1) } } } } t ∧
        Occurred (failedItem p) s t ∧ Noticed 2 [be 1 p.num ++ be 1 (portCode x.mode) ++ [1] ++ be 2 x.average] s t)

/-- When site time reaches the silence deadline, a GOOD or IMPAIRED port receives a SILENCE verdict: the average moves toward 65,535 by
the health shift (R37), the SILENCE count gains one and the deadline is set F later; a FEED notice tells of a change of state (R42). In
FAILED no verdict is given and the deadline becomes absent (R39). -/
def Obligations.SilenceDeadlineGivesAVerdict : Prop :=
  ∀ (s : State) (p : PortId) (d : Int), Powered s → (s.feed.ports.get p).deadline = some d → d ≤ s.clock.time →
    let x := s.feed.ports.get p
    (x.mode = .good ∨ x.mode = .impaired → x.average ≤ 65535 →
      ∃ t, exec (.silenceDeadline p) s = .next t ∧
        ((t.feed.ports.get p).average : Int) = x.average + (65535 - x.average) / (2 : Int) ^ s.live.feed.healthShift ∧
        (t.feed.ports.get p).counts = { x.counts with silence := min 65535 (x.counts.silence + 1) } ∧
        (t.feed.ports.get p).deadline = some (d + s.live.em.period) ∧
        isAligned (t.feed.ports.get p).mode = true ∧
        Noticed 2 (if (t.feed.ports.get p).mode = x.mode then []
          else [be 1 p.num ++ be 1 (portCode x.mode) ++ be 1 (portCode (t.feed.ports.get p).mode) ++
            be 2 (t.feed.ports.get p).average]) s t ∧
        t.store = s.store ∧ t.em = s.em ∧ t.clock = s.clock ∧ t.mem = s.mem) ∧
    (x.mode = .failed →
      ∃ t, exec (.silenceDeadline p) s = .next t ∧
        AfterEvent [] { s with feed := { s.feed with ports := s.feed.ports.set p { x with deadline := none } } } t)

/-- FEED HOLD: A holds out port B, B holds out port A, NONE neither, each OK; any other value is BAD_PARAMETER and leaves the selection
unchanged (R41, R184). -/
def Obligations.FeedHoldConfinesOffers : Prop :=
  ∀ (s : State) (tag : Byte), Ready s →
    (∃ t, exec (.feedHold tag 0) s = .next t ∧ Replied t 0x19 tag .ok [] ∧
      AfterRequest [] { s with feed := { s.feed with hold := none } } t ∧ heldOut t .a = false ∧ heldOut t .b = false) ∧
    (∃ t, exec (.feedHold tag 1) s = .next t ∧ Replied t 0x19 tag .ok [] ∧
      AfterRequest [] { s with feed := { s.feed with hold := some .a } } t ∧ heldOut t .a = false ∧ heldOut t .b = true) ∧
    (∃ t, exec (.feedHold tag 2) s = .next t ∧ Replied t 0x19 tag .ok [] ∧
      AfterRequest [] { s with feed := { s.feed with hold := some .b } } t ∧ heldOut t .a = true ∧ heldOut t .b = false) ∧
    (∀ x : Byte, 2 < x.toNat →
      ∃ t, exec (.feedHold tag x) s = .next t ∧ Replied t 0x19 tag .badParameter [] ∧ AfterRequest [] s t)

/-- A packet at a feed port writes attached memory only when it completes a frame, and then only in the slot that the frame's sequence
selects (R31, R40, R45, R54). With no record open no byte is written; nor is any by a timing candidate, which ends an open frame and
completes none (R29, R30, R32), by the third damaged packet in a row, which discards the record (R27), or by a packet that leaves the
open frame short of its N packets. For the packet that completes the frame, every byte outside the packets of that slot reads as before.
-/
def Obligations.FeedPacketWritesOneSlot : Prop :=
  ∀ (s t : State) (p : PortId) (sync : Byte) (rest : List Byte), Packet.whole (sync :: rest) = true →
    exec (.feedPacket p sync rest) s = .next t →
    ((s.feed.ports.get p).opened = none → t.mem = s.mem) ∧
    (sync = 0x47 → streamOf (sync :: rest) = s.live.feed.timingStream → t.mem = s.mem) ∧
    (sync ≠ 0x47 → 2 ≤ (s.feed.ports.get p).wrongSync → t.mem = s.mem) ∧
    (∀ f, (s.feed.ports.get p).opened = some f → f.count + 1 ≠ s.live.em.packets → t.mem = s.mem) ∧
    (∀ f, (s.feed.ports.get p).opened = some f → f.buffer.all Packet.whole = true →
      MemoryKeptOutside s t (slotAddress (slotIndex f.timing.seq) 0) (188 * (f.buffer.length + 1)))

/-- An offer that passes tests 1 to 8 and finds its slot FREE is admitted (R48, R54): the slot is HELD with the offer's fields, its
packets lie in the slot's packet memory and no other byte changes, no other slot changes, its delay budget becomes D_last, the port's
ADMITTED count gains one, the jump run is 0 (R62), and so is, in STAMPED emission, the mismatch run (R63). The window base, the step
marks and the other port's counts stay. Its cue entries are handed to Splicing in list order, each malformed one dropped and each other
judged with the offer's sequence as its carrying sequence and the source NETWORK (R57, R111). The instant, the lateness and the
consistency of an offer judged with a window are those of R46, R49 and R53. -/
def Obligations.AdmissionFillsTheSlot : Prop :=
  (∀ (s : State) (o : Offer) (a : Anchor) (b : Seq), s.em.mode ≠ .off → s.store.marks.get o.port = false → s.em.anchor = some a →
    s.store.base = some b → 0 ≤ Seq.distance b o.timing.seq → Seq.distance b o.timing.seq < 64 →
    slotOf s o.timing.seq = .free → windowLate s a b o = false → s.live.em.singleSite = true ∨ consistent s a b o = true →
    s.store.slots.length = 64 → o.packets.all Packet.whole = true → o.packets.length ≤ 4096 →
    let u := takeOffer o s
    let i := slotIndex o.timing.seq
    u.store.slots = s.store.slots.set i (.held
      { seq := o.timing.seq, source := o.port, quality := o.quality, hash := o.hash, arrival := o.arrival,
        emission := windowInstant s a b o, cues := o.timing.cues, directives := o.timing.directives }) ∧
    (∀ j, j < o.packets.flatten.length → Memory.read u.mem (slotAddress i 0 + j) = o.packets.flatten[j]?) ∧
    MemoryKeptOutside s u (slotAddress i 0) (188 * o.packets.length) ∧
    u.em = { s.em with dLast := o.timing.delay } ∧ u.store.jumpRun = 0 ∧ u.store.base = some b ∧ u.store.marks = s.store.marks ∧
    u.store.mismatchRun = (if s.live.em.singleSite then s.store.mismatchRun else 0) ∧
    u.store.counts = s.store.counts.set o.port
      { s.store.counts.get o.port with admitted := min 65535 ((s.store.counts.get o.port).admitted + 1) } ∧
    u.clock = s.clock ∧ u.feed = s.feed ∧ u.drive = s.drive ∧ u.link = s.link ∧ u.live = s.live ∧
    (let placed : State := { s with
       mem := u.mem
       store := { s.store with
         jumpRun := 0, mismatchRun := if s.live.em.singleSite then s.store.mismatchRun else 0, slots := u.store.slots } }
     let v := networkCues o.timing.seq o.timing.cues placed
     u.splice = v.splice ∧ u.clips = v.clips ∧ u.ev = v.ev)) ∧
  (∀ (s : State) (seq : Seq),
    networkCues seq [] s = s ∧
    ∀ (d : CueData) (rest : List CueData), networkCues seq (d :: rest) s = networkCues seq rest
      (if d.avail = 0 ∨ d.kind.toNat = 0 ∨ 3 < d.kind.toNat ∨ (d.kind = 1 ∧ (d.service = 0 ∨ d.duration = 0)) then
        { s with splice := { s.splice with
          counts := { s.splice.counts with dropped := min 65535 (s.splice.counts.dropped + 1) } } }
      else (judgeCue d .network seq s).1)) ∧
  (∀ (s : State) (o : Offer) (a : Anchor) (b : Seq),
    let distance : Int := (o.timing.seq - b).toInt
    let expected : Int := a.instant + (a.counter + distance) * s.live.em.period
    let delay : Int := o.timing.delay + s.em.offset - s.live.em.chainDelay
    let stamped : Int := (o.arrival - o.timing.stamp) / 10000000 * 10000000 + o.timing.stamp + delay
    Seq.distance b o.timing.seq = distance ∧ windowInstant s a b o = (if s.live.em.singleSite then expected else stamped) ∧
    (windowLate s a b o = true ↔
      if s.live.em.singleSite then expected - o.arrival < 2000
      else o.arrival < (o.timing.stamp : Int) ∨ delay ≤ 0 ∨ stamped - o.arrival < 2000) ∧
    (consistent s a b o = true ↔ (stamped - expected).natAbs ≤ s.live.em.mismatch))

/-- An offer of a CLEAN copy that finds its slot HELD with a CLEAN copy of another hash is discarded: DUPLICATE-DIVERGENT gains one for
its port and FEEDS DIVERGENT is reported; with an equal hash it is DUPLICATE-SAME and nothing is reported (R55); the slots and attached
memory are unchanged. A FLAWED copy of a HELD frame is DUPLICATE-SAME whatever the held copy's quality and either hash (R55, R56). A
CLEAN copy upgrades a FLAWED one: it takes the slot, its packets replace the held ones, and UPGRADED gains one (R56). An offer before
the window base, or whose slot is TAKEN, counts as STALE, and one 64 or more past the base as AHEAD; from a port that is not GOOD it
does nothing else, and from a GOOD one it moves the jump run. The third such offer in a row reports SEQUENCE JUMP, sets the jump run to
0 and takes emission to ANCHORING with the store emptied (R52, R62, R64, R71); so does, with TIMING MISMATCH, the third STAMPED offer in
a row that disagrees with prediction, and the first two move the mismatch run alone (R53, R63); that either names its occasion of an
EMISSION notice also when emission was ANCHORING already is the model's choice (log 52). Lateness, the instant and consistency are as
AdmissionFillsTheSlot says (R49, R53). -/
def Obligations.DuplicateAndStaleOffers : Prop :=
  (∀ (s : State) (o : Offer) (a : Anchor) (b : Seq) (h : Held), s.em.mode ≠ .off → s.store.marks.get o.port = false →
    s.em.anchor = some a → s.store.base = some b → 0 ≤ Seq.distance b o.timing.seq → Seq.distance b o.timing.seq < 64 →
    slotOf s o.timing.seq = .held h → h.quality = .clean → o.quality = .clean → windowLate s a b o = false →
    s.live.em.singleSite = true ∨ consistent s a b o = true →
    let u := takeOffer o s
    let c := s.store.counts.get o.port
    u.store.slots = s.store.slots ∧ u.mem = s.mem ∧ u.em = s.em ∧ u.splice = s.splice ∧
    (h.hash ≠ o.hash → u.ev.items = s.ev.items ++ [12] ∧
      u.store.counts = s.store.counts.set o.port { c with duplicateDivergent := min 65535 (c.duplicateDivergent + 1) }) ∧
    (h.hash = o.hash → u.ev = s.ev ∧
      u.store.counts = s.store.counts.set o.port { c with duplicateSame := min 65535 (c.duplicateSame + 1) })) ∧
  (∀ (s : State) (o : Offer) (a : Anchor) (b : Seq) (h : Held), s.em.mode ≠ .off → s.store.marks.get o.port = false →
    s.em.anchor = some a → s.store.base = some b → 0 ≤ Seq.distance b o.timing.seq → Seq.distance b o.timing.seq < 64 →
    slotOf s o.timing.seq = .held h → o.quality = .flawed → windowLate s a b o = false →
    s.live.em.singleSite = true ∨ consistent s a b o = true →
    let c := s.store.counts.get o.port
    takeOffer o s = { s with store := { s.store with
      jumpRun := 0, mismatchRun := if s.live.em.singleSite then s.store.mismatchRun else 0,
      counts := s.store.counts.set o.port { c with duplicateSame := min 65535 (c.duplicateSame + 1) } } }) ∧
  (∀ (s : State) (o : Offer) (a : Anchor) (b : Seq), s.em.mode ≠ .off → s.store.marks.get o.port = false →
    s.em.anchor = some a → s.store.base = some b →
    let distance := Seq.distance b o.timing.seq
    distance < 0 ∨ 64 ≤ distance ∨ (∃ seq x, slotOf s o.timing.seq = .taken seq x) →
    let u := takeOffer o s
    let c := s.store.counts.get o.port
    let good : Prop := (s.feed.ports.get o.port).mode = .good
    let counted := s.store.counts.set o.port
      (if distance < 64 then { c with stale := min 65535 (c.stale + 1) } else { c with ahead := min 65535 (c.ahead + 1) })
    (¬ good → u = { s with store := { s.store with counts := counted } }) ∧
    (good → s.store.jumpRun < 2 → u = { s with store := { s.store with jumpRun := s.store.jumpRun + 1, counts := counted } }) ∧
    (good → 2 ≤ s.store.jumpRun →
      15 ∈ u.ev.items ∧ 5 ∈ u.ev.emission ∧ u.em.mode = .anchoring ∧ u.em.anchor = none ∧ u.mem = s.mem ∧
      u.store = { s.store with
        slots := List.replicate 64 .free, base := none, jumpRun := 0, mismatchRun := 0, counts := counted })) ∧
  (∀ (s : State) (o : Offer) (a : Anchor) (b : Seq) (h : Held), s.em.mode ≠ .off → s.store.marks.get o.port = false →
    s.em.anchor = some a → s.store.base = some b → 0 ≤ Seq.distance b o.timing.seq → Seq.distance b o.timing.seq < 64 →
    slotOf s o.timing.seq = .held h → h.quality = .flawed → o.quality = .clean → windowLate s a b o = false →
    s.live.em.singleSite = true ∨ consistent s a b o = true → s.store.slots.length = 64 →
    o.packets.all Packet.whole = true → o.packets.length ≤ 4096 →
    let u := takeOffer o s
    let c := s.store.counts.get o.port
    let i := slotIndex o.timing.seq
    u.store = { s.store with
      jumpRun := 0, mismatchRun := if s.live.em.singleSite then s.store.mismatchRun else 0,
      counts := s.store.counts.set o.port { c with upgraded := min 65535 (c.upgraded + 1) },
      slots := s.store.slots.set i (.held
        { seq := o.timing.seq, source := o.port, quality := .clean, hash := o.hash, arrival := o.arrival,
          emission := windowInstant s a b o, cues := o.timing.cues, directives := o.timing.directives }) } ∧
    (∀ j, j < o.packets.flatten.length → Memory.read u.mem (slotAddress i 0 + j) = o.packets.flatten[j]?) ∧
    MemoryKeptOutside s u (slotAddress i 0) (188 * o.packets.length) ∧ u.em = { s.em with dLast := o.timing.delay }) ∧
  (∀ (s : State) (o : Offer) (a : Anchor) (b : Seq), s.em.mode ≠ .off → s.store.marks.get o.port = false →
    s.em.anchor = some a → s.store.base = some b → 0 ≤ Seq.distance b o.timing.seq → Seq.distance b o.timing.seq < 64 →
    (∀ seq c, slotOf s o.timing.seq ≠ .taken seq c) → windowLate s a b o = false → s.live.em.singleSite = false →
    consistent s a b o = false →
    let u := takeOffer o s
    let c := s.store.counts.get o.port
    let counted := s.store.counts.set o.port { c with mismatch := min 65535 (c.mismatch + 1) }
    (s.store.mismatchRun < 2 → u = { s with store := { s.store with mismatchRun := s.store.mismatchRun + 1, counts := counted } }) ∧
    (2 ≤ s.store.mismatchRun → 14 ∈ u.ev.items ∧ 6 ∈ u.ev.emission ∧ u.em.mode = .anchoring ∧ u.em.anchor = none ∧ u.mem = s.mem ∧
      u.store = { s.store with
        slots := List.replicate 64 .free, base := none, jumpRun := 0, mismatchRun := 0, counts := counted }))

/-! ## The Emission Scheduler -/

/-- START EMISSION in OFF, with no channel ACTIVE, enters ANCHORING with the store emptied, no anchor, the continuity offset table
cleared and the mute-reason set holding at most HOST (R69, R71, R64, R129). STOP EMISSION enters OFF: the same, with every channel IDLE,
the cue table empty, the directive power 1000 and the drive level 0 (R70, R126, R136, R139); in OFF it is OK and changes nothing.
RE-ANCHOR outside OFF enters ANCHORING again, counts a re-anchor and leaves no channel ACTIVE (R72, R126). START EMISSION outside OFF
and RE-ANCHOR in OFF are REFUSED_STATE. Each entry queues one EMISSION notice, with the occasion START EMISSION, STOP or RE-ANCHOR
(R90); that RE-ANCHOR from ANCHORING itself queues one is the model's choice (log 52). -/
def Obligations.EmissionEntries : Prop :=
  ∀ (s : State) (tag : Byte), Ready s →
    let emptied : StoreState :=
      { s.store with slots := List.replicate 64 .free, base := none, jumpRun := 0, mismatchRun := 0 }
    let cleared : List OffsetRec := s.splice.offsets.map (fun r => { r with last := none, offset := 0, resync := false })
    (s.em.mode = .off → (∀ n c, s.splice.channels.get n = some c → c.active = false) →
      ∃ t, exec (.startEmission tag) s = .next t ∧ Replied t 0x20 tag .ok [] ∧
        AfterRequest [] { s with
          store := emptied
          em := { s.em with
            mode := .anchoring, anchor := none, gapRun := 0, resumeRun := 0, mute := { host := s.em.mute.host },
            offset := s.em.pendingOffset.getD s.em.offset, pendingOffset := none }
          splice := { s.splice with
            lastStarted := none
            offsets := cleared } } t ∧
        Noticed 3 [emissionBody t 1] s t) ∧
    (s.em.mode ≠ .off →
      ∃ t, exec (.stopEmission tag) s = .next t ∧ Replied t 0x21 tag .ok [] ∧ t.store = emptied ∧
        t.em = { s.em with
          mode := .off, anchor := none, gapRun := 0, resumeRun := 0, mute := { host := s.em.mute.host }, counts := t.em.counts,
          origin := t.em.origin, freePeriod := t.em.freePeriod, freePacket := t.em.freePacket } ∧
        t.splice.cues = [] ∧ (∀ n, t.splice.channels.get n = none) ∧ t.splice.lastStarted = none ∧ t.splice.offsets = cleared ∧
        t.drive.directive = 1000 ∧ Noticed 3 [emissionBody t 3] s t ∧
        (LevelOk s → t.drive.level = 0) ∧ t.clock = s.clock ∧ t.feed = s.feed ∧ t.live = s.live ∧ t.mem = s.mem) ∧
    (s.em.mode = .off →
      ∃ t, exec (.stopEmission tag) s = .next t ∧ Replied t 0x21 tag .ok [] ∧ AfterRequest [] s t ∧ Noticed 3 [] s t) ∧
    (s.em.mode ≠ .off →
      ∃ t, exec (.reAnchor tag) s = .next t ∧ Replied t 0x22 tag .ok [] ∧ t.store = emptied ∧ t.em.mode = .anchoring ∧
        t.em.anchor = none ∧ t.em.mute = { host := s.em.mute.host } ∧ t.em.offset = s.em.pendingOffset.getD s.em.offset ∧
        t.em.pendingOffset = none ∧ t.em.counts.reAnchors = min 4294967295 (s.em.counts.reAnchors + 1) ∧
        (∀ n c, t.splice.channels.get n = some c → c.active = false) ∧ t.splice.lastStarted = none ∧ t.splice.offsets = cleared ∧
        Noticed 3 [emissionBody t 4] s t ∧ (LevelOk s → t.drive.level = 0) ∧ t.clock = s.clock ∧ t.feed = s.feed ∧ t.live = s.live ∧ t.mem = s.mem) ∧
    (s.em.mode ≠ .off →
      ∃ t, exec (.startEmission tag) s = .next t ∧ Replied t 0x20 tag .refusedState [] ∧ AfterRequest [] s t) ∧
    (s.em.mode = .off → ∃ t, exec (.reAnchor tag) s = .next t ∧ Replied t 0x22 tag .refusedState [] ∧ AfterRequest [] s t)

/-- MUTE adds HOST to the mute-reason set, and the drive level is 0 at its end; UNMUTE removes HOST (R85, R68, R139); an EMISSION notice
tells of a change of the set (R90). SET OFFSET makes its value, clamped to a magnitude of 500,000, the pending offset, and replies with
it, OK or, after a clamp, ADJUSTED (R87). A directive addressed to this site or to every site adds or removes NETWORK, sets the
directive power, clamped to 0 to 1000, with the ceiling, or sets the pending offset, clamped, and counts as acted on; one for another
site or of another kind counts as passed over and does nothing else (R86, R136, R183). It takes effect at the start of the frame that
carries it, as a MUTE does here. -/
def Obligations.HostMuteAndOffset : Prop :=
  (∀ (s : State) (tag : Byte), Ready s →
    (∃ t, exec (.mute tag) s = .next t ∧ Replied t 0x23 tag .ok [] ∧
      AfterRequest [] { s with em := { s.em with mute := { s.em.mute with host := true } } } t ∧
      Noticed 3 (if s.em.mute.host then [] else [emissionBody t 11]) s t ∧
      (LevelOk s → t.drive.level = 0 ∧ t.drive.line = 0)) ∧
    (∃ t, exec (.unmute tag) s = .next t ∧ Replied t 0x24 tag .ok [] ∧
      AfterRequest [] { s with em := { s.em with mute := { s.em.mute with host := false } } } t ∧
      Noticed 3 (if s.em.mute.host then [emissionBody t 11] else []) s t) ∧
    (∀ o : BitVec 32,
      let held : Int := if o.toInt < -500000 then -500000 else if 500000 < o.toInt then 500000 else o.toInt
      ∃ t, exec (.setOffset tag o) s = .next t ∧
        Replied t 0x25 tag (if held = o.toInt then .ok else .adjusted) (be 4 held) ∧
        AfterRequest [] { s with em := { s.em with pendingOffset := some held } } t)) ∧
  (∀ (s : State) (d : Directive),
    let u := actDirective s d
    let k := s.em.counts
    let passed : State :=
      { s with em := { s.em with counts := { k with directivesPassed := min 4294967295 (k.directivesPassed + 1) } } }
    let acted : EmissionCounts := { k with directivesActed := min 4294967295 (k.directivesActed + 1) }
    let here : Prop := d.target = 0 ∨ d.target.toNat = s.live.em.siteId
    (¬ here → u = passed) ∧ (here → d.kind.toNat = 0 ∨ 4 < d.kind.toNat → u = passed) ∧
    (here → d.kind = 1 → u.em = { s.em with mute := { s.em.mute with network := true }, counts := acted } ∧ u.drive = s.drive) ∧
    (here → d.kind = 2 → u.em = { s.em with mute := { s.em.mute with network := false }, counts := acted } ∧ u.drive = s.drive) ∧
    (here → d.kind = 3 → u.em = { s.em with counts := acted } ∧ u.drive.ceiling = ceilingOf u ∧ (LevelOk s → LevelOk u) ∧
      (u.drive.directive : Int) = (if d.value.toInt < 0 then 0 else if 1000 < d.value.toInt then 1000 else d.value.toInt)) ∧
    (here → d.kind = 4 → u.drive = s.drive ∧ u.em = { s.em with
      pendingOffset := some
        (if d.value.toInt < -500000 then -500000 else if 500000 < d.value.toInt then 500000 else d.value.toInt)
      counts := acted }) ∧
    u.clock = s.clock ∧ u.feed = s.feed ∧ u.store = s.store ∧ u.clips = s.clips ∧ u.splice = s.splice ∧ u.live = s.live ∧
    u.mem = s.mem) ∧
  (∀ (s : State) (a : Anchor) (seq : Seq) (h : Held) (d : Directive), Powered s → s.em.anchor = some a → s.em.mode = .running →
    s.em.runPacket = 0 → s.em.runFrame < a.next → a.instant + (s.em.runFrame * s.live.em.period : Nat) ≤ s.clock.time →
    s.store.slots[(a.seq + BitVec.ofNat 16 s.em.runFrame).toNat % 64]? = some (.taken seq (some h)) → h.directives = [d] →
    d.target = 0 → d.kind = 1 →
    ∃ t, exec .packetDeparture s = .next t ∧ t.em.mute.network = true ∧ t.em.runPacket = 1 ∧
      t.em.counts.directivesActed = min 4294967295 (s.em.counts.directivesActed + 1) ∧
      t.em.counts.real = min 4294967295 (s.em.counts.real + 1) ∧ (LevelOk s → t.drive.level = 0))

/-- A take whose cut-off has come turns the HELD slot of its sequence TAKEN with its frame, and a FREE slot TAKEN empty (R59, R78). When
E_anchor is reached with the anchor frame taken and with no directives, emission is RUNNING, its mute-reason set holds at most HOST and,
in STAMPED emission with an unfit clock, TIME, and packet 0 of the held frame leaves at E_anchor (R77, R79, R84); one EMISSION notice
names the occasion RUNNING (R90). While ANCHORING without an anchor an offer is a candidate: late, it only counts as LATE; with an unfit
clock, or, in STAMPED emission, inside the lead, it is passed over; needing a depth above 64 it is refused and counted, with item 16;
and otherwise, its cut-off not yet come, it becomes the anchor, with the window base at its sequence, its copy admitted, and the
occasion ANCHOR TAKEN (R49, R50, R73, R74, R75, R90). That a take waits for the frame before it, and the anchor frame for its take, is
the model's choice (log 35), and so is that TAKE before its cut-off has no effect (log 4). -/
def Obligations.TakesAndTheAnchor : Prop :=
  (∀ (s : State) (a : Anchor), Powered s → s.em.anchor = some a →
    let seq := a.seq + BitVec.ofNat 16 a.next
    let taken (x : Slot) : State := { s with
      store := { s.store with slots := s.store.slots.set (seq.toNat % 64) x }
      em := { s.em with anchor := some { a with next := a.next + 1 } } }
    (a.instant + (a.next * s.live.em.period : Nat) - 2000 ≤ s.clock.time → a.next ≤ a.counter + 1 →
      a.next = 0 ∨ s.em.mode = .running →
      (∀ h, s.store.slots[seq.toNat % 64]? = some (.held h) →
        ∃ t, exec .take s = .next t ∧ AfterEvent [] (taken (.taken seq (some h))) t) ∧
      (s.store.slots[seq.toNat % 64]? = some .free →
        ∃ t, exec .take s = .next t ∧ AfterEvent [] (taken (.taken seq none)) t)) ∧
    (s.clock.time < a.instant + (a.next * s.live.em.period : Nat) - 2000 →
      ∃ t, exec .take s = .next t ∧ AfterEvent [] s t) ∧
    (∀ seq h, s.em.mode = .anchoring → a.instant ≤ s.clock.time → 1 ≤ a.next →
      s.store.slots[a.seq.toNat % 64]? = some (.taken seq (some h)) → h.directives = [] →
      let p := readPacket s (slotAddress (a.seq.toNat % 64) 0)
      ∃ t, exec .anchorReached s = .next t ∧
        t.em = { s.em with
          mode := .running, mute := { host := s.em.mute.host, time := !s.live.em.singleSite && !clockFit s }, gapRun := 0,
          resumeRun := 0, runFrame := 0, runPacket := 1, lastCount := continuityOf p, out := some ⟨a.instant, p⟩,
          counts := { s.em.counts with real := min 4294967295 (s.em.counts.real + 1) } } ∧
        t.splice.lastStarted = some a.seq ∧ t.store = s.store ∧ t.clock = s.clock ∧ t.feed = s.feed ∧ t.live = s.live ∧
        t.mem = s.mem ∧ Noticed 3 [emissionBody t 8] s t)) ∧
  (∀ (s : State) (o : Offer), s.em.mode = .anchoring → s.store.marks.get o.port = false → s.em.anchor = none →
    let u := takeOffer o s
    let k := s.em.counts
    let c := s.store.counts.get o.port
    let stamped : Prop := s.live.em.singleSite = false
    let delay : Int := o.timing.delay + s.em.offset - s.live.em.chainDelay
    let instant : Int :=
      if s.live.em.singleSite then o.arrival + s.live.em.bufferDelay
      else (o.arrival - o.timing.stamp) / 10000000 * 10000000 + o.timing.stamp + delay
    let late : Prop := stamped ∧ (o.arrival < (o.timing.stamp : Int) ∨ delay ≤ 0 ∨ instant - o.arrival < 2000)
    let unfit : Prop := stamped ∧ (clockFit s = false ∨ instant - o.arrival < s.live.em.lead)
    let held : Int := if s.live.em.singleSite then s.live.em.bufferDelay else delay
    let deep : Prop := 63 * (s.live.em.period : Int) < held
    let passed : Prop := instant - 2000 ≤ s.clock.time
    1 ≤ s.live.em.period →
    (late → u = { s with store := { s.store with counts := s.store.counts.set o.port { c with late := min 65535 (c.late + 1) } } }) ∧
    (¬ late → unfit → u = s) ∧
    (¬ late → ¬ unfit → deep → 16 ∈ u.ev.items ∧
      u = { s with
        em := { s.em with counts := { k with depthRefusals := min 4294967295 (k.depthRefusals + 1) } }, ev := u.ev }) ∧
    (¬ late → ¬ unfit → ¬ deep → passed → u = s) ∧
    (¬ late → ¬ unfit → ¬ deep → ¬ passed →
      u.em = { s.em with
        anchor := some { seq := o.timing.seq, instant := instant, counter := 0, next := 0 }, dLast := o.timing.delay,
        counts := { k with anchorsTaken := min 4294967295 (k.anchorsTaken + 1) } } ∧
      u.store = { s.store with
        base := some o.timing.seq, jumpRun := 0, mismatchRun := 0,
        counts := s.store.counts.set o.port { c with admitted := min 65535 (c.admitted + 1) },
        slots := s.store.slots.set (slotIndex o.timing.seq) (.held
          { seq := o.timing.seq, source := o.port, quality := o.quality, hash := o.hash, arrival := o.arrival, emission := instant,
            cues := o.timing.cues, directives := o.timing.directives }) } ∧
      u.ev.emission = s.ev.emission ++ [9] ∧ u.clock = s.clock ∧ u.feed = s.feed ∧ u.drive = s.drive))

/-- A null frame's start counts a null frame and lengthens the gap run; when the run reaches the gap limit, FEED joins the mute-reason
set, which an EMISSION notice tells (R90), FRAME GAP latches (R83), and the drive level is 0 at the end of that event (R68, R139). With
nothing to splice, FRAME GAP is the one occurrence of the event. -/
def Obligations.NullFramesMuteEmission : Prop :=
  ∀ (s : State) (a : Anchor) (seq : Seq), Powered s → s.em.anchor = some a → s.em.mode = .running → s.em.runPacket = 0 →
    s.em.runFrame < a.next → a.instant + (s.em.runFrame * s.live.em.period : Nat) ≤ s.clock.time →
    s.store.slots[(a.seq + BitVec.ofNat 16 s.em.runFrame).toNat % 64]? = some (.taken seq none) →
    s.em.mute.feed = false → s.alarms.records.length = 36 →
    let gap := min 255 (s.em.gapRun + 1)
    let limit := s.live.em.gapLimit
    ∃ t, exec .packetDeparture s = .next t ∧ t.em.gapRun = gap ∧ t.em.resumeRun = 0 ∧ t.em.runPacket = 1 ∧
      t.em.mute = { s.em.mute with feed := decide (limit ≤ gap) } ∧
      t.em.counts = { s.em.counts with null := min 4294967295 (s.em.counts.null + 1) } ∧
      (limit ≤ gap → (alarmRec t 13).latched = true ∧ (LevelOk s → t.drive.level = 0)) ∧
      Noticed 3 (if limit ≤ gap then [emissionBody t 11] else []) s t ∧
      (limit ≤ gap → s.splice.cues = [] → (∀ n c, s.splice.channels.get n = some c → c.active = false) → Occurred 13 s t) ∧
      t.store = s.store ∧ t.clock = s.clock ∧ t.mem = s.mem

/-- Packets after a frame's first leave at E + trunc(j × F / N) (R79). With no channel ACTIVE, a packet that is a null packet or lies on
no service stream leaves unchanged, and with the frame's last packet the slot of frame b is FREE, and b and the frame counter gain one
(R61, R110, R128). A channel that takes the position places its next clip packet with the stream that its map gives and the continuity
count that R128 gives an inserted packet; a clip packet that the map does not name leaves as a null packet and counts as placed; and
with a due count of 0 a null packet leaves (R121, R128). A network packet of a service stream, freed by no channel, leaves with its
count rewritten, and the stream's record takes the count, and at a resynchronisation the offset (R128). Outside RUNNING null packets
leave on the free grid (R80). -/
def Obligations.PacketsLeaveAtTheirInstants : Prop :=
  ∀ s : State, Powered s →
    let null : Packet := [0x47, 0x1F, 0xFF, 0x10] ++ List.replicate 184 0xFF
    (∀ (a : Anchor) (seq : Seq) (h : Held), s.em.anchor = some a → s.em.mode = .running → 1 ≤ s.em.runPacket →
      s.store.slots[(a.seq + BitVec.ofNat 16 s.em.runFrame).toNat % 64]? = some (.taken seq (some h)) →
      let j := s.em.runPacket
      let at_ : Int := a.instant + (s.em.runFrame * s.live.em.period : Nat) + (j * s.live.em.period / s.live.em.packets : Nat)
      let p := readPacket s (slotAddress ((a.seq + BitVec.ofNat 16 s.em.runFrame).toNat % 64) j)
      at_ ≤ s.clock.time →
      ((∀ n c, s.splice.channels.get n = some c → c.active = false) → streamOf p = 8191 ∨ offsetRec s (streamOf p) = none →
        (j + 1 < s.live.em.packets →
          ∃ t, exec .packetDeparture s = .next t ∧
            AfterEvent [] { s with em := { s.em with out := some ⟨at_, p⟩, runPacket := j + 1 } } t) ∧
        (∀ b, j + 1 = s.live.em.packets → s.store.base = some b → a.counter + 1 < 2147483648 →
          ∃ t, exec .packetDeparture s = .next t ∧
            AfterEvent [] { s with
              em := { s.em with
                out := some ⟨at_, p⟩, runFrame := s.em.runFrame + 1, runPacket := 0,
                anchor := some { a with counter := a.counter + 1 } }
              store := { s.store with slots := s.store.slots.set (b.toNat % 64) .free, base := some (b + 1) }
              splice := { s.splice with cueRef := b + 1 } } t)) ∧
      (∀ n c,
        (streamOf p ≠ 8191 ∧ freedBy s (streamOf p) = some (n, c) ∧ 0 < c.due) ∨ (streamOf p = 8191 ∧ harvester s = some (n, c)) →
        j + 1 < s.live.em.packets →
        let q := readPacket s (clipAddress ((clipRec s c.clip).base + c.read))
        (∀ stream r, c.map.lookup (streamOf q) = some stream → stream ≤ 8190 → offsetRec s stream = some r →
          let count := match r.last with
            | some last => if carriesPayload q then (last + 1) % 16 else last
            | none => if carriesPayload q then 0 else continuityOf q
          ∃ t, exec .packetDeparture s = .next t ∧
            t.em = { s.em with out := some ⟨at_, setContinuity (setStream q stream) count⟩, runPacket := j + 1 } ∧
            t.splice.channels = s.splice.channels.set n (some { c with read := c.read + 1, due := c.due - 1 }) ∧
            offsetRec t stream = some { r with last := some count } ∧
            t.splice.cues = s.splice.cues ∧ t.store = s.store ∧ t.clips = s.clips ∧ t.clock = s.clock ∧ t.mem = s.mem) ∧
        (c.map.lookup (streamOf q) = none →
          ∃ t, exec .packetDeparture s = .next t ∧
            AfterEvent [] { s with
              em := { s.em with out := some ⟨at_, null⟩, runPacket := j + 1 }
              splice := { s.splice with
                channels := s.splice.channels.set n (some { c with read := c.read + 1, due := c.due - 1 }) } } t)) ∧
      (∀ n c, streamOf p ≠ 8191 → freedBy s (streamOf p) = some (n, c) → c.due = 0 → j + 1 < s.live.em.packets →
        ∃ t, exec .packetDeparture s = .next t ∧
          AfterEvent [] { s with em := { s.em with out := some ⟨at_, null⟩, runPacket := j + 1 } } t) ∧
      (∀ r, streamOf p ≠ 8191 → freedBy s (streamOf p) = none → offsetRec s (streamOf p) = some r → j + 1 < s.live.em.packets →
        let resyncs : Prop := r.resync = true ∧ carriesPayload p = true
        let offset :=
          if resyncs then (match r.last with | some last => (last + 1 + 16 - continuityOf p) % 16 | none => 0) else r.offset
        let count :=
          if r.resync = true ∧ ¬ resyncs then r.last.getD (continuityOf p) else (continuityOf p + offset) % 16
        ∃ t, exec .packetDeparture s = .next t ∧
          AfterEvent [] { s with
            em := { s.em with out := some ⟨at_, setContinuity p count⟩, runPacket := j + 1 }
            splice := { s.splice with offsets := s.splice.offsets.map (fun x =>
              if x.stream = streamOf p then
                { r with last := some count, offset := offset, resync := if resyncs then false else r.resync }
              else x) } } t)) ∧
    (s.em.mode ≠ .running → s.em.anchor = none →
      let i := s.em.freePacket
      let at_ : Int := s.em.origin + (s.em.freePeriod * s.live.em.period + i * s.live.em.period / s.live.em.packets : Nat)
      at_ ≤ s.clock.time →
      ∃ t, exec .freeGridPacket s = .next t ∧
        AfterEvent [] { s with em := { s.em with
          out := some ⟨at_, null⟩
          freePeriod := if s.live.em.packets ≤ i + 1 then s.em.freePeriod + 1 else s.em.freePeriod
          freePacket := if s.live.em.packets ≤ i + 1 then 0 else i + 1 } } t)

/-! ## Services, clips and plans -/

/-- DEFINE SERVICE that passes R93's checks puts its entry into the service table in place of one with its number, leaves every other
entry, and brings the continuity offset records into line: one record for each service stream, kept where it existed (R93, R127). Number
0, a flag above 1, a count outside 1 to 8, a stream above 8,190 or equal to the timing stream, one given twice and one of another
service are BAD_PARAMETER; a bound service, and a plan of the service with a target that the new list drops, are REFUSED_STATE; a
seventeenth service is NO_ROOM. DELETE SERVICE has the four results of R94, and removes the entry alone. -/
def Obligations.ServiceTable : Prop :=
  ∀ (s : State) (tag : Byte) (number : BitVec 16), Ready s →
    (∀ (eligible : Byte) (list : List (BitVec 16)),
      let streams := list.map BitVec.toNat
      let define := exec (.defineService tag number eligible list) s
      (number = 0 ∨ 1 < eligible.toNat ∨ streams = [] ∨ 8 < streams.length ∨
          (∃ x ∈ streams, 8190 < x ∨ x = s.live.feed.timingStream) ∨ ¬ streams.Nodup ∨
          (∃ v ∈ s.splice.services, v.number ≠ number.toNat ∧ ∃ x ∈ streams, x ∈ v.streams) →
        ∃ t, define = .next t ∧ Replied t 0x28 tag .badParameter [] ∧ AfterRequest [] s t) ∧
      (number ≠ 0 → eligible.toNat ≤ 1 → 1 ≤ streams.length → streams.length ≤ 8 →
        (∀ x ∈ streams, x ≤ 8190 ∧ x ≠ s.live.feed.timingStream) → streams.Nodup →
        (∀ v ∈ s.splice.services, v.number ≠ number.toNat → ∀ x ∈ streams, x ∉ v.streams) →
        ((serviceOf s number.toNat).isSome = true → serviceBound s number.toNat = true ∨
            (∃ p ∈ s.splice.plans, p.service = number.toNat ∧ ∃ m ∈ p.map, m.2 ∉ streams) →
          ∃ t, define = .next t ∧ Replied t 0x28 tag .refusedState [] ∧ AfterRequest [] s t) ∧
        (serviceOf s number.toNat = none → 16 ≤ s.splice.services.length →
          ∃ t, define = .next t ∧ Replied t 0x28 tag .noRoom [] ∧ AfterRequest [] s t) ∧
        (serviceBound s number.toNat = false →
          (∀ p ∈ s.splice.plans, p.service = number.toNat → ∀ m ∈ p.map, m.2 ∈ streams) →
          (serviceOf s number.toNat).isSome = true ∨ s.splice.services.length < 16 →
          ∃ t, define = .next t ∧ Replied t 0x28 tag .ok [] ∧
            AfterRequest [] { s with splice := { s.splice with services := t.splice.services, offsets := t.splice.offsets } } t ∧
            serviceOf t number.toNat = some ⟨number.toNat, streams, eligible == 1⟩ ∧
            (∀ m, m ≠ number.toNat → serviceOf t m = serviceOf s m) ∧
            t.splice.offsets.map OffsetRec.stream = serviceStreams t ∧
            (∀ x ∈ serviceStreams t, offsetRec t x = some ((offsetRec s x).getD { stream := x }))))) ∧
    (let n := number.toNat
     let delete := exec (.deleteService tag number) s
     (n = 0 → ∃ t, delete = .next t ∧ Replied t 0x29 tag .badParameter [] ∧ AfterRequest [] s t) ∧
     (n ≠ 0 → serviceOf s n = none → ∃ t, delete = .next t ∧ Replied t 0x29 tag .notFound [] ∧ AfterRequest [] s t) ∧
     (n ≠ 0 → (serviceOf s n).isSome = true → serviceBound s n = true ∨ (∃ p ∈ s.splice.plans, p.service = n) →
       ∃ t, delete = .next t ∧ Replied t 0x29 tag .refusedState [] ∧ AfterRequest [] s t) ∧
     (n ≠ 0 → (serviceOf s n).isSome = true → serviceBound s n = false → (∀ p ∈ s.splice.plans, p.service ≠ n) →
       ∃ t, delete = .next t ∧ Replied t 0x29 tag .ok [] ∧
         AfterRequest [] { s with splice := { s.splice with services := t.splice.services, offsets := t.splice.offsets } } t ∧
         serviceOf t n = none ∧ (∀ m, m ≠ n → serviceOf t m = serviceOf s m) ∧
         t.splice.offsets.map OffsetRec.stream = serviceStreams t))

/-- CLIP OPEN that passes R97's checks makes the clip LOADING with f, k and the expected CRC, at the lowest run of free positions that
holds f × k packets; with none the reply is NO_ROOM, and its other checks are BAD_PARAMETER and REFUSED_STATE (R97). CLIP DATA with one
to five packets of good sync into a LOADING clip is OK and reports where it stands; it writes its packet at the write position, which
then moves one on and from the end of the extent to 0, counting a wrap, and raises the high-water mark (R98); no request of CLIP DATA
writes attached memory outside the extent (R96). CLIP SEEK has the four results of R99. Extents inside the clip region and a write
position inside the extent, which every run keeps, are premises where the packet is read back. -/
def Obligations.ClipLoading : Prop :=
  ∀ (s : State) (tag n : Byte), Ready s →
    let c := clipRec s n.toNat
    let put (x : Clip) : State := { s with clips := { s.clips with clips := s.clips.clips.set n.toNat x } }
    (∀ (f k : BitVec 16) (crc : BitVec 32), n.toNat ≤ 31 → f ≠ 0 → k ≠ 0 → k.toNat ≤ 4095 → k.toNat < s.live.em.packets →
      c.mode = .empty →
      let length := f.toNat * k.toNat
      let isFree (p : Nat) : Prop := p + length ≤ 1165704 ∧ ∀ m, (clipRec s m).mode ≠ .empty →
        p + length ≤ (clipRec s m).base ∨ (clipRec s m).base + (clipRec s m).length ≤ p
      (firstFit s length = none → (ClipsOk s → ∀ p, ¬ isFree p) ∧
        ∃ t, exec (.clipOpen tag n f k crc) s = .next t ∧ Replied t 0x30 tag .noRoom [] ∧ AfterRequest [] s t) ∧
      (∀ base, firstFit s length = some base → (ClipsOk s → isFree base ∧ ∀ p, p < base → ¬ isFree p) ∧
        ∃ t, exec (.clipOpen tag n f k crc) s = .next t ∧ Replied t 0x30 tag .ok (be 4 base ++ be 4 length) ∧
          AfterRequest [] (put
            { mode := .loading, frames := f.toNat, perFrame := k.toNat, base := base, length := length, expected := crc }) t)) ∧
    (∀ (f k : BitVec 16) (crc : BitVec 32),
      (31 < n.toNat ∨ f = 0 ∨ k = 0 ∨ 4095 < k.toNat ∨ s.live.em.packets ≤ k.toNat →
        ∃ t, exec (.clipOpen tag n f k crc) s = .next t ∧ Replied t 0x30 tag .badParameter [] ∧ AfterRequest [] s t) ∧
      (n.toNat ≤ 31 → f ≠ 0 → k ≠ 0 → k.toNat ≤ 4095 → k.toNat < s.live.em.packets → c.mode ≠ .empty →
        ∃ t, exec (.clipOpen tag n f k crc) s = .next t ∧ Replied t 0x30 tag .refusedState [] ∧ AfterRequest [] s t)) ∧
    (∀ packets : List Packet, packets.all Packet.whole = true →
      let data := exec (.clipData tag n packets) s
      (31 < n.toNat ∨ packets = [] ∨ 5 < packets.length →
        ∃ t, data = .next t ∧ Replied t 0x31 tag .badParameter [] ∧ AfterRequest [] s t) ∧
      (n.toNat ≤ 31 → packets ≠ [] → packets.length ≤ 5 → c.mode ≠ .loading →
        ∃ t, data = .next t ∧ Replied t 0x31 tag .refusedState [] ∧ AfterRequest [] s t) ∧
      (n.toNat ≤ 31 → packets ≠ [] → packets.length ≤ 5 → c.mode = .loading → packets.all hasSync = false →
        ∃ t, data = .next t ∧ Replied t 0x31 tag .badParameter [] ∧ AfterRequest [] s t) ∧
      (n.toNat ≤ 31 → packets ≠ [] → packets.length ≤ 5 → c.mode = .loading → packets.all hasSync = true →
        s.clips.clips.length = 32 →
        ∃ t, data = .next t ∧ AfterRequest [] { put (clipRec t n.toNat) with mem := t.mem } t ∧
          Replied t 0x31 tag .ok (be 4 (clipRec t n.toNat).writePos ++ be 4 (clipRec t n.toNat).highWater ++
            be 2 (clipRec t n.toNat).wraps))) ∧
    (∀ p : Packet, n.toNat ≤ 31 → Packet.whole p = true → hasSync p = true → c.mode = .loading → ClipsOk s → c.writePos < c.length →
      let place := 49283072 + (c.base + c.writePos) * 188
      let wraps := c.writePos + 1 = c.length
      let x : Clip := { c with
        writePos := if wraps then 0 else c.writePos + 1, highWater := max c.highWater (c.writePos + 1),
        wraps := if wraps then min 65535 (c.wraps + 1) else c.wraps }
      ∃ t, exec (.clipData tag n [p]) s = .next t ∧
        Replied t 0x31 tag .ok (be 4 x.writePos ++ be 4 x.highWater ++ be 2 x.wraps) ∧
        AfterRequest [] { put x with mem := t.mem } t ∧ readPacket t place = p ∧ MemoryKeptOutside s t place 188) ∧
    (∀ (packets : List Packet) (t : State), exec (.clipData tag n packets) s = .next t → c.writePos < c.length →
      MemoryKeptOutside s t (49283072 + c.base * 188) (c.length * 188)) ∧
    (∀ position : BitVec 32,
      let seek := exec (.clipSeek tag n position) s
      (31 < n.toNat → ∃ t, seek = .next t ∧ Replied t 0x32 tag .badParameter [] ∧ AfterRequest [] s t) ∧
      (n.toNat ≤ 31 → c.mode ≠ .loading → ∃ t, seek = .next t ∧ Replied t 0x32 tag .refusedState [] ∧ AfterRequest [] s t) ∧
      (n.toNat ≤ 31 → c.mode = .loading → c.length ≤ position.toNat →
        ∃ t, seek = .next t ∧ Replied t 0x32 tag .badParameter [] ∧ AfterRequest [] s t) ∧
      (n.toNat ≤ 31 → c.mode = .loading → position.toNat < c.length →
        ∃ t, seek = .next t ∧ Replied t 0x32 tag .ok [] ∧ AfterRequest [] (put { c with writePos := position.toNat }) t))

/-- CLIP CLOSE of a clip not loaded to its end rejects it for COVERAGE and latches CLIP REJECTED; else the clip is VERIFYING at the end
of the queue, and at the head its pass begins (R100, R102). A step reads at most 4,096 packets into the CRC; each stream other than the
null stream joins the streams found, up to eight, and a ninth is marked (R101). The last step decides: SYNC, or STREAMS on a ninth
stream, or CRC, or READY (R102), and the next pass begins. Each rejection and each end of a pass queues a CLIP notice with the state,
the reason and the CRC computed (R102). CLIP DELETE empties the record and leaves the queue (R103). A pass begins with its CRC at all
ones. That the next step is timed from the end of the one before it, at 10,000 cycles, and that the running CRC is kept apart from the
computed CRC of the record, is the model's choice (log 29). -/
def Obligations.ClipVerification : Prop :=
  ∀ s : State, s.clips.clips.length = 32 → s.alarms.records.length = 36 →
    (∀ tag n : Byte, Ready s → 31 < n.toNat →
      (∃ t, exec (.clipClose tag n) s = .next t ∧ Replied t 0x33 tag .badParameter [] ∧ AfterRequest [] s t) ∧
      (∃ t, exec (.clipDelete tag n) s = .next t ∧ Replied t 0x34 tag .badParameter [] ∧ AfterRequest [] s t)) ∧
    (∀ tag n : Byte, Ready s → n.toNat ≤ 31 →
      let c := clipRec s n.toNat
      let put (x : Clip) (q : List Nat) (begins : Bool) : State := { s with clips := { s.clips with
        clips := s.clips.clips.set n.toNat x, queue := q
        stepStart := if begins then s.clock.cycles else s.clips.stepStart
        crc := if begins then 0xFFFFFFFF else s.clips.crc
        syncFailed := !begins && s.clips.syncFailed
        streamFailed := !begins && s.clips.streamFailed } }
      (c.mode = .loading → c.highWater < c.length →
        ∃ t, exec (.clipClose tag n) s = .next t ∧ Replied t 0x33 tag .ok [] ∧
          AfterRequest [20] (put { c with mode := .rejected, reason := some .coverage } s.clips.queue false) t ∧
          Occurred 20 s t ∧ Noticed 5 [[n, 4, 4] ++ be 4 (c.computed.getD 0).toNat] s t) ∧
      (c.mode = .loading → c.length ≤ c.highWater →
        ∃ t, exec (.clipClose tag n) s = .next t ∧ Replied t 0x33 tag .ok [] ∧
          AfterRequest [] (put { c with mode := .verifying, verified := 0 } (s.clips.queue ++ [n.toNat])
            s.clips.queue.isEmpty) t) ∧
      (c.mode ≠ .loading →
        ∃ t, exec (.clipClose tag n) s = .next t ∧ Replied t 0x33 tag .refusedState [] ∧ AfterRequest [] s t) ∧
      (c.mode = .empty → ∃ t, exec (.clipDelete tag n) s = .next t ∧ Replied t 0x34 tag .notFound [] ∧ AfterRequest [] s t) ∧
      (c.mode ≠ .empty → 0 < c.uses →
        ∃ t, exec (.clipDelete tag n) s = .next t ∧ Replied t 0x34 tag .refusedState [] ∧ AfterRequest [] s t) ∧
      (c.mode ≠ .empty → c.uses = 0 →
        ∃ t, exec (.clipDelete tag n) s = .next t ∧ Replied t 0x34 tag .ok [] ∧
          AfterRequest [] (put {} (s.clips.queue.filter (· ≠ n.toNat)) (s.clips.queue.head? == some n.toNat)) t)) ∧
    (∀ (n : Nat) (rest : List Nat), Powered s → s.clips.queue = n :: rest → n < 32 →
      s.clips.stepStart + 10000 ≤ s.clock.cycles →
      let c := clipRec s n
      let count := min 4096 (c.length - c.verified)
      let read := (List.range count).map (fun i => readPacket s (clipAddress (c.base + c.verified + i)))
      let crc := crc32 s.clips.crc read.flatten
      let streams := read.foldl (fun found p =>
        if streamOf p = 8191 ∨ streamOf p ∈ found ∨ 8 ≤ found.length then found else found ++ [streamOf p]) c.streams
      let ninth : Prop := ∃ p ∈ read, streamOf p ≠ 8191 ∧ streamOf p ∉ streams
      let outcome (x : Clip) (items : List Nat) : Prop :=
        let y : Clip := { x with computed := some crc, streams := streams, verified := c.verified + count }
        ∃ t, exec .verificationStepEnd s = .next t ∧
          AfterEvent items { s with clips :=
            { clips := s.clips.clips.set n y, queue := rest, stepStart := s.clips.stepStart + 10000, crc := 0xFFFFFFFF,
              syncFailed := false, streamFailed := false } } t ∧
          (∀ i ∈ items, Occurred i s t) ∧
          Noticed 5 [be 1 n ++ be 1 (clipCode y.mode) ++ be 1 (rejectionCode y.reason) ++ be 4 crc.toNat] s t
      let sync : Prop := s.clips.syncFailed = true ∨ ∃ p ∈ read, hasSync p = false
      let crowded : Prop := s.clips.streamFailed = true ∨ ninth
      (c.verified + 4096 < c.length →
        ∃ t, exec .verificationStepEnd s = .next t ∧
          AfterEvent [] { s with clips :=
            { clips := s.clips.clips.set n { c with verified := c.verified + 4096, streams := streams },
              queue := n :: rest, stepStart := s.clips.stepStart + 10000, crc := crc,
              syncFailed := s.clips.syncFailed || read.any (fun p => !hasSync p),
              streamFailed := t.clips.streamFailed } } t ∧
          (t.clips.streamFailed = true ↔ crowded) ∧ Noticed 5 [] s t) ∧
      (c.length ≤ c.verified + 4096 →
        (sync → outcome { c with mode := .rejected, reason := some .sync } [20]) ∧
        (¬ sync → crowded → outcome { c with mode := .rejected, reason := some .streams } [20]) ∧
        (¬ sync → ¬ crowded → crc ≠ c.expected → outcome { c with mode := .rejected, reason := some .crc } [20]) ∧
        (¬ sync → ¬ crowded → crc = c.expected → outcome { c with mode := .ready } [])))

/-- PLAN SET that passes R106's checks puts its entry under its key, in place of the one that stood there, and leaves every other key. A
malformed key, a service number 0, a clip above 31, a flag above 1, a count outside 1 to 8, a clip stream above 8,190, a stream or a
target given twice and a target outside the service are BAD_PARAMETER; a service that is not in the table is NOT_FOUND, and a
thirty-third key NO_ROOM. PLAN DELETE removes the entry of its key alone, or is NOT_FOUND; with a malformed key it is BAD_PARAMETER
(R107, R106, R184). A key's own fields are those of log 17. -/
def Obligations.PlanTable : Prop :=
  ∀ (s : State) (tag kind : Byte) (avail service : BitVec 16), Ready s →
    let planAt (u : State) (key : PlanKey) : Option Plan := u.splice.plans.find? (fun p => p.key = key)
    let removes := exec (.planDelete tag kind avail service) s
    (∀ key, (kind = 0 ∧ avail ≠ 0 ∧ key = .exact avail.toNat) ∨ (kind = 1 ∧ avail = 0 ∧ service ≠ 0 ∧ key = .any service.toNat) →
      (∀ (clip harvest early : Byte) (map : List StreamPair), service ≠ 0 → clip.toNat ≤ 31 → harvest.toNat ≤ 1 →
        early.toNat ≤ 1 → 1 ≤ map.length → map.length ≤ 8 → (∀ m ∈ map, m.1.toNat ≤ 8190) →
        (map.map Prod.fst).Nodup → (map.map Prod.snd).Nodup →
        let sets := exec (.planSet tag kind avail service clip harvest early map) s
        let p : Plan := { key := key, service := service.toNat, clip := clip.toNat,
                          map := map.map (fun m => (m.1.toNat, m.2.toNat)), harvest := harvest == 1, early := early == 1 }
        (serviceOf s service.toNat = none →
          ∃ t, sets = .next t ∧ Replied t 0x38 tag .notFound [] ∧ AfterRequest [] s t) ∧
        (∀ v, serviceOf s service.toNat = some v → (∀ m ∈ map, m.2.toNat ∈ v.streams) →
          (planAt s key = none → 32 ≤ s.splice.plans.length →
            ∃ t, sets = .next t ∧ Replied t 0x38 tag .noRoom [] ∧ AfterRequest [] s t) ∧
          ((planAt s key).isSome = true ∨ s.splice.plans.length < 32 →
            ∃ t, sets = .next t ∧ Replied t 0x38 tag .ok [] ∧
              AfterRequest [] { s with splice := { s.splice with plans := t.splice.plans } } t ∧
              planAt t key = some p ∧ ∀ other, other ≠ key → planAt t other = planAt s other))) ∧
      (planAt s key = none → ∃ t, removes = .next t ∧ Replied t 0x39 tag .notFound [] ∧ AfterRequest [] s t) ∧
      ((planAt s key).isSome = true →
        ∃ t, removes = .next t ∧ Replied t 0x39 tag .ok [] ∧
          AfterRequest [] { s with splice := { s.splice with plans := t.splice.plans } } t ∧
          planAt t key = none ∧ ∀ other, other ≠ key → planAt t other = planAt s other)) ∧
    (∀ (clip harvest early : Byte) (map : List StreamPair),
      let malformed : Prop := 1 < kind.toNat ∨ (kind = 0 ∧ avail = 0) ∨ (kind = 1 ∧ (avail ≠ 0 ∨ service = 0))
      let sets := exec (.planSet tag kind avail service clip harvest early map) s
      (malformed → ∃ t, removes = .next t ∧ Replied t 0x39 tag .badParameter [] ∧ AfterRequest [] s t) ∧
      (malformed ∨ service = 0 ∨ 31 < clip.toNat ∨ 1 < harvest.toNat ∨ 1 < early.toNat ∨ map = [] ∨ 8 < map.length ∨
          (∃ m ∈ map, 8190 < m.1.toNat) ∨ ¬ (map.map Prod.fst).Nodup ∨ ¬ (map.map Prod.snd).Nodup ∨
          (∃ v, serviceOf s service.toNat = some v ∧ ∃ m ∈ map, m.2.toNat ∉ v.streams) →
        ∃ t, sets = .next t ∧ Replied t 0x38 tag .badParameter [] ∧ AfterRequest [] s t))

/-! ## Splicing -/

/-- The CUE request while emission is RUNNING, with the base b as the carrying sequence (R112): a new OUT avail inside the arming lead
is missed (R113, step 2); one that nothing turns away is ARMED on the lowest idle channel, bound as R115 says. For an avail that has an
entry, the same content is a repeat, another content of an ACTIVE avail a late revision, and another content of any other a revision:
the entry goes, its channel is disarmed, and the cue is judged as new, here to be missed (R113, R114). An IN cue inside an ACTIVE avail
moves its end (R116); CANCEL removes a WAITING or UNFILLED avail (R117). The reply gives the outcome and the channel bound to the avail
(log 16). Outside RUNNING it is REFUSED_STATE, and malformed BAD_PARAMETER. A binding and a disarming queue SPLICE notices (R130), those
of one cue in channel order (log 11). The second part says what judging a cue of either source, judgeCue, makes of the steps of R113
that turn an OUT cue away, arm it, or enter it WAITING or UNFILLED, of an UNFILLED entry judged again (R114), of an IN or CANCEL cue
that is ignored, and of the CANCEL of an ARMED avail (R116, R117); a network cue is judged as a host cue is, but for the source of the
entry it makes. That an entry judged again that stays UNFILLED counts UNFILLED once more is the model's choice (log 12). That an entry's
acceptance order is the counter after the gain it makes is read from the worked sequence of the section, whose first entry has order 1
(log 53). -/
def Obligations.CueOutcomes : Prop :=
  (∀ (s : State) (tag : Byte) (d : CueData), Ready s →
    let cue := exec (.cue tag d) s
    let avail := d.avail.toNat
    let k := s.splice.counts
    (d.avail = 0 ∨ d.kind.toNat = 0 ∨ 3 < d.kind.toNat ∨ (d.kind = 1 ∧ (d.service = 0 ∨ d.duration = 0)) →
      ∃ t, cue = .next t ∧ Replied t 0x40 tag .badParameter [] ∧ AfterRequest [] s t) ∧
    (d.avail ≠ 0 → 1 ≤ d.kind.toNat → d.kind.toNat ≤ 3 → (d.kind = 1 → d.service ≠ 0 ∧ d.duration ≠ 0) →
      (s.em.mode ≠ .running → ∃ t, cue = .next t ∧ Replied t 0x40 tag .refusedState [] ∧ AfterRequest [] s t) ∧
      (∀ b, s.em.mode = .running → s.store.base = some b →
        (s.alarms.records.length = 36 →
         let r := judgeCue d .host b { s with ev := {} }
         let num := match (cueOf r.1 avail).bind CueEntry.channel with | some n => n.num | none => 0
         ∃ t, cue = .next t ∧ Replied t 0x40 tag .ok (be 1 (outcomeCode r.2) ++ be 1 num) ∧ AfterRequest r.1.ev.items r.1 t ∧
           Noticed 4 (Four.all.flatMap (fun n => (r.1.ev.splice.filter (fun note => note.channel = n)).map spliceBody)) s t) ∧
        (d.kind = 1 → cueOf s avail = none → Seq.distance b d.seq < s.live.armingLead → s.alarms.records.length = 36 →
          ∃ t, cue = .next t ∧ Replied t 0x40 tag .ok [7, 0] ∧
            AfterRequest [19] { s with splice := { s.splice with counts := { k with missed := min 65535 (k.missed + 1) } } } t) ∧
        (∀ v p n, d.kind = 1 → cueOf s avail = none → s.live.armingLead ≤ Seq.distance b d.seq →
          serviceOf s d.service.toNat = some v → v.eligible = true → s.splice.cues.length < 16 →
          planFor s avail d.service.toNat = some p → serviceBound s d.service.toNat = false → idleChannel s = some n →
          (clipRec s p.clip).mode = .ready → (clipRec s p.clip).perFrame < s.live.em.packets →
          let clip := clipRec s p.clip
          ∃ t, cue = .next t ∧ Replied t 0x40 tag .ok ([1] ++ be 1 n.num) ∧
            AfterRequest [] { s with
              clips := { s.clips with clips := s.clips.clips.set p.clip { clip with uses := clip.uses + 1 } }
              splice := { s.splice with
                accepted := s.splice.accepted + 1
                counts := { k with new := min 65535 (k.new + 1) }
                cues := s.splice.cues ++ [
                  { avail := avail, service := d.service.toNat, start := d.seq, duration := d.duration.toNat,
                    ending := d.seq + d.duration, source := .host, carrying := b, mode := .armed, channel := some n,
                    order := s.splice.accepted + 1 }]
                channels := s.splice.channels.set n (some
                  { active := false, avail := avail, service := d.service.toNat, start := d.seq,
                    ending := d.seq + d.duration, clip := p.clip, perFrame := clip.perFrame, length := clip.length,
                    map := p.map, harvest := p.harvest, early := p.early }) } } t ∧
            Noticed 4 [spliceBody ⟨n, avail, d.service.toNat, 1, 0, 0, s.splice.lastStarted.getD 0⟩] s t) ∧
        (∀ e q n c, d.kind = 2 → cueOf s avail = some e → e.mode = .active → s.splice.lastStarted = some q →
          1 ≤ (d.seq - q).toNat → (d.seq - q).toNat < (e.ending - q).toNat → e.channel = some n →
          s.splice.channels.get n = some c →
          ∃ t, cue = .next t ∧ Replied t 0x40 tag .ok ([8] ++ be 1 n.num) ∧
            AfterRequest [] { s with splice := { s.splice with
              cues := s.splice.cues.map (fun x => if x.avail = avail then { x with ending := d.seq } else x)
              channels := s.splice.channels.set n (some { c with ending := d.seq })
              counts := { k with endMoved := min 65535 (k.endMoved + 1) } } } t) ∧
        (∀ e, d.kind = 1 → cueOf s avail = some e →
          let num := match e.channel with | some n => n.num | none => 0
          let same : Prop := e.service = d.service.toNat ∧ e.start = d.seq ∧ e.duration = d.duration.toNat
          let kept (n : CueCounts) : State := { s with splice := { s.splice with counts := n } }
          let others := s.splice.cues.filter (fun x => x.avail ≠ avail)
          (same → e.mode ≠ .unfilled →
            ∃ t, cue = .next t ∧ Replied t 0x40 tag .ok ([4] ++ be 1 num) ∧
              AfterRequest [] (kept { k with repeats := min 65535 (k.repeats + 1) }) t) ∧
          (¬ same → e.mode = .active →
            ∃ t, cue = .next t ∧ Replied t 0x40 tag .ok ([5] ++ be 1 num) ∧
              AfterRequest [] (kept { k with lateRevision := min 65535 (k.lateRevision + 1) }) t) ∧
          (¬ same → e.mode ≠ .active → e.channel = none → Seq.distance b d.seq < s.live.armingLead →
            s.alarms.records.length = 36 →
            ∃ t, cue = .next t ∧ Replied t 0x40 tag .ok [7, 0] ∧
              AfterRequest [19] { s with splice := { s.splice with
                cues := others
                counts := { k with revision := min 65535 (k.revision + 1), missed := min 65535 (k.missed + 1) } } } t) ∧
          (∀ n c, ¬ same → e.mode = .armed → e.channel = some n → s.splice.channels.get n = some c → c.avail = avail →
            Seq.distance b d.seq < s.live.armingLead → (∀ x ∈ others, x.mode ≠ .waiting) → s.alarms.records.length = 36 →
            let clip := clipRec s c.clip
            ∃ t, cue = .next t ∧ Replied t 0x40 tag .ok [7, 0] ∧
              AfterRequest [19] { s with
                clips := { s.clips with clips := s.clips.clips.set c.clip { clip with uses := clip.uses - 1 } }
                splice := { s.splice with
                  channels := s.splice.channels.set n none
                  cues := others
                  counts := { k with revision := min 65535 (k.revision + 1), missed := min 65535 (k.missed + 1) } } } t ∧
              Noticed 4 [spliceBody ⟨n, avail, c.service, 4, 0, c.read, s.splice.lastStarted.getD 0⟩] s t)) ∧
        (∀ e, d.kind = 3 → cueOf s avail = some e → e.mode = .waiting ∨ e.mode = .unfilled → e.channel = none →
          ∃ t, cue = .next t ∧ Replied t 0x40 tag .ok [10, 0] ∧
            AfterRequest [] { s with splice := { s.splice with
              cues := s.splice.cues.filter (fun x => x.avail ≠ avail)
              counts := { k with cancelled := min 65535 (k.cancelled + 1) } } } t)))) ∧
  [CueOutcome.armed, .waiting, .unfilled, .repeated, .lateRevision, .dropped, .missed, .endMoved, .inIgnored, .cancelled,
    .cancelIgnored].map outcomeCode = [1, 2, 3, 4, 5, 6, 7, 8, 9, 10, 11] ∧
  (∀ (s : State) (d : CueData) (source : CueSource) (carrying : Seq),
    let r := judgeCue d source carrying s
    let avail := d.avail.toNat
    let service := d.service.toNat
    let k := s.splice.counts
    let inTime : Prop := (s.live.armingLead : Int) ≤ Seq.distance carrying d.seq
    let known : Prop := ∃ v, serviceOf s service = some v ∧ v.eligible = true
    let free : Prop := serviceBound s service = false ∧ (idleChannel s).isSome = true
    let usable (p : Plan) : Prop := (clipRec s p.clip).mode = .ready ∧ (clipRec s p.clip).perFrame < s.live.em.packets
    let result (cues : List CueEntry) (accepted : BitVec 32) (n : CueCounts) (items : List Nat) : State :=
      { s with splice := { s.splice with cues := cues, accepted := accepted, counts := n }
               ev := { s.ev with items := s.ev.items ++ items } }
    let others := s.splice.cues.filter (fun x => x.avail ≠ avail)
    (d.kind = 1 → cueOf s avail = none → inTime →
      let entered (mode : CueMode) (n : CueCounts) (items : List Nat) : State :=
        result (s.splice.cues ++ [
            { avail := avail, service := service, start := d.seq, duration := d.duration.toNat, ending := d.seq + d.duration,
              source := source, carrying := carrying, mode := mode, channel := none, order := s.splice.accepted + 1 }])
          (s.splice.accepted + 1) n items
      let new : CueCounts := { k with new := min 65535 (k.new + 1) }
      let unfilled := entered .unfilled { new with unfilled := min 65535 (k.unfilled + 1) } [18]
      (¬ known →
        r = (result s.splice.cues s.splice.accepted { k with dropped := min 65535 (k.dropped + 1) } [18], .dropped)) ∧
      (known → 16 ≤ s.splice.cues.length →
        r = (result s.splice.cues s.splice.accepted { k with missed := min 65535 (k.missed + 1) } [19], .missed)) ∧
      (known → s.splice.cues.length < 16 →
        (planFor s avail service = none → r = (unfilled, .unfilled)) ∧
        (∀ p, planFor s avail service = some p →
          (¬ free → r = (entered .waiting new [], .waiting)) ∧ (free → ¬ usable p → r = (unfilled, .unfilled)) ∧
          (∀ n, serviceBound s service = false → idleChannel s = some n → usable p →
            let clip := clipRec s p.clip
            r.2 = .armed ∧
            r.1 = { s with
              clips := { s.clips with clips := s.clips.clips.set p.clip { clip with uses := clip.uses + 1 } }
              splice := { s.splice with
                accepted := s.splice.accepted + 1
                counts := new
                cues := s.splice.cues ++ [
                  { avail := avail, service := service, start := d.seq, duration := d.duration.toNat,
                    ending := d.seq + d.duration, source := source, carrying := carrying, mode := .armed, channel := some n,
                    order := s.splice.accepted + 1 }]
                channels := s.splice.channels.set n (some
                  { active := false, avail := avail, service := service, start := d.seq, ending := d.seq + d.duration,
                    clip := p.clip, perFrame := clip.perFrame, length := clip.length, map := p.map, harvest := p.harvest,
                    early := p.early }) }
              ev := { s.ev with splice := s.ev.splice ++ [⟨n, avail, service, 1, 0, 0, s.splice.lastStarted.getD 0⟩] } })))) ∧
    (d.kind = 1 → cueOf s avail = none → ¬ inTime →
      r = (result s.splice.cues s.splice.accepted { k with missed := min 65535 (k.missed + 1) } [19], .missed)) ∧
    (∀ e, d.kind = 1 → cueOf s avail = some e → e.mode = .unfilled →
      e.service = service → e.start = d.seq → e.duration = d.duration.toNat →
      let turned (mode : CueMode) : List CueEntry :=
        s.splice.cues.map (fun x => if x.avail = avail then { x with mode := mode, channel := none } else x)
      let again : CueCounts := { k with repeats := min 65535 (k.repeats + 1) }
      let unfilled := result (turned .unfilled) s.splice.accepted { again with unfilled := min 65535 (k.unfilled + 1) } [18]
      (¬ inTime → r = (result s.splice.cues s.splice.accepted again [], .repeated)) ∧
      (inTime → ¬ known →
        r = (result others s.splice.accepted { again with dropped := min 65535 (k.dropped + 1) } [18], .dropped)) ∧
      (inTime → known →
        (planFor s avail service = none → r = (unfilled, .unfilled)) ∧
        (∀ p, planFor s avail service = some p →
          (¬ free → r = (result (turned .waiting) s.splice.accepted again [], .waiting)) ∧
          (free → ¬ usable p → r = (unfilled, .unfilled)) ∧
          (∀ n, serviceBound s service = false → idleChannel s = some n → usable p →
            let clip := clipRec s p.clip
            r.2 = .armed ∧
            r.1 = { s with
              clips := { s.clips with clips := s.clips.clips.set p.clip { clip with uses := clip.uses + 1 } }
              splice := { s.splice with
                counts := again
                cues := s.splice.cues.map (fun x =>
                  if x.avail = avail then { x with mode := .armed, channel := some n } else x)
                channels := s.splice.channels.set n (some
                  { active := false, avail := e.avail, service := e.service, start := e.start, ending := e.ending,
                    clip := p.clip, perFrame := clip.perFrame, length := clip.length, map := p.map, harvest := p.harvest,
                    early := p.early }) }
              ev := { s.ev with splice := s.ev.splice ++ [⟨n, avail, service, 1, 0, 0, s.splice.lastStarted.getD 0⟩] } })))) ∧
    (d.kind = 2 →
      (∀ e q, cueOf s avail = some e → s.splice.lastStarted = some q → e.mode = .active →
        (d.seq - q).toNat = 0 ∨ (e.ending - q).toNat ≤ (d.seq - q).toNat) →
      r = (result s.splice.cues s.splice.accepted { k with inIgnored := min 65535 (k.inIgnored + 1) } [], .inIgnored)) ∧
    (d.kind = 3 → (∀ e, cueOf s avail = some e → e.mode = .active) →
      r = (result s.splice.cues s.splice.accepted { k with cancelIgnored := min 65535 (k.cancelIgnored + 1) } [],
        .cancelIgnored)) ∧
    (∀ e n c, d.kind = 3 → cueOf s avail = some e → e.mode = .armed → e.channel = some n →
      s.splice.channels.get n = some c → c.avail = avail → (∀ x ∈ others, x.mode ≠ .waiting) →
      let clip := clipRec s c.clip
      r.2 = .cancelled ∧
      r.1 = { s with
        clips := { s.clips with clips := s.clips.clips.set c.clip { clip with uses := clip.uses - 1 } }
        splice := { s.splice with
          channels := s.splice.channels.set n none
          cues := others
          counts := { k with cancelled := min 65535 (k.cancelled + 1) } }
        ev := { s.ev with splice := s.ev.splice ++ [⟨n, avail, c.service, 4, 0, c.read, s.splice.lastStarted.getD 0⟩] } }) ∧
    ((∀ e n c, cueOf s avail = some e → e.channel = some n → s.splice.channels.get n = some c → c.avail = avail) →
     let h := judgeCue d .host carrying s
     let w := judgeCue d .network carrying s
     w.2 = h.2 ∧ w.1 = { h.1 with splice := { h.1.splice with
       cues := if h.1.splice.accepted = s.splice.accepted then h.1.splice.cues
         else h.1.splice.cues.map (fun x => if x.avail = avail then { x with source := .network } else x) } }))


/-- ABORT SPLICE of an ACTIVE channel sets its pending return to ABORTED; of an ARMED channel it disarms, and with no other avail
WAITING the channel is IDLE, the clip's use count is one less and the cue entry is gone; of an IDLE channel it is REFUSED_STATE, and
with a channel number outside 1 to 4 BAD_PARAMETER (R125, R124). At a frame start an ARMED entry that starts there makes its channel
ACTIVE with its clip packets due, a WAITING one is missed and an UNFILLED one goes (R120); an ACTIVE channel at its end, or with a
return pending, is returned with its reason, and otherwise gains its clip packets (R120, R124). At a frame's end a backlog above 64 is
returned as STARVED, and an exhausted channel with early return is to return (R123); that a pending ABORTED return is then kept is the
model's choice (log 13). A return frees the channel, the clip's use, the entry, and marks the service's streams for resynchronisation.
Arbitration binds the first candidate, when it may be armed (R119, R115). The start of a held frame hands its sequence to Splicing
(R79). Each disarming, activation and return is an occasion of a SPLICE notice (R130); the notices of one event, with several of one
channel in the order of their occasions, go in channel order (log 11). -/
def Obligations.AbortSpliceOfEachChannel : Prop :=
  (∀ (s : State) (tag : Byte), Ready s →
    (∀ n : Four,
      let aborts := exec (.abortSplice tag (BitVec.ofNat 8 n.num)) s
      (s.splice.channels.get n = none →
        ∃ t, aborts = .next t ∧ Replied t 0x43 tag .refusedState [] ∧ AfterRequest [] s t) ∧
      (∀ c, s.splice.channels.get n = some c → c.active = true →
        ∃ t, aborts = .next t ∧ Replied t 0x43 tag .ok [] ∧
          AfterRequest [] { s with splice := { s.splice with
            channels := s.splice.channels.set n (some { c with pending := .aborted }) } } t) ∧
      (∀ c, s.splice.channels.get n = some c → c.active = false →
        (∀ e ∈ s.splice.cues, e.mode = .waiting → e.avail = c.avail) →
        let clip := clipRec s c.clip
        ∃ t, aborts = .next t ∧ Replied t 0x43 tag .ok [] ∧
          AfterRequest [] { s with
            clips := { s.clips with clips := s.clips.clips.set c.clip { clip with uses := clip.uses - 1 } }
            splice := { s.splice with
              channels := s.splice.channels.set n none
              cues := s.splice.cues.filter (fun e => e.avail ≠ c.avail) } } t ∧
          Noticed 4 [spliceBody ⟨n, c.avail, c.service, 4, 0, c.read, s.splice.lastStarted.getD 0⟩] s t)) ∧
    (∀ n : Byte, n.toNat = 0 ∨ 4 < n.toNat →
      ∃ t, exec (.abortSplice tag n) s = .next t ∧ Replied t 0x43 tag .badParameter [] ∧ AfterRequest [] s t)) ∧
  (∀ (s : State) (seq : Seq), (∀ n c, s.splice.channels.get n = some c → c.active = false) →
    let u := spliceFrameStart seq s
    u.splice.lastStarted = some seq ∧ u.clips = s.clips ∧
    (∀ e n c, e ∈ s.splice.cues → e.start = seq → e.mode = .armed → e.channel = some n → s.splice.channels.get n = some c →
      let due := c.due + min c.perFrame (c.length - (c.read + c.due))
      u.splice.channels.get n = some { c with
        active := true, due := due, exhausted := c.exhausted || decide (c.read + due = c.length) } ∧
      ⟨n, c.avail, c.service, 2, 0, c.read, seq⟩ ∈ u.ev.splice) ∧
    (∀ e ∈ s.splice.cues, e.start = seq → e.mode = .waiting → cueOf u e.avail = none ∧ 19 ∈ u.ev.items) ∧
    (∀ e ∈ s.splice.cues, e.start = seq → e.mode = .unfilled → cueOf u e.avail = none)) ∧
  (∀ (s : State) (n : Four) (c : Channel), s.splice.channels.get n = some c → c.active = true →
    (∀ m, m ≠ n → s.splice.channels.get m = none) → (∀ e ∈ s.splice.cues, e.avail = c.avail) →
    let clip := clipRec s c.clip
    let returned (reason : Nat) (seq : Seq) (u : State) : Prop :=
      u.splice.channels = ⟨none, none, none, none⟩ ∧ u.splice.cues = [] ∧
      u.clips = { s.clips with clips := s.clips.clips.set c.clip { clip with uses := clip.uses - 1 } } ∧
      u.ev.splice = s.ev.splice ++
        [{ channel := n, avail := c.avail, service := c.service, occasion := 3, reason := reason, read := c.read, seq := seq }] ∧
      ∀ x, offsetRec u x = (offsetRec s x).map (fun r =>
        if (serviceOf s c.service).any (fun v => v.streams.contains x) then { r with resync := true } else r)
    (∀ seq : Seq,
      let u := spliceFrameStart seq s
      let due := c.due + min c.perFrame (c.length - (c.read + c.due))
      (c.ending = seq → returned 1 seq u) ∧
      (c.ending ≠ seq → c.pending = .early → returned 2 seq u) ∧
      (c.ending ≠ seq → c.pending = .aborted → returned 4 seq u) ∧
      (c.ending ≠ seq → c.pending = .none → u.clips = s.clips ∧
        u.splice.channels = s.splice.channels.set n (some { c with
          due := due, exhausted := c.exhausted || decide (c.read + due = c.length) }))) ∧
    (64 < c.due → returned 3 (s.splice.lastStarted.getD 0) (spliceFrameEnd s) ∧ 17 ∈ (spliceFrameEnd s).ev.items) ∧
    (c.due ≤ 64 → spliceFrameEnd s =
      if c.exhausted = true ∧ c.due = 0 ∧ c.early = true ∧ c.pending = .none then
        { s with splice := { s.splice with channels := s.splice.channels.set n (some { c with pending := .early }) } }
      else s)) ∧
  (∀ (s : State) (n : Four) (e : CueEntry) (v : Service) (p : Plan), s.splice.channels.get n = none → candidate s = some e →
    serviceOf s e.service = some v → v.eligible = true → planFor s e.avail e.service = some p →
    (clipRec s p.clip).mode = .ready → (clipRec s p.clip).perFrame < s.live.em.packets →
    let clip := clipRec s p.clip
    arbitrate n s = { s with
      clips := { s.clips with clips := s.clips.clips.set p.clip { clip with uses := clip.uses + 1 } }
      splice := { s.splice with
        cues := s.splice.cues.map (fun x => if x.avail = e.avail then { x with mode := .armed, channel := some n } else x)
        channels := s.splice.channels.set n (some
          { active := false, avail := e.avail, service := e.service, start := e.start, ending := e.ending, clip := p.clip,
            perFrame := clip.perFrame, length := clip.length, map := p.map, harvest := p.harvest, early := p.early }) }
      ev := (arbitrate n s).ev }) ∧
  (∀ (s : State) (a : Anchor) (h : Held), Powered s → s.em.anchor = some a → s.em.mode = .running → s.em.runPacket = 0 →
    s.em.runFrame < a.next → a.instant + (s.em.runFrame * s.live.em.period : Nat) ≤ s.clock.time →
    let seq := a.seq + BitVec.ofNat 16 s.em.runFrame
    s.store.slots[seq.toNat % 64]? = some (.taken seq (some h)) → h.directives = [] →
    let p := readPacket s (slotAddress (seq.toNat % 64) 0)
    let sent : State := { s with
      em := { s.em with
        out := some ⟨a.instant + (s.em.runFrame * s.live.em.period : Nat), p⟩, lastCount := continuityOf p, runPacket := 1,
        counts := { s.em.counts with real := min 4294967295 (s.em.counts.real + 1) } }
      ev := {} }
    ∃ t, exec .packetDeparture s = .next t ∧ t.splice = (spliceFrameStart seq sent).splice ∧
      t.clips = (spliceFrameStart seq sent).clips ∧ t.em.runPacket = 1 ∧ t.clock = s.clock ∧ t.mem = s.mem ∧
      Noticed 4 (Four.all.flatMap (fun n =>
        ((spliceFrameStart seq sent).ev.splice.filter (fun note => note.channel = n)).map spliceBody)) s t)

/-! ## The Drive Controller -/

/-- RF ENABLE and RF DISABLE set and clear the RF-enabled setting, and after RF DISABLE the level is 0 (R142, R139); out of RAMPING or
STEADY a DRIVE notice tells of it (R152). SET POWER makes its value, clamped to 1000, the power setting, replies with it and its level,
and recomputes the ceiling (R136, R138). -/
def Obligations.RfSettings : Prop :=
  ∀ (s : State) (tag : Byte), Ready s →
    (∃ t, exec (.rfEnable tag) s = .next t ∧ Replied t 0x48 tag .ok [] ∧
      AfterRequest [] { s with drive := { s.drive with rfEnabled := true } } t) ∧
    (∃ t, exec (.rfDisable tag) s = .next t ∧ Replied t 0x49 tag .ok [] ∧
      AfterRequest [] { s with drive := { s.drive with rfEnabled := false } } t ∧
      Noticed 6 (if s.drive.mode = .ramping ∨ s.drive.mode = .steady then [driveBody t 1] else []) s t ∧
      (LevelOk s → t.drive.level = 0 ∧ t.drive.line = 0)) ∧
    (∀ p : BitVec 16,
      let held := min p.toNat 1000
      ∃ t, exec (.setPower tag p) s = .next t ∧
        Replied t 0x4A tag (if p.toNat ≤ 1000 then .ok else .adjusted) (be 2 held ++ be 2 (levelOf held)) ∧
        t.drive = { s.drive with
          power := held, ceiling := ceilingOf t, mode := t.drive.mode, level := t.drive.level, line := t.drive.line,
          steadySince := t.drive.steadySince, reflRun := t.drive.reflRun } ∧
        (LevelOk s → LevelOk t) ∧
        t = { s with drive := t.drive, alarms := t.alarms, link := t.link, ev := {} })

/-- CLEAR TRIPS re-enables every latched-off module with its runs at 0, counts a clear request and recomputes the ceiling (R151). From
TRIPPED, unless a shutdown is latched and the temperature is not below the shutdown figure by its hysteresis, and from RETRY_WAIT, it
clears both latches, the retry counter and the retry end time and leaves that state; where the temperature forbids it the reply is
REFUSED_STATE, the reflected latch is clear and the shutdown latch stays set. -/
def Obligations.ClearTripsReleases : Prop :=
  ∀ (s : State) (tag : Byte), Ready s →
    let hot := ¬ ((s.drive.temperature : Int) - 400 < s.live.drive.tempShut - s.live.drive.tempHyst)
    let held := s.drive.mode = .tripped ∧ s.drive.shutLatch = true ∧ hot
    ∃ t, exec (.clearTrips tag) s = .next t ∧
      Replied t 0x4B tag (if held then .refusedState else .ok) [] ∧
      (∀ n, t.drive.modules.get n =
        if (s.drive.modules.get n).latchedOff then
          { latchedOff := false, enable := decide (n.num ≤ s.live.drive.installed), current := (s.drive.modules.get n).current }
        else s.drive.modules.get n) ∧
      t.drive.counts = { s.drive.counts with clearRequests := min 65535 (s.drive.counts.clearRequests + 1) } ∧
      t.drive.ceiling = ceilingOf t ∧ (LevelOk s → LevelOk t) ∧
      t = { s with drive := t.drive, alarms := t.alarms, link := t.link, ev := {} } ∧
      (held → t.drive.mode = .tripped ∧ t.drive.shutLatch = true ∧ t.drive.reflLatch = false ∧
        t.drive.retries = s.drive.retries) ∧
      ((s.drive.mode = .tripped ∧ ¬ held) ∨ s.drive.mode = .retryWait →
        t.drive.reflLatch = false ∧ t.drive.shutLatch = false ∧ t.drive.retries = 0 ∧ t.drive.retryEnd = none ∧
        t.drive.mode ≠ .tripped ∧ t.drive.mode ≠ .retryWait ∧
        Noticed 6 [driveBody t (if t.drive.mode = .standby then 7 else 1)] s t)

/-- A monitoring sample that is due keeps its readings, saturated at 4095 (R143), and recomputes the ceiling (R138). At the shutdown
figure it trips the drive: TRIPPED, level 0, shutdown latched and item 24 (R146). Below it, the reflected run that reaches its filter
takes RAMPING and STEADY, below the retry limit, to RETRY_WAIT, with the end of the wait set, and latches item 21; at the retry limit to
TRIPPED, with the reflected-limit latch set and items 21 and 22 (R144). Each trip queues a DRIVE notice (R152). Every sample also moves
the supply state by R147's table, with items 25 and 26 at the entries to LOW and HIGH; the warning flag with item 23 (R146); both
computed and effective foldback limits (R137); below the shutdown figure each healthy module's overcurrent and open runs, against the
level before the sample, latching it off with item 26 + n or reporting it open with item 30 + n (R148, R149); and, in STEADY throughout,
the low-output run with item 35 at 500 (R150). A sample that is not due has no effect (log 4). -/
def Obligations.MonitoringSampleJudged : Prop :=
  ∀ (s : State) (x : Samples), Powered s → s.alarms.records.length = 36 →
    let d := s.drive
    let theta : Int := min 4095 x.temperature - 400
    let rho := min 4095 x.reflected
    (s.clock.cycles < (d.samplesTaken + 1) * 100000 →
      ∃ t, exec (.monitoringSample x) s = .next t ∧ AfterEvent [] s t) ∧
    ((d.samplesTaken + 1) * 100000 ≤ s.clock.cycles →
      ∃ t, exec (.monitoringSample x) s = .next t ∧
        t.drive.forward = min 4095 x.forward ∧ t.drive.reflected = rho ∧ t.drive.temperature = min 4095 x.temperature ∧
        t.drive.supplySample = min 4095 x.supply ∧ (∀ n, (t.drive.modules.get n).current = min 4095 (x.current.get n)) ∧
        t.drive.samplesTaken = d.samplesTaken + 1 ∧ t.drive.power = d.power ∧ t.drive.directive = d.directive ∧
        t.drive.rfEnabled = d.rfEnabled ∧ t.drive.ceiling = ceilingOf t ∧ (LevelOk s → LevelOk t) ∧
        t = { s with drive := t.drive, alarms := t.alarms, link := t.link, ev := {} } ∧
        (s.live.drive.tempShut ≤ theta → d.shutLatch = false → LevelOk s →
          t.drive.mode = .tripped ∧ t.drive.level = 0 ∧ t.drive.shutLatch = true ∧ t.drive.retryEnd = none ∧
          t.drive.counts.shutdowns = min 65535 (d.counts.shutdowns + 1) ∧ (alarmRec t 24).latched = true ∧
          (d.mode ≠ .tripped → Noticed 6 [driveBody t 5] s t)) ∧
        (theta < s.live.drive.tempShut → d.mode = .ramping ∨ d.mode = .steady → s.live.drive.reflTrip ≤ rho →
          s.live.drive.reflFilter ≤ min 15 (d.reflRun + 1) →
          t.drive.level = 0 ∧ t.drive.reflRun = 0 ∧ (alarmRec t 21).latched = true ∧
          t.drive.counts.reflectedTrips = min 65535 (d.counts.reflectedTrips + 1) ∧ Noticed 6 [driveBody t 4] s t ∧
          (d.retries < s.live.drive.retryLimit →
            t.drive.mode = .retryWait ∧ t.drive.retries = d.retries + 1 ∧ t.drive.reflLatch = d.reflLatch ∧
            t.drive.retryEnd = some (s.clock.time + (s.live.drive.retryDelay : Int) * 10000000)) ∧
          (s.live.drive.retryLimit ≤ d.retries →
            t.drive.mode = .tripped ∧ t.drive.retries = d.retries ∧ t.drive.reflLatch = true ∧
            t.drive.retryEnd = d.retryEnd ∧ (alarmRec t 22).latched = true)) ∧
        (let q := s.live.drive
         let v := min 4095 x.supply
         let limit (gain : Nat) (excess : Int) : Nat := (max 0 (4095 - gain * max 0 excess)).toNat
         let held (computed effective : Nat) : Nat :=
           if computed < effective then computed else if computed = 4095 then 4095
           else if effective + q.foldHyst < computed then computed else effective
         t.drive.supply =
           (if d.supply = .unjudged ∧ q.supplyLow ≤ v ∧ v ≤ q.supplyHigh then .inside
            else if d.supply ≠ .low ∧ v < q.supplyLow then .low
            else if d.supply ≠ .high ∧ q.supplyHigh < v then .high
            else if (d.supply = .low ∨ d.supply = .high) ∧ q.supplyLow + q.supplyHyst ≤ v ∧ v + q.supplyHyst ≤ q.supplyHigh then .inside
            else d.supply) ∧
         (t.drive.supply ≠ d.supply → (t.drive.supply = .low → (alarmRec t 25).latched = true) ∧
           (t.drive.supply = .high → (alarmRec t 26).latched = true)) ∧
         (d.warn = false → t.drive.warn = decide ((q.tempWarn : Int) ≤ theta)) ∧
         (d.warn = false → (q.tempWarn : Int) ≤ theta → (alarmRec t 23).latched = true) ∧
         (d.warn = true → t.drive.warn = decide ((q.tempWarn : Int) - q.tempHyst ≤ theta)) ∧
         t.drive.compTheta = limit q.tempGain (theta - q.tempKnee) ∧ t.drive.compRho = limit q.reflGain ((rho : Int) - q.reflKnee) ∧
         t.drive.effTheta = held t.drive.compTheta d.effTheta ∧ t.drive.effRho = held t.drive.compRho d.effRho ∧
         (theta < q.tempShut → ∀ n,
           let m := d.modules.get n
           let current := min 4095 (x.current.get n)
           let run := if q.overThreshold < current then min 15 (m.overRun + 1) else 0
           let opened := if 410 ≤ d.level ∧ current < q.openThreshold then min (m.opened + 1) q.moduleFilter else 0
           let healthy := n.num ≤ q.installed ∧ m.latchedOff = false
           t.drive.modules.get n =
             (if ¬ healthy then { m with current := current }
              else if q.moduleFilter ≤ run then { latchedOff := true, overRun := 0, opened := 0, current := current, enable := false }
              else { m with overRun := run, opened := opened, current := current }) ∧
           (healthy → q.moduleFilter ≤ run → (alarmRec t (26 + n.num)).latched = true) ∧
           (healthy → run < q.moduleFilter → opened = q.moduleFilter → m.opened ≠ q.moduleFilter →
             (alarmRec t (30 + n.num)).latched = true)) ∧
         (d.mode = .steady → t.drive.mode = .steady →
           let low := min 4095 x.forward * 1000 < t.drive.level * (1000 - q.lowTol)
           t.drive.lowRun = (if low then min 500 (d.lowRun + 1) else 0) ∧
           (low → d.lowRun = 499 → (alarmRec t 35).latched = true))))

/-- A ramp tick in RAMPING raises the level by 4, 2 or 1 for the codes 1, 2 and 3, with the smooth finish by at most one 32nd of what is
left, rounded up, and never above the ceiling, where the state becomes STEADY (R141, R140). At the retry end time RETRY_WAIT ends in
RAMPING, or at once in STEADY, where the other conditions of R139 hold, and in STANDBY where they do not (R145). After 60 s of STEADY
the retry counter is 0 (R140). Entry to STEADY at a tick and the end of the wait queue a DRIVE notice (R152). Model's choices: a tick,
like the two ends of time, acts when it is due (log 4); code 0, written while RAMPING, is taken at the tick (log 23); an entry to
RAMPING, here at the retry end, uses the code that stands at the entry (log 48), and an entry to STEADY in the same event keeps that
entry's occasion (log 54). -/
def Obligations.RampRetryAndSteady : Prop :=
  ∀ s : State, Powered s →
    let d := s.drive
    ((d.rampTicks + 1) * 10000 ≤ s.clock.cycles →
      (d.mode ≠ .ramping →
        ∃ t, exec .rampTick s = .next t ∧ AfterEvent [] { s with drive := { d with rampTicks := d.rampTicks + 1 } } t) ∧
      (d.mode = .ramping →
        let code := s.live.drive.rampCode
        let step := if code = 1 then 4 else if code = 2 then 2 else 1
        let finish := if s.live.drive.smooth then min step (max 1 ((d.ceiling - d.level + 31) / 32)) else step
        let level := if code = 0 then d.ceiling else min d.ceiling (d.level + finish)
        ∃ t, exec .rampTick s = .next t ∧
          AfterEvent [] { s with drive := { d with
            rampTicks := d.rampTicks + 1, level := level, line := level,
            mode := if level = d.ceiling then .steady else .ramping,
            steadySince := if level = d.ceiling then some s.clock.time else d.steadySince } } t ∧
          (permission s = true → d.rfEnabled = true → d.supply = .inside → d.reflLatch = false → d.shutLatch = false →
            Noticed 6 (if level = d.ceiling then [driveBody t 2] else []) s t))) ∧
    (∀ e, d.mode = .retryWait → d.retryEnd = some e → e ≤ s.clock.time → LevelOk s →
      let ready := permission s = true ∧ d.rfEnabled = true ∧ d.supply = .inside ∧ d.reflLatch = false ∧ d.shutLatch = false
      ∃ t, exec .retryEnd s = .next t ∧ t.drive.retryEnd = none ∧ t.drive.retries = d.retries ∧
        t.drive.counts = { d.counts with retriesEnded := min 65535 (d.counts.retriesEnded + 1) } ∧
        (ready → t.drive.level = (if s.live.drive.rampCode = 0 then d.ceiling else 0) ∧
          t.drive.mode = (if s.live.drive.rampCode = 0 ∨ d.ceiling = 0 then .steady else .ramping)) ∧
        (¬ ready → t.drive.level = 0 ∧ t.drive.mode = .standby) ∧ Noticed 6 [driveBody t 6] s t ∧
        t = { s with drive := t.drive, alarms := t.alarms, link := t.link, ev := {} }) ∧
    (∀ e, d.mode = .steady → d.steadySince = some e → e + 600000000 ≤ s.clock.time →
      ∃ t, exec .steadyPeriodExpiry s = .next t ∧
        AfterEvent [] { s with drive := { d with retries := 0, steadySince := none } } t)

/-! ## The Alarm Unit -/

/-- ALARM CLEAR clears each item of its set that is latched at or before Er: without a live condition its latch is clear, and with one
it has latched again with a count of 1; every other latch and count stays (R160). The items latched again take the next epochs in
ascending order of their numbers, and each queues an ALARM notice where its report enable allows (R157, R158, R160). A set with a bit
above item 36, or an Er that is after the current epoch or 2^31 or more behind it, is BAD_PARAMETER (R158, R160). So that no set-epoch
is brought forward past Er by the latches set here, where the model leaves such an item latched (log 55), Er lies 36 inside that limit.
-/
def Obligations.AlarmClearKeepsTheRest : Prop :=
  ∀ (s : State) (tag : Byte) (er : BitVec 32) (set : BitVec 40), Ready s →
    (68719476736 ≤ set.toNat ∨ 2147483648 ≤ (s.alarms.epoch - er).toNat →
      ∃ t, exec (.alarmClear tag er set) s = .next t ∧ Replied t 0x51 tag .badParameter [] ∧ AfterRequest [] s t) ∧
    (set.toNat < 68719476736 → (s.alarms.epoch - er).toNat + 36 < 2147483648 → s.alarms.records.length = 36 → EpochsOk s →
      let hit (i : Nat) : Prop := set.getLsbD (i - 1) = true ∧ (alarmRec s i).latched = true ∧ ((alarmRec s i).setEpoch - er).toInt ≤ 0
      let again : List Nat := (List.range 37).filter (fun i => decide (1 ≤ i ∧ hit i) && liveCondition s i)
      ∃ t cleared, exec (.alarmClear tag er set) s = .next t ∧ Replied t 0x51 tag .ok (be 4 t.alarms.epoch.toNat ++ cleared) ∧
        t = { s with drive := (judgePermission s).drive, alarms := t.alarms, link := t.link, ev := {} } ∧
        t.alarms.epoch = s.alarms.epoch + BitVec.ofNat 32 again.length ∧
        (∀ j i, again[j]? = some i → (alarmRec t i).setEpoch = s.alarms.epoch + BitVec.ofNat 32 (j + 1)) ∧
        Noticed 0 (again.zipIdx.filterMap (fun x =>
          if reportEnabled s x.1 then some (be 1 x.1 ++ be 4 (s.alarms.epoch + BitVec.ofNat 32 (x.2 + 1)).toNat) else none)) s t ∧
        ∀ i, 1 ≤ i → i ≤ 36 →
          let r := alarmRec s i
          (hit i → liveCondition s i = false → (alarmRec t i).latched = false) ∧
          (hit i → liveCondition s i = true → (alarmRec t i).latched = true ∧ (alarmRec t i).count = 1) ∧
          (¬ hit i → (alarmRec t i).latched = r.latched ∧ (alarmRec t i).count = r.count))

end
end

