-- ==== Sys2Proof/Laws/Notices.lean ====
section
/-! SUPPORT. What the end of a command does to the notice queue: one lemma for the notices of an event, one for those of an answered
request, and one for a single occurrence of an alarm item. -/

namespace Sys2Proof.Machine
open Sys2Proof

/-! ## The queue -/

/-- The bodies that a list of notices has for one kind. -/
def bodiesOf (kind : Nat) (ns : List (Nat × List Byte)) : List (List Byte) :=
  ns.filterMap (fun n => if n.1 = kind then some n.2 else none)

@[simp] theorem bodiesOf_nil (kind : Nat) : bodiesOf kind [] = [] := rfl

/-- What joins the queue when these bodies are offered under one kind. -/
def joining (kind : Nat) (bodies : List (List Byte)) (s : State) : List Notice :=
  if noticeEnabled s kind then (bodies.take (16 - s.alarms.notices.length)).map (fun body => ⟨noticeKind kind, body⟩) else []

@[simp] theorem joining_nil (kind : Nat) (s : State) : joining kind [] s = [] := by simp [joining]

@[simp] theorem offerNotice_live (kind : Nat) (body : List Byte) (s : State) : (offerNotice kind body s).live = s.live := by
  obtain ⟨a, h⟩ := offerNotice_only kind body s
  rw [h]; rfl

theorem noticeEnabled_congr {s t : State} (h : s.live = t.live) (kind : Nat) : noticeEnabled s kind = noticeEnabled t kind := by
  simp [noticeEnabled, h]

/-- A kind that is not enabled forms no notice. -/
theorem offerNotice_off {kind : Nat} {s : State} (h : noticeEnabled s kind = false) (body : List Byte) : offerNotice kind body s = s := by
  simp [offerNotice, h]

/-- Notices offered in order, one kind of them enabled at most. -/
theorem offered_notices {kind : Nat} (ns : List (Nat × List Byte)) (s : State)
    (ho : ∀ other, other ≠ kind → noticeEnabled s other = false) :
    (ns.foldl (fun s n => offerNotice n.1 n.2 s) s).alarms.notices = s.alarms.notices ++ joining kind (bodiesOf kind ns) s := by
  induction ns generalizing s with
  | nil => simp
  | cons n ns ih =>
    rw [List.foldl_cons]
    by_cases hn : n.1 = kind
    · cases he : noticeEnabled s kind with
      | false =>
        rw [hn, offerNotice_off he, ih s ho]
        simp [joining, he]
      | true =>
        have hb : bodiesOf kind (n :: ns) = n.2 :: bodiesOf kind ns := by simp [bodiesOf, hn]
        have ho' : ∀ other, other ≠ kind → noticeEnabled (offerNotice n.1 n.2 s) other = false := fun other h => by
          rw [noticeEnabled_congr (offerNotice_live _ _ _)]; exact ho other h
        have he' : noticeEnabled (offerNotice n.1 n.2 s) kind = true := by rw [noticeEnabled_congr (offerNotice_live _ _ _)]; exact he
        rw [ih _ ho', hb]
        by_cases hl : s.alarms.notices.length < 16
        · have h1 : (offerNotice n.1 n.2 s).alarms.notices = s.alarms.notices ++ [⟨noticeKind kind, n.2⟩] := by
            simp [offerNotice, hn, he, hl]
          have hk : 16 - s.alarms.notices.length = 16 - (s.alarms.notices.length + 1) + 1 := by omega
          simp only [joining, he, he', if_true, h1, List.length_append, List.length_singleton, List.append_assoc]
          rw [hk]
          simp
        · have h1 : (offerNotice n.1 n.2 s).alarms.notices = s.alarms.notices := by simp [offerNotice, hn, he, hl]
          have hk : 16 - s.alarms.notices.length = 0 := by omega
          simp [joining, he, he', h1, hk]
    · rw [offerNotice_off (ho n.1 hn), ih s ho]
      simp [bodiesOf, hn]

/-! ## The end of a command -/

@[simp] theorem judgePermission_live (s : State) : (judgePermission s).live = s.live := by
  obtain ⟨d, e, h⟩ := judgePermission_only s
  rw [h]; rfl

@[simp] theorem latchItem_live (item : Nat) (s : State) : (latchItem s item).live = s.live := by
  obtain ⟨a, h⟩ := latchItem_only s item
  rw [h]; rfl

@[simp] theorem latchAll_live (s : State) : (latchAll s).live = s.live := by
  obtain ⟨a, h⟩ := latchAll_only s
  rw [h]; rfl

@[simp] theorem latchAll_noticesOf (s : State) : noticesOf (latchAll s) = noticesOf s := by
  obtain ⟨a, h⟩ := latchAll_only s
  rw [h]; rfl

theorem latchItem_notices {s : State} (h : noticeEnabled s 0 = false) (item : Nat) :
    (latchItem s item).alarms.notices = s.alarms.notices := by
  unfold latchItem
  dsimp only
  split
  · rfl
  · unfold setLatch
    dsimp only
    split
    · have hoff : ∀ a body, offerNotice 0 body (s.setAlarms a) = s.setAlarms a := fun a body => offerNotice_off (s := s.setAlarms a) h body
      rw [hoff]
      rfl
    · rfl

theorem latchAll_notices {s : State} (h : noticeEnabled s 0 = false) : (latchAll s).alarms.notices = s.alarms.notices := by
  unfold latchAll
  generalize occurrences s = is
  induction is generalizing s with
  | nil => rfl
  | cons i is ih =>
    rw [List.foldl_cons, ih (by rw [noticeEnabled_congr (latchItem_live i s)]; exact h), latchItem_notices h]

/-- The queue after a command, where only notices of one kind other than ALARM are enabled. -/
theorem closeEvent_notices {kind : Nat} (hk : kind ≠ 0) {s : State} (ho : ∀ other, other ≠ kind → noticeEnabled s other = false) :
    (closeEvent s).alarms.notices = s.alarms.notices ++ joining kind (bodiesOf kind (noticesOf (judgePermission s))) s := by
  have h0 : noticeEnabled (judgePermission s) 0 = false := by
    rw [noticeEnabled_congr (judgePermission_live s)]; exact ho 0 (Ne.symm hk)
  have hs : (latchAll (judgePermission s)).alarms.notices = s.alarms.notices := by rw [latchAll_notices h0, judgePermission_alarms]
  unfold closeEvent judgeLines queueNotices
  simp only [State.setEv_alarms, State.setAlarms_alarms]
  rw [offered_notices (kind := kind) _ _ (fun other h => by
    rw [noticeEnabled_congr ((latchAll_live _).trans (judgePermission_live s))]; exact ho other h)]
  rw [latchAll_noticesOf]
  simp only [joining, hs, noticeEnabled_congr ((latchAll_live _).trans (judgePermission_live s))]

/-- Permission that leaves the drive as it is leaves everything. -/
theorem judgePermission_id {t : State} (h : (judgePermission t).drive = t.drive) : judgePermission t = t := by
  revert h
  unfold judgePermission
  split <;> rename_i hm
  · split
    · intro h
      have hx : (enterRamping 1 t).drive.mode = .standby := by rw [h, hm]
      revert hx
      unfold enterRamping steadyAtCeiling
      dsimp only
      split <;> split <;> simp_all [noteDrive, setLevel, enterSteady]
    · exact fun _ => rfl
  · split
    · exact fun _ => rfl
    · intro h
      have hx : (enterSilent .standby 1 t).drive.mode = .ramping := by rw [h, hm]
      simp [enterSilent, noteDrive] at hx
  · split
    · exact fun _ => rfl
    · intro h
      have hx : (enterSilent .standby 1 t).drive.mode = .steady := by rw [h, hm]
      simp [enterSilent, noteDrive] at hx
  · exact fun _ => rfl

/-- A transmitter that is taken sends nothing. -/
theorem transmit_taken {s : State} (h : s.link.tx.isSome = true) : transmit s = s := by simp [transmit, h]

/-! ## What a command queues -/

/-- The notices of one kind other than ALARM that an event queues. -/
theorem noticed_event {kind : Nat} (hk : kind ≠ 0) {f : State → State} {s u t : State} (hp : s.powered = true)
    (hf : f (s.setEv {}) = u) (hl : u.live = s.live) (ht : u.link.tx = s.link.tx) (ha : u.alarms.notices = s.alarms.notices)
    (h : event f s = .next t) : Noticed kind (bodiesOf kind (noticesOf (judgePermission u))) s t := by
  intro htx ho
  rw [event_next f hp, hf] at h
  cases h
  have hc : (closeEvent u).link = u.link := by rw [closeEvent_eq]
  rw [transmit_taken (by rw [hc, ht]; exact htx),
    closeEvent_notices hk (fun other h => by rw [noticeEnabled_congr hl]; exact ho other h), ha]
  simp only [joining, ha, noticeEnabled_congr hl]
  rfl

/-- Nothing is noted before a command begins. -/
theorem noticesOf_quiet {s : State} (h : s.ev = {}) : noticesOf s = [] := by
  have h1 : clockNotices s = [] := by simp [clockNotices, h, InputId.all, PerInput.get]
  have h2 : ∀ p, feedNotice s p = [] := by intro p; cases p <;> simp [feedNotice, h, PerPort.get]
  have h3 : emissionNotice s = [] := by simp [emissionNotice, h]
  have h4 : spliceNotices s = [] := by simp [spliceNotices, h]
  have h5 : driveNotice s = [] := by simp [driveNotice, h]
  have h6 : settingsNotice s = [] := by simp [settingsNotice, h]
  simp [noticesOf, h1, h2, h3, h4, h5, h6, h]

/-- The notices of one kind other than ALARM that an answered request queues. -/
theorem noticed_request {kind : Nat} (hk : kind ≠ 0) (code tag : Byte) (bytes : List Byte) {op : State → Answer} {s t : State}
    {a : Answer} (hs : Ready s) (hf : op (s.setEv {}) = a) (hl : a.state.live = s.live) (ht : a.state.link.tx = s.link.tx)
    (ha : a.state.alarms.notices = s.alarms.notices) (h : request code tag bytes op s = .next t) :
    Noticed kind (bodiesOf kind (noticesOf (judgePermission a.state))) s t := by
  intro htx ho
  rw [request_ready hs, hf, Host.Outcome.next.injEq] at h
  have hc : (closeEvent (formReply code tag a)).link.tx = s.link.tx := by rw [closeEvent_eq, formReply_link, ht]
  have hlive : (formReply code tag a).live = s.live := (formReply_live code tag a).trans hl
  have hsettled : judgePermission (formReply code tag a) = formReply code tag a :=
    judgePermission_id (judgePermission_settled (s := a.state) (formReply_drive code tag a) (formReply_em code tag a))
  have htaken : (closeEvent (formReply code tag a)).link.tx.isSome = true := by rw [hc]; exact htx
  have h1 : t.alarms.notices = (closeEvent (formReply code tag a)).alarms.notices := by rw [← h, transmit_taken htaken]
  have h2 : (closeEvent (formReply code tag a)).alarms.notices = (closeEvent a.state).alarms.notices := by
    rw [closeEvent_notices hk (fun other h => (noticeEnabled_congr hlive other).trans (ho other h)), hsettled,
      noticesOf_quiet (formReply_ev code tag a), bodiesOf_nil, joining_nil, List.append_nil, formReply_notices]
  rw [h1, h2, closeEvent_notices hk (fun other h => (noticeEnabled_congr hl other).trans (ho other h)), ha]
  simp only [joining, ha, noticeEnabled_congr hl]
  rfl

/-- A single occurrence of an alarm item in an event. -/
theorem occurred_event {item : Nat} (h1 : 1 ≤ item) (h36 : item ≤ 36) {f : State → State} {s u t : State} (hp : s.powered = true)
    (hf : f (s.setEv {}) = u) (hi : u.ev.items = [item]) (hl : u.live = s.live) (ht : u.link.tx = s.link.tx)
    (ha : u.alarms = s.alarms) (hn : s.alarms.records.length = 36) (h : event f s = .next t) : Occurred item s t := by
  rw [event_next f hp, hf] at h
  cases h
  have hocc : occurrences (judgePermission u) = [item] := by
    unfold occurrences items
    rw [judgePermission_items, hi]
    interval_cases item <;> rfl
  have hall : latchAll (judgePermission u) = latchItem (judgePermission u) item := by simp [latchAll, hocc]
  have hrec : alarmRec (judgePermission u) item = alarmRec s item := by simp [alarmRec, ha]
  refine ⟨?_, ?_, fun htx ho => ?_⟩
  · rw [show (transmit (closeEvent u)).alarms.epoch = (closeEvent u).alarms.epoch by rw [transmit_eq], closeEvent_epoch, hall]
    unfold latchItem
    dsimp only
    rw [hrec]
    split
    · simp [ha]
    · rw [setLatch_epoch]; simp [ha]
  · rw [alarmRec_congr (show (transmit (closeEvent u)).alarms.records = (closeEvent u).alarms.records by rw [transmit_eq]),
      alarmRec_congr (closeEvent_records u), hall]
    have hlt : item - 1 < 36 := by omega
    unfold latchItem
    dsimp only
    rw [hrec]
    split
    · simp [alarmRec, ha, hn, hlt, sat, Nat.min_comm]
    · simp [alarmRec, setLatch_records, ha, hn, hlt]
  · have hc : (closeEvent u).link = u.link := by rw [closeEvent_eq]
    have hlive : (latchAll (judgePermission u)).live = s.live := by simp [hl]
    rw [transmit_taken (by rw [hc, ht]; exact htx)]
    unfold closeEvent judgeLines queueNotices
    simp only [State.setEv_alarms, State.setAlarms_alarms]
    rw [offered_notices (kind := 0) _ _ (fun other h => by rw [noticeEnabled_congr hlive]; exact ho other h), latchAll_noticesOf]
    have hb : bodiesOf 0 (noticesOf (judgePermission u)) = [] := by simp [bodiesOf, noticesOf]
    rw [hb, joining_nil, List.append_nil, hall]
    unfold latchItem
    dsimp only
    rw [hrec]
    split
    · rename_i hr
      simp [hr, ha]
    · rename_i hr
      have hr' : (alarmRec s item).latched = false := by simpa using hr
      unfold setLatch
      dsimp only
      have hrep : ∀ x, reportEnabled ((judgePermission u).setAlarms x) item = reportEnabled s item := by
        intro x; simp [reportEnabled, hl]
      rw [hrep]
      split
      · rename_i hrp
        rw [show ∀ x : State, (offerNotice 0 (be 1 item ++ be 4 ((judgePermission u).alarms.epoch + 1).toNat) x) =
          [((0 : Nat), be 1 item ++ be 4 ((judgePermission u).alarms.epoch + 1).toNat)].foldl (fun s n => offerNotice n.1 n.2 s) x
          from fun _ => rfl]
        rw [offered_notices (kind := 0) _ _ (fun other h => by
          rw [noticeEnabled_congr (t := s) (by simp [hl])]; exact ho other h)]
        simp [joining, bodiesOf, hr', hrp, ha, noticeEnabled, hl, noticeKind]
      · rename_i hrp
        simp [hr', hrp, ha]

end Sys2Proof.Machine
end

