-- ==== Sys2Proof/Laws/PerInstr.lean ====
section
/-! SUPPORT. A statement for all commands: the body of a well-formed request fits a frame of the control link (section 9.2). -/

namespace Sys2Proof.Laws.BodyFits
open Sys2Proof Sys2Proof.Machine

/-- The body of a well-formed request has at most 1,024 bytes. -/
def Statement (i : Instr) : Prop := i.WellFormed = true → ∀ r, requestOf i = some r → r.body.length ≤ 1024

@[simp] theorem be_length (n : Nat) (x : Int) : (be n x).length = n := by
  induction n with
  | zero => rfl
  | succ n ih => simp [be, ih]

theorem flatMap_length_const {α : Type} (f : α → List Byte) (k : Nat) (h : ∀ x, (f x).length = k) (xs : List α) :
    (xs.flatMap f).length = k * xs.length := by
  induction xs with
  | nil => simp
  | cons x xs ih => simp [List.flatMap_cons, h, ih, Nat.mul_succ, Nat.add_comm]

theorem flatten_length_whole (ps : List Packet) (h : ps.all Packet.whole = true) : ps.flatten.length = 188 * ps.length := by
  induction ps with
  | nil => simp
  | cons p ps ih =>
    simp only [List.all_cons, Bool.and_eq_true] at h
    have hp : p.length = 188 := by simpa [Packet.whole] using h.1
    simp only [List.flatten_cons, List.length_append, List.length_cons, hp, ih h.2]; omega

/-- An event stands for no request. -/
theorem of_none {i : Instr} (h : requestOf i = none) : Statement i := fun _ _ hr => absurd (h.symm.trans hr) nofun

/-- A request command whose body fits. -/
theorem of_body {i : Instr} {r : Request} (h : requestOf i = some r) (hb : i.WellFormed = true → r.body.length ≤ 1024) :
    Statement i := fun hw _ hr => Option.some.inj (h.symm.trans hr) ▸ hb hw

theorem powerOn : Statement .powerOn := of_none rfl

theorem restartStart : Statement .restartStart := of_none rfl

theorem requestFrame (bytes : List Byte) : Statement (.requestFrame bytes) := of_none rfl

theorem gapExpiry : Statement .gapExpiry := of_none rfl

theorem transmitComplete : Statement .transmitComplete := of_none rfl

theorem lineRateApply : Statement .lineRateApply := of_none rfl

theorem unknownKind (kind tag : Byte) (body : List Byte) : Statement (.unknownKind kind tag body) := by
  refine of_body rfl (fun h => ?_)
  simp only [Instr.WellFormed, Bool.and_eq_true, decide_eq_true_eq] at h
  exact h.2

theorem identify (tag : Byte) : Statement (.identify tag) :=
  of_body rfl (fun _ => Nat.le_of_ble_eq_true rfl)

theorem status (tag : Byte) : Statement (.status tag) :=
  of_body rfl (fun _ => Nat.le_of_ble_eq_true rfl)

theorem ackStart (tag : Byte) : Statement (.ackStart tag) :=
  of_body rfl (fun _ => Nat.le_of_ble_eq_true rfl)

theorem restart (tag : Byte) : Statement (.restart tag) :=
  of_body rfl (fun _ => Nat.le_of_ble_eq_true rfl)

theorem getSetting (tag : Byte) (id : BitVec 16) : Statement (.getSetting tag id) :=
  of_body rfl (fun _ => Nat.le_of_ble_eq_true rfl)

theorem setSetting (tag : Byte) (id : BitVec 16) (value : BitVec 32) : Statement (.setSetting tag id value) :=
  of_body rfl (fun _ => Nat.le_of_ble_eq_true rfl)

theorem commitSettings (tag : Byte) : Statement (.commitSettings tag) :=
  of_body rfl (fun _ => Nat.le_of_ble_eq_true rfl)

theorem commitCompletion : Statement .commitCompletion := of_none rfl

theorem revertSettings (tag : Byte) : Statement (.revertSettings tag) :=
  of_body rfl (fun _ => Nat.le_of_ble_eq_true rfl)

theorem clockStatus (tag : Byte) : Statement (.clockStatus tag) :=
  of_body rfl (fun _ => Nat.le_of_ble_eq_true rfl)

theorem referenceStatus (tag : Byte) : Statement (.referenceStatus tag) :=
  of_body rfl (fun _ => Nat.le_of_ble_eq_true rfl)

theorem selectReference (tag n : Byte) : Statement (.selectReference tag n) :=
  of_body rfl (fun _ => Nat.le_of_ble_eq_true rfl)

theorem reseedReference (tag n : Byte) : Statement (.reseedReference tag n) :=
  of_body rfl (fun _ => Nat.le_of_ble_eq_true rfl)

theorem feedStatus (tag port clear : Byte) : Statement (.feedStatus tag port clear) :=
  of_body rfl (fun _ => Nat.le_of_ble_eq_true rfl)

theorem feedHold (tag selection : Byte) : Statement (.feedHold tag selection) :=
  of_body rfl (fun _ => Nat.le_of_ble_eq_true rfl)

theorem feedCounts (tag clear : Byte) : Statement (.feedCounts tag clear) :=
  of_body rfl (fun _ => Nat.le_of_ble_eq_true rfl)

theorem storeStatus (tag : Byte) : Statement (.storeStatus tag) :=
  of_body rfl (fun _ => Nat.le_of_ble_eq_true rfl)

theorem startEmission (tag : Byte) : Statement (.startEmission tag) :=
  of_body rfl (fun _ => Nat.le_of_ble_eq_true rfl)

theorem stopEmission (tag : Byte) : Statement (.stopEmission tag) :=
  of_body rfl (fun _ => Nat.le_of_ble_eq_true rfl)

theorem reAnchor (tag : Byte) : Statement (.reAnchor tag) :=
  of_body rfl (fun _ => Nat.le_of_ble_eq_true rfl)

theorem mute (tag : Byte) : Statement (.mute tag) :=
  of_body rfl (fun _ => Nat.le_of_ble_eq_true rfl)

theorem unmute (tag : Byte) : Statement (.unmute tag) :=
  of_body rfl (fun _ => Nat.le_of_ble_eq_true rfl)

theorem setOffset (tag : Byte) (o : BitVec 32) : Statement (.setOffset tag o) :=
  of_body rfl (fun _ => Nat.le_of_ble_eq_true rfl)

theorem emissionStatus (tag clear : Byte) : Statement (.emissionStatus tag clear) :=
  of_body rfl (fun _ => Nat.le_of_ble_eq_true rfl)

theorem defineService (tag : Byte) (number : BitVec 16) (eligible : Byte) (streams : List (BitVec 16)) :
    Statement (.defineService tag number eligible streams) := by
  refine of_body rfl (fun h => ?_)
  simp only [Instr.WellFormed, decide_eq_true_eq] at h
  have := flatMap_length_const word16Bytes 2 (fun _ => be_length _ _) streams
  simp [defineServiceBody, word16Bytes] at this ⊢
  omega

theorem deleteService (tag : Byte) (number : BitVec 16) : Statement (.deleteService tag number) :=
  of_body rfl (fun _ => Nat.le_of_ble_eq_true rfl)

theorem serviceList (tag : Byte) : Statement (.serviceList tag) :=
  of_body rfl (fun _ => Nat.le_of_ble_eq_true rfl)

theorem clipOpen (tag n : Byte) (f k : BitVec 16) (crc : BitVec 32) : Statement (.clipOpen tag n f k crc) :=
  of_body rfl (fun _ => Nat.le_of_ble_eq_true rfl)

theorem clipData (tag n : Byte) (packets : List Packet) : Statement (.clipData tag n packets) := by
  refine of_body rfl (fun h => ?_)
  simp only [Instr.WellFormed, Bool.and_eq_true, decide_eq_true_eq] at h
  have := flatten_length_whole packets h.2
  simp only [clipDataBody, List.length_append, List.length_cons, List.length_nil, this]
  omega

theorem clipSeek (tag n : Byte) (position : BitVec 32) : Statement (.clipSeek tag n position) :=
  of_body rfl (fun _ => Nat.le_of_ble_eq_true rfl)

theorem clipClose (tag n : Byte) : Statement (.clipClose tag n) :=
  of_body rfl (fun _ => Nat.le_of_ble_eq_true rfl)

theorem clipDelete (tag n : Byte) : Statement (.clipDelete tag n) :=
  of_body rfl (fun _ => Nat.le_of_ble_eq_true rfl)

theorem clipStatus (tag n : Byte) : Statement (.clipStatus tag n) :=
  of_body rfl (fun _ => Nat.le_of_ble_eq_true rfl)

theorem verificationStepEnd : Statement .verificationStepEnd := of_none rfl

theorem planSet (tag keyKind : Byte) (avail service : BitVec 16) (clip harvest early : Byte) (map : List StreamPair) :
    Statement (.planSet tag keyKind avail service clip harvest early map) := by
  refine of_body rfl (fun h => ?_)
  simp only [Instr.WellFormed, decide_eq_true_eq] at h
  have := flatMap_length_const pairBytes 4 (fun m => by simp [pairBytes]) map
  simp only [planSetBody, word16Bytes, List.length_append, List.length_cons, List.length_nil, be_length, this]
  omega

theorem planDelete (tag keyKind : Byte) (avail service : BitVec 16) : Statement (.planDelete tag keyKind avail service) :=
  of_body rfl (fun _ => Nat.le_of_ble_eq_true rfl)

theorem planList (tag start : Byte) : Statement (.planList tag start) :=
  of_body rfl (fun _ => Nat.le_of_ble_eq_true rfl)

theorem cue (tag : Byte) (entry : CueData) : Statement (.cue tag entry) :=
  of_body rfl (fun _ => Nat.le_of_ble_eq_true rfl)

theorem cueList (tag clear : Byte) : Statement (.cueList tag clear) :=
  of_body rfl (fun _ => Nat.le_of_ble_eq_true rfl)

theorem channelStatus (tag n : Byte) : Statement (.channelStatus tag n) :=
  of_body rfl (fun _ => Nat.le_of_ble_eq_true rfl)

theorem abortSplice (tag n : Byte) : Statement (.abortSplice tag n) :=
  of_body rfl (fun _ => Nat.le_of_ble_eq_true rfl)

theorem rfEnable (tag : Byte) : Statement (.rfEnable tag) :=
  of_body rfl (fun _ => Nat.le_of_ble_eq_true rfl)

theorem rfDisable (tag : Byte) : Statement (.rfDisable tag) :=
  of_body rfl (fun _ => Nat.le_of_ble_eq_true rfl)

theorem setPower (tag : Byte) (p : BitVec 16) : Statement (.setPower tag p) :=
  of_body rfl (fun _ => Nat.le_of_ble_eq_true rfl)

theorem clearTrips (tag : Byte) : Statement (.clearTrips tag) :=
  of_body rfl (fun _ => Nat.le_of_ble_eq_true rfl)

theorem rfStatus (tag clear : Byte) : Statement (.rfStatus tag clear) :=
  of_body rfl (fun _ => Nat.le_of_ble_eq_true rfl)

theorem moduleStatus (tag n : Byte) : Statement (.moduleStatus tag n) :=
  of_body rfl (fun _ => Nat.le_of_ble_eq_true rfl)

theorem alarmRead (tag : Byte) : Statement (.alarmRead tag) :=
  of_body rfl (fun _ => Nat.le_of_ble_eq_true rfl)

theorem alarmClear (tag : Byte) (epoch : BitVec 32) (items : BitVec 40) : Statement (.alarmClear tag epoch items) :=
  of_body rfl (fun _ => Nat.le_of_ble_eq_true rfl)

theorem oscillatorSecond : Statement .oscillatorSecond := of_none rfl

theorem secondNumberReceived (n : InputId) (number : BitVec 40) : Statement (.secondNumberReceived n number) := of_none rfl

theorem timePulse (n : InputId) : Statement (.timePulse n) := of_none rfl

theorem missingPulse (n : InputId) : Statement (.missingPulse n) := of_none rfl

theorem suspectTimeout (n : InputId) : Statement (.suspectTimeout n) := of_none rfl

theorem holdOffExpiry (n : InputId) : Statement (.holdOffExpiry n) := of_none rfl

theorem secondBoundary : Statement .secondBoundary := of_none rfl

theorem feedByte (p : PortId) (byte : Byte) : Statement (.feedByte p byte) := of_none rfl

theorem feedPacket (p : PortId) (sync : Byte) (rest : List Byte) : Statement (.feedPacket p sync rest) := of_none rfl

theorem lineActivityExpiry (p : PortId) : Statement (.lineActivityExpiry p) := of_none rfl

theorem silenceDeadline (p : PortId) : Statement (.silenceDeadline p) := of_none rfl

theorem take : Statement .take := of_none rfl

theorem anchorReached : Statement .anchorReached := of_none rfl

theorem packetDeparture : Statement .packetDeparture := of_none rfl

theorem freeGridPacket : Statement .freeGridPacket := of_none rfl

theorem monitoringSample (samples : Samples) : Statement (.monitoringSample samples) := of_none rfl

theorem rampTick : Statement .rampTick := of_none rfl

theorem retryEnd : Statement .retryEnd := of_none rfl

theorem steadyPeriodExpiry : Statement .steadyPeriodExpiry := of_none rfl

theorem powerFail : Statement .powerFail := of_none rfl

end Sys2Proof.Laws.BodyFits
end

