-- ==== Sys2Proof/Tests/Slice0.lean ====
section
/-! SUPPORT. Tests. First the WellFormed smoke: for each check a term that it refuses. Then single commands and shared operations
against the manual's worked sequences, whose figures each test names. Last, for every statement with hypotheses, a witness that
meets them, clause by clause, at a boundary. -/

namespace Sys2Proof.Tests
open Sys2Proof Sys2Proof.Machine

set_option Elab.async false

/-! ## WellFormed -/

theorem test_wellFormed_unknownKind : (Instr.unknownKind 0x51 0 []).WellFormed = false := by decide
theorem test_wellFormed_unknownBody : (Instr.unknownKind 0x52 0 (List.replicate 1025 0)).WellFormed = false := by decide +kernel
theorem test_wellFormed_streams : (Instr.defineService 0 1 1 (List.replicate 256 0)).WellFormed = false := by decide +kernel
theorem test_wellFormed_packetCount : (Instr.clipData 0 1 (List.replicate 6 nullPacket)).WellFormed = false := by decide +kernel
theorem test_wellFormed_packetLength : (Instr.clipData 0 1 [nullPacket.drop 1]).WellFormed = false := by decide +kernel
theorem test_wellFormed_pairs : (Instr.planSet 0 0 1 1 0 0 0 (List.replicate 254 (0, 0))).WellFormed = false := by decide +kernel
theorem test_wellFormed_feedPacket : (Instr.feedPacket .a 0x47 nullPacket).WellFormed = false := by decide +kernel

/-! ## Small helpers -/

/-- The state after a command, where it completes. -/
def after (c : Instr) (s : State) : State :=
  match exec c s with
  | .next t => t
  | _ => s

/-- The result code and the owner's body of the reply that waits. -/
def replied (s : State) : Option (List Byte) :=
  s.link.reply.map (fun f => f.getD 5 0 :: ((f.drop 10).take (f.length - 12)))

/-- A packet of a stream with a continuity count and payload. -/
def packet (stream count : Nat) : Packet :=
  [0x47, BitVec.ofNat 8 (stream / 256), BitVec.ofNat 8 (stream % 256), BitVec.ofNat 8 (0x10 + count)] ++ List.replicate 184 0

/-- A state with these clock values after reset. -/
def at_ (clock : ClockState) : State := { State.reset with clock := clock }

/-! ## The link and the settings (10.3; 09, "a commit crossed by requests") -/

theorem test_identify : (replied (after (.identify 9) State.reset)).map (List.take 9) =
    some [0, 0x52, 0x4F, 0x4E, 0x44, 0x41, 0x58, 0x20, 0x53] := by decide +kernel

/-- G asked for as 300, beyond its range of 1 to 255, is clamped: ADJUSTED, 255. -/
theorem test_setSetting_clamps : replied (after (.setSetting 1 0x0307 300) State.reset) = some [1, 0, 0, 0, 255] ∧
    (after (.setSetting 1 0x0307 300) State.reset).live.em.gapLimit = 255 := by decide +kernel

theorem test_getSetting_gapLimit : replied (after (.getSetting 1 0x0307) State.reset) = some [0, 0, 0, 0, 8] := by decide +kernel

/-- The contents with commit count 17. -/
def counted17 : State := { State.reset with link := { State.reset.link with held := { count := 17 } } }

theorem test_commit_counts : replied (after (.commitSettings 1) counted17) = some [0, 0, 0, 0, 18] := by decide +kernel

/-- With the store busy, COMMIT, REVERT and RESTART are BUSY. -/
def busy17 : State := { counted17 with link := { counted17.link with busy := some {} } }

theorem test_busy_refuses : replied (after (.commitSettings 1) busy17) = some [6] ∧ replied (after (.revertSettings 1) busy17) = some [6] ∧
    replied (after (.restart 1) busy17) = some [6] := by decide +kernel

/-- A request that waits behind a change of the line rate is answered with the new rate in use (R168). -/
theorem test_lineRate_holds_queue :
    let s := after (.status 2) (after (.setSetting 1 0x0700 9600) State.reset)
    let t := after .transmitComplete s
    t.link.queue.length = 1 ∧ t.link.tx = none ∧ (after .lineRateApply t).link.queue = [] ∧ (after .lineRateApply t).link.rate = 9600 := by
  decide +kernel

theorem test_completion_ends_busy : (after .commitCompletion busy17).link.busy = none := by decide +kernel

/-- G live at 255 and held at 8: REVERT writes 1 and leaves 0. -/
theorem test_revert_writes_one :
    replied (after (.revertSettings 1) { State.reset with live := { em := { gapLimit := 255 } } }) = some [0, 0, 1, 0] := by decide +kernel

theorem test_setPower_keeps_in_reply : replied (after (.setPower 1 600) State.reset) = some [0, 2, 88, 9, 153] := by decide +kernel

theorem test_unknownKind : replied (after (.unknownKind 0xFE 1 []) State.reset) = some [7] := by decide +kernel

/-- A byte of a frame with a wrong CRC is answered with nothing and sets the protocol-error flag. -/
theorem test_bad_crc : (after (.requestFrame [0xA5, 0, 2, 1, 9, 0, 0]) State.reset).link.protocolError = true := by decide +kernel

theorem test_framed_status : (after (.requestFrame (linkFrame 0x02 7 [])) State.reset).link.reply =
    (after (.status 7) State.reset).link.reply := by decide +kernel

/-! ## Site Time (01, "holdover and relock") -/

/-- Input 1 governs, its last pulse at 4999 / 3, LOCKED with c = −3,125; input 2 is ABSENT and input 3 disabled. -/
def holdoverStart : State :=
  { at_ { time := 50005000003, corr := -3125, mode := .locked, u := 0, secondsSet := true, governing := some .in1, boundary := 5000
          inputs := ⟨{ mode := .qualified, lastPulse := some 49990000003, rawErr := 3, lastSecond := some 4999 }, {}, {}⟩ } with
    live := { clock := { enabled := ⟨true, true, false⟩ } } }

theorem test_missing_pulse_holdover : (after (.missingPulse .in1) holdoverStart).clock.mode = .holdover ∧
    ((after (.missingPulse .in1) holdoverStart).clock.inputs.get .in1).suspectStart = 50005000003 := by decide +kernel

/-- The guard limit: the 201st boundary makes u 10,050 and the clock EXPIRED. -/
theorem test_boundary_expires :
    (after .secondBoundary (at_ { time := 52010000000, mode := .holdover, u := 10000, boundary := 5200 })).clock.mode = .expired := by
  decide +kernel

/-- Input 2 after the pulse at 5044 / 14. -/
def qualifying : InputRec :=
  { mode := .qualifying, rawErr := 14, eps := 3287, good := 4, lastPulse := some 50440000014, lastSecond := some 5044 }

/-- Input 2 QUALIFYING with four good pulses and ε256 = 3,287; the pulse at 5045 / 16 qualifies it and the clock relocks. -/
def relockStart : State :=
  { at_ { time := 50450000016, corr := -3125, mode := .holdover, u := 2250, secondsSet := true, boundary := 5045
          inputs := ⟨{ mode := .disqualified }, qualifying, {}⟩ } with
    live := { clock := { enabled := ⟨true, true, false⟩ } } }

theorem test_relock : ((after (.timePulse .in2) relockStart).clock.inputs.get .in2).eps = 3388 ∧
    (after (.timePulse .in2) relockStart).clock.mode = .locked ∧ (after (.timePulse .in2) relockStart).clock.u = 0 := by decide +kernel

theorem test_relock_steers : (after (.timePulse .in2) relockStart).clock.slew = -3 ∧
    (after (.timePulse .in2) relockStart).clock.corr = -7812 := by decide +kernel

/-- The slew of −3 is withheld at cycles 3,333,333, 6,666,666 and 10,000,000 of the span. -/
theorem test_slew_cycles : adjustsAt (-3) 3333333 = true ∧ adjustsAt (-3) 6666666 = true ∧ adjustsAt (-3) 10000000 = true ∧
    adjustsAt (-3) 3333332 = false ∧ adjustsAt (-3) 3333334 = false := by decide +kernel

theorem test_suspect_timeout : ((after (.suspectTimeout .in1)
    (at_ { time := 300000000, inputs := ⟨{ mode := .suspect }, {}, {}⟩ })).clock.inputs.get .in1).mode = .disqualified := by decide +kernel

theorem test_holdOff : ((after (.holdOffExpiry .in1)
    (at_ { time := 100000000, inputs := ⟨{ mode := .disqualified }, {}, {}⟩ })).clock.inputs.get .in1).holdDone = true := by decide +kernel

theorem test_clockStatus_free : (replied (after (.clockStatus 1) State.reset)).map List.length = some 24 := by decide +kernel

/-! ## Feed Intake (02, "port A fails and recovers") -/

theorem test_averages_rise : averageAfter 3 0 32768 = 4096 ∧ averageAfter 3 4096 32768 = 7680 ∧ averageAfter 3 7680 32768 = 10816 ∧
    averageAfter 3 10816 65535 = 17655 ∧ averageAfter 3 17655 65535 = 23640 := by decide
theorem test_averages_fall : averageAfter 3 40975 0 = 35853 ∧ averageAfter 3 35853 0 = 31371 ∧ averageAfter 3 12317 0 = 10777 := by decide

/-- Port A in IMPAIRED at the last silence deadline before it fails. -/
def silentStart : State :=
  { at_ { time := 5000000 } with
    feed := { ports := ⟨{ mode := .impaired, average := 37467, degrade := 2, packetPhase := some 0, deadline := some 5000000 }, {}⟩ } }

theorem test_silence_fails : ((after (.silenceDeadline .a) silentStart).feed.ports.get .a).mode = .failed ∧
    ((after (.silenceDeadline .a) silentStart).feed.ports.get .a).average = 40975 := by decide +kernel

theorem test_silence_deadline_moves : ((after (.silenceDeadline .a) silentStart).feed.ports.get .a).deadline = some 6000000 := by
  decide +kernel

/-- The stamp of a packet is the site time at its first byte, whenever the packet is complete (R28). -/
theorem test_first_byte_stamps :
    let s : State := { at_ { time := 700 } with feed := { ports := ⟨{ mode := .good, packetPhase := some 0 }, {}⟩ } }
    let t := after (.feedByte .a 0x47) s
    arrivalStamp t .a = 700 ∧ arrivalStamp { t with clock := { t.clock with time := 900 } } .a = 700 ∧
    arrivalStamp { s with clock := { s.clock with time := 900 } } .a = 900 := by decide +kernel

theorem test_hunt_dark : ((after (.feedByte .a 0x47) State.reset).feed.ports.get .a).mode = .searching := by decide +kernel

/-! ## The Frame Store and Emission (04, "Worked arithmetic"; 03, "duplicates, an upgrade and a race at cut-off") -/

def offerOf (arrival : Int) (stamp delay : Nat) : Offer :=
  { port := .a, quality := .clean, hash := 0, arrival := arrival
    timing := { seq := 5000, stamp := stamp, delay := delay, period := 1000000, packets := 1604, cues := [], directives := [] }
    packets := [] }

def site : State := { State.reset with em := { offset := 1200 }, live := { em := { chainDelay := 3500 } } }

theorem test_emission_instant : stampedInstant site (offerOf 10007410250 3250000 8000000) = 10011247700 := by decide
theorem test_release_before_boundary : stampedInstant State.reset (offerOf 10000500000 9800000 0) = 9999800000 := by decide
theorem test_required_depth : requiredDepth site (offerDelay site (offerOf 0 0 8000000)) = 9 ∧
    requiredDepth { State.reset with live := { em := { period := 100000 } } } 9900000 = 100 ∧
    requiredDepth { State.reset with live := { em := { period := 200000 } } } 9900000 = 51 := by decide
theorem test_packet_offsets : packetOffset State.reset 1 = 623 ∧ packetOffset State.reset 1603 = 999376 := by decide
theorem test_null_stamp : nullStamp { site with em := { site.em with dLast := 8000000 } } ⟨5000, 10011247700, 0, 0⟩ 3 = 6250000 := by decide
theorem test_slot_of_9003 : slotIndex 9003 = 43 := by decide
theorem test_distance_wraps : Seq.distance 65535 2 = 3 ∧ Seq.distance 0 32768 = -32768 := by decide

/-- The first offer of the worked table, at b = 8998 and counter 8: window instant and consistency. -/
theorem test_first_offer : predicted State.reset ⟨8990, 20000000000, 8, 9⟩ 8998 9003 = 20013000000 ∧
    stampedInstant State.reset (offerOf 20007400000 5000000 8000000) = 20013000000 := by decide

/-- SET OFFSET outside its range. -/
theorem test_setOffset_clamps : replied (after (.setOffset 1 (BitVec.ofInt 32 (-600000))) State.reset) =
    some [1, 0xFF, 0xF8, 0x5E, 0xE0] := by decide +kernel

theorem test_start_refused_outside_off :
    replied (after (.startEmission 1) { State.reset with em := { mode := .anchoring } }) = some [2] := by decide +kernel

theorem test_stop_in_off : replied (after (.stopEmission 1) State.reset) = some [0] := by decide +kernel

theorem test_reAnchor_in_off : replied (after (.reAnchor 1) State.reset) = some [2] := by decide +kernel

theorem test_mute_unmute : (after (.mute 1) State.reset).em.mute.host = true ∧ (after (.unmute 1) State.reset).em.mute.host = false := by
  decide +kernel

/-! ## Clips (05, "loading two clips") -/

/-- Clips at 0 to 39,999 and 50,000 to 79,999: runs of 10,000 and of all from 80,000 on are free. -/
def twoClips : State :=
  let loaded : List Clip := [{ mode := .ready, base := 0, length := 40000 }, { mode := .ready, base := 50000, length := 30000 }]
  { State.reset with clips := { clips := loaded ++ List.replicate 30 {} } }

theorem test_clipOpen_first_fit : replied (after (.clipOpen 1 4 60 200 0) twoClips) = some [0, 0, 1, 0x38, 0x80, 0, 0, 0x2E, 0xE0] := by
  decide +kernel
theorem test_clipOpen_hole : replied (after (.clipOpen 1 5 6 200 0) twoClips) = some [0, 0, 0, 0x9C, 0x40, 0, 0, 4, 0xB0] := by decide +kernel

/-- A clip one packet from its end: the packet wraps the write position. -/
def almostLoaded : State :=
  let clip : Clip := { mode := .loading, base := 7, length := 3, perFrame := 1, writePos := 2, highWater := 2 }
  { State.reset with clips := { clips := clip :: List.replicate 31 {} } }

theorem test_clipData_wraps : replied (after (.clipData 1 0 [packet 5 0]) almostLoaded) = some [0, 0, 0, 0, 0, 0, 0, 0, 3, 0, 1] := by
  decide +kernel
theorem test_clipClose_coverage : ((after (.clipClose 1 0) almostLoaded).clips.clips.getD 0 {}).reason = some .coverage := by decide +kernel
theorem test_clipSeek_beyond : replied (after (.clipSeek 1 0 3) almostLoaded) = some [3] := by decide +kernel
theorem test_clipDelete : ((after (.clipDelete 1 0) almostLoaded).clips.clips.getD 0 {}).mode = .empty := by decide +kernel

/-! ## Splicing (06, "two channels, a harvested null, an early return and a starved splice") -/

/-- Services 21 and 22, clips 6 and 7, the three plans; emission is RUNNING with b at 9096. -/
def spliceStart : State :=
  { State.reset with
    em := { mode := .running }
    store := { base := some 9096 }
    clips := { clips := List.replicate 6 {} ++
      [{ mode := .ready, frames := 10, perFrame := 200, base := 0, length := 2000, streams := [1101, 1102] },
       { mode := .ready, frames := 3, perFrame := 200, base := 2000, length := 600, streams := [1101, 1102] }] ++ List.replicate 24 {} }
    splice :=
      { services := [⟨21, [1201, 1202], true⟩, ⟨22, [1301, 1302], true⟩]
        plans := [⟨.exact 3001, 21, 6, [(1101, 1201), (1102, 1202)], true, false⟩,
          ⟨.any 21, 21, 6, [(1101, 1201), (1102, 1202)], true, false⟩, ⟨.any 22, 22, 7, [(1101, 1301), (1102, 1302)], true, true⟩] } }

theorem test_cue_arms : replied (after (.cue 1 ⟨1, 3001, 21, 9100, 10⟩) spliceStart) = some [0, 1, 1] := by decide +kernel

/-- The same state after the reply of OUT 3,001 has left. -/
def oneArmed : State := { after (.cue 1 ⟨1, 3001, 21, 9100, 10⟩) spliceStart with link := State.reset.link }

theorem test_cue_repeat : replied (after (.cue 1 ⟨1, 3001, 21, 9100, 10⟩) oneArmed) = some [0, 4, 1] := by decide +kernel

/-- The first entry after a start has acceptance order 1. -/
theorem test_first_order : oneArmed.splice.cues.map CueEntry.order = [1] ∧
    (after (.cue 1 ⟨1, 3105, 22, 9100, 5⟩) oneArmed).splice.cues.map CueEntry.order = [1, 2] := by decide +kernel

/-- OUT 3,105 of service 22 takes channel 2; OUT 3,200 of the bound service 21 waits. -/
theorem test_cue_second_channel : replied (after (.cue 1 ⟨1, 3105, 22, 9100, 5⟩) oneArmed) = some [0, 1, 2] ∧
    replied (after (.cue 1 ⟨1, 3200, 21, 9105, 4⟩) oneArmed) = some [0, 2, 0] := by decide +kernel

/-- The frame start of 9100 makes 200 packets due to each channel. -/
theorem test_frame_start_due :
    let t := spliceFrameStart 9100 { after (.cue 1 ⟨1, 3105, 22, 9100, 5⟩) oneArmed with ev := {} }
    (t.splice.channels.get .n1).map Channel.due = some 200 ∧ (t.splice.channels.get .n2).map Channel.active = some true := by decide +kernel

theorem test_abort_armed : (after (.abortSplice 1 1) oneArmed).splice.channels.get .n1 = none := by decide +kernel

/-! ## The Drive Controller (07, "a module lost, a foldback, and a reflected trip") -/

/-- STEADY at 3,071 with P = 750, Lθ = 3,575, and two overcurrent samples behind module 3. -/
def driveStart : State :=
  { at_ { time := 1000, cycles := 100000 } with
    em := { mode := .running }
    drive := { mode := .steady, level := 3071, line := 3071, power := 750, rfEnabled := true, compTheta := 3575, effTheta := 3575,
               ceiling := 3071, supply := .inside, modules := ⟨{}, {}, { overRun := 2 }, {}⟩ } }

def driveSample : Samples := ⟨3071, 250, 1115, 3200, ⟨3000, 3000, 3650, 3000⟩⟩

theorem test_module_lost : (after (.monitoringSample driveSample) driveStart).drive.ceiling = 2303 ∧
    (after (.monitoringSample driveSample) driveStart).drive.level = 2303 ∧
    (after (.monitoringSample driveSample) driveStart).drive.mode = .steady := by decide +kernel

/-- Row r1: at the second reflected sample the drive trips to RETRY_WAIT and the ceiling is 1,871. -/
def tripStart : State :=
  { driveStart with
    drive := { driveStart.drive with
      level := 2021, line := 2021, ceiling := 2021, reflRun := 1, compTheta := 2879, effTheta := 2879, compRho := 2695, effRho := 2695
      modules := ⟨{}, {}, { latchedOff := true, enable := false }, {}⟩ } }

def tripSample : Samples := ⟨2000, 1300, 1202, 3200, ⟨3000, 3000, 0, 3000⟩⟩

theorem test_reflected_trip : (after (.monitoringSample tripSample) tripStart).drive.mode = .retryWait ∧
    (after (.monitoringSample tripSample) tripStart).drive.ceiling = 1871 ∧
    (after (.monitoringSample tripSample) tripStart).drive.retryEnd = some 100001000 := by decide +kernel

/-- The effective limit: a rise of 32 is held, a rise of 64 is taken, and 4,095 is taken at once. -/
theorem test_fold_hysteresis : effectiveAfter 32 2847 2815 = 2815 ∧ effectiveAfter 32 2879 2815 = 2879 ∧
    effectiveAfter 32 4095 4080 = 4095 := by decide

theorem test_levels : levelOf 750 = 3071 ∧ levelOf 1000 = 4095 ∧ levelOf 0 = 0 := by decide

/-- One step per tick. -/
theorem test_ramp_tick : (after .rampTick
    { driveStart with drive := { driveStart.drive with mode := .ramping, level := 2111, line := 2111, ceiling := 2159 } }).drive.level =
      2112 := by decide +kernel

theorem test_rf_enable : (after (.rfEnable 1) State.reset).drive.rfEnabled = true := by decide +kernel
/-- Taking a latched-off module out of the installed set re-enables it: the DRIVE notice of occasion MODULE ON is queued (R148, R152). -/
theorem test_removal_is_module_on :
    let s : State := { State.reset with
      drive := { modules := ⟨{}, {}, { latchedOff := true, enable := false }, {}⟩ }
      link := { State.reset.link with tx := some ⟨true, []⟩ }
      live := { alarm := { notice := (List.replicate 8 false).set 6 true } } }
    ((after (.setSetting 1 0x0500 2) s).alarms.notices.map (fun n => (n.kind, n.body.drop 7))) = [(0xF6, [9])] := by decide +kernel
theorem test_clear_trips_returns_module :
    ((after (.clearTrips 1) tripStart).drive.modules.get .n3).latchedOff = false := by decide +kernel

/-! ## The Alarm Unit (08, "a clear that crosses a new alarm") -/

/-- Epoch 42, item 8 at set-epoch 40 with count 4, item 22 at 41 and live, item 25 at 42. -/
def alarmStart : State :=
  { State.reset with
    drive := { reflLatch := true, mode := .tripped }
    alarms := { State.reset.alarms with
      epoch := 42
      records := (((List.replicate 36 ({} : AlarmRec)).set 7 { latched := true, setEpoch := 40, count := 4 }).set 21
        { latched := true, setEpoch := 41, count := 1 }).set 24 { latched := true, setEpoch := 42, count := 1 } } }

/-- Items 8, 22 and 25 are bits 7, 21 and 24. -/
theorem test_alarm_clear : replied (after (.alarmClear 1 41 0x1200080) alarmStart) =
    some [0, 0, 0, 0, 43, 0, 0, 0x20, 0, 0x80, 0, 1, 0x20, 0, 0, 0, 4, 0, 1] := by decide +kernel

theorem test_alarm_relatches : (alarmRec (after (.alarmClear 1 41 0x1200080) alarmStart) 22).setEpoch = 43 := by decide +kernel

/-! ## Notices (10.5) -/

/-- The state with the transmitter taken and notices of this one kind enabled. -/
def heard (kind : Nat) (s : State) : State :=
  { s with
    link := { s.link with tx := some ⟨true, []⟩ }
    live := { s.live with alarm := { s.live.alarm with notice := (List.replicate 8 false).set kind true } } }

/-- What `Noticed` and `Occurred` ask, at every kind and from any state. -/
theorem witness_Noticed (s : State) : ∀ kind < 8, (heard kind s).link.tx.isSome = true ∧ noticeEnabled (heard kind s) kind = true ∧
    ∀ other, other ≠ kind → noticeEnabled (heard kind s) other = false := by
  intro kind hk
  refine ⟨rfl, ?_, fun other ho => ?_⟩
  · simp [noticeEnabled, heard, hk]
  · have h (i : Nat) : ([false, false, false, false, false, false, false, false][i]?).getD false = false := by
      match i with
      | 0 | 1 | 2 | 3 | 4 | 5 | 6 | 7 => rfl
      | _ + 8 => rfl
    simpa [noticeEnabled, heard, Ne.symm ho] using h other

/-- The holdover's CLOCK notice: HOLDOVER, no governing input, input 1 SUSPECT, no step; and its ALARM notice, item 1 at epoch 2, which
follows the SETTINGS LOST of the start. -/
theorem test_notice_clock : (after (.missingPulse .in1) (heard 1 holdoverStart)).alarms.notices = [⟨0xF1, [3, 0, 1, 3, 0]⟩] ∧
    (after (.missingPulse .in1) (heard 0 holdoverStart)).alarms.notices = [⟨0xF0, [1, 0, 0, 0, 2]⟩] := by decide +kernel
/-- The first byte at port A, from DARK to SEARCHING with the average of the start, 65,535; MUTE in OFF, with HOST, occasion 11 and no anchor. -/
theorem test_notice_feed_emission : (after (.feedByte .a 0x47) (heard 2 State.reset)).alarms.notices = [⟨0xF2, [1, 1, 2, 255, 255]⟩] ∧
    (after (.mute 1) (heard 3 State.reset)).alarms.notices = [⟨0xF3, [0, 8, 11, 0, 0]⟩] := by decide +kernel
/-- Avail 3,001 armed on channel 1; a clip 0 rejected for COVERAGE; RF DISABLE from STEADY with four modules healthy. -/
theorem test_notice_splice_clip_drive :
    (after (.cue 1 ⟨1, 3001, 21, 9100, 10⟩) (heard 4 spliceStart)).alarms.notices =
      [⟨0xF4, [1, 0x0B, 0xB9, 0, 21, 1, 0, 0, 0, 0, 0, 0, 0]⟩] ∧
    (after (.clipClose 1 0) (heard 5 almostLoaded)).alarms.notices = [⟨0xF5, [0, 4, 4, 0, 0, 0, 0]⟩] ∧
    (after (.rfDisable 1) (heard 6 driveStart)).alarms.notices = [⟨0xF6, [0, 0, 0, 0x0B, 0xFF, 0, 0x0F, 1]⟩] := by decide +kernel

/-! ## Witnesses: the queue, time, power and starts -/

theorem witness_FrontCommandRuns : ({ State.reset with pending := [.take, .rampTick] } : State).pending = .take :: [.rampTick] := rfl

/-- The last time at which no wrap can come. -/
theorem witness_IdleCycleNeverTurnsTimeBack : ∃ s : State, Powered s ∧ s.pending = [] ∧ TimeOk s ∧
    s.clock.time + 3 < 18446744073709551616 :=
  ⟨at_ { time := 18446744073709551612 }, rfl, rfl, ⟨by decide, by decide⟩, by decide⟩

theorem witness_StartLoadsTheStore_powerOn : ∃ (s : State) (c : Contents), s.link.stored = some c ∧ s.link.busy = none :=
  ⟨{ State.reset with link := { stored := some {} } }, {}, rfl, rfl⟩
theorem witness_StartLoadsTheStore_restart : ∃ (s : State) (c : Contents), s.link.stored = some c ∧ Powered s ∧ s.link.restart = .due :=
  ⟨{ State.reset with link := { stored := some {}, busy := some {}, restart := .due } }, {}, rfl, rfl, rfl⟩
theorem witness_StartLoadsTheStore_blank : State.reset.link.stored = none ∧ (∃ s : State, s.link.busy.isSome = true) ∧
    (∃ s : State, Powered s ∧ s.link.restart = .due ∧ s.link.stored = none) :=
  ⟨rfl, ⟨busy17, rfl⟩, { State.reset with link := { restart := .due } }, rfl, rfl, rfl⟩

theorem witness_PowerLossStopsEverything : ∃ (s : State) (c : Instr), s.powered = false ∧ c ≠ .powerOn ∧ c ≠ .powerFail ∧ s.pending = [] :=
  ⟨{ State.reset with powered := false }, .rampTick, rfl, by decide, by decide, rfl⟩

/-! ## Witnesses: invariants -/

theorem clipRec_reset (n : Nat) : clipRec State.reset n = {} := by
  unfold clipRec State.reset
  simp only [List.getD_eq_getElem?_getD, List.getElem?_replicate]
  split <;> rfl

theorem witness_StepKeepsMemoryCanonical : ∃ s t : State, MemoryOk s ∧ s.mem ≠ [] ∧ Machine.step s = .next t :=
  ⟨{ State.reset with mem := [⟨0, 1⟩, ⟨268435455, 0⟩] }, _, by unfold MemoryOk; decide, by decide, rfl⟩
theorem witness_StepKeepsClockTable : ∃ s t : State, (TimeOk s ∧ ClockOk s) ∧ Machine.step s = .next t :=
  ⟨at_ { time := 18446744073709551615, mode := .locked, u := 0, governing := some .in1 }, _,
    ⟨⟨by decide, by decide⟩, ⟨by decide, by decide, by decide⟩⟩, rfl⟩
theorem witness_StepKeepsDriveSafe : ∃ s t : State, DriveOk s ∧ Machine.step s = .next t :=
  ⟨driveStart, _, ⟨⟨rfl, by decide, by decide, by decide, by decide⟩, by decide⟩, rfl⟩
theorem witness_StepKeepsAlarmLines : ∃ s t : State, (LinesOk s ∧ EpochsOk s) ∧ Machine.step s = .next t :=
  ⟨State.reset, _, ⟨⟨by decide +kernel, by decide +kernel⟩, by unfold EpochsOk; decide +kernel⟩, rfl⟩
theorem witness_StepKeepsTableSizes : ∃ s t : State, SizesOk s ∧ Machine.step s = .next t :=
  ⟨{ State.reset with link := { stored := some {}, busy := some {} } }, _,
    ⟨by decide, by decide, by decide, ⟨by decide, .nil, by decide⟩, by decide, by decide, by decide, ⟨by decide, .nil, by decide⟩,
      by rintro c ⟨⟩; exact ⟨by decide, .nil, by decide⟩, by rintro c ⟨⟩; exact ⟨by decide, .nil, by decide⟩⟩, rfl⟩
theorem witness_StepKeepsSlotIndex : ∃ s t : State, SlotsOk s ∧ Machine.step s = .next t := by
  refine ⟨{ State.reset with store := { slots := [.taken 64 none] } }, _, ?_, rfl⟩
  intro i x seq hx hq
  rcases i with _ | i
  · obtain rfl : Slot.taken 64 none = x := by simpa using hx
    obtain rfl : (64 : Seq) = seq := by simpa [slotSeq] using hq
    rfl
  · simp at hx
theorem witness_StepKeepsClipsAndUseCounts : ∃ s t : State, (ClipsOk s ∧ UseOk s) ∧ Machine.step s = .next t := by
  refine ⟨State.reset, _, ⟨⟨rfl, ⟨fun n h => ?_, fun m n _ h => ?_⟩, .nil, fun n h => ?_⟩, fun n => ?_⟩, rfl⟩
  · simp [clipRec_reset] at h
  · simp [clipRec_reset] at h
  · cases h
  · rw [clipRec_reset]
    exact ⟨rfl, fun h => absurd h (by decide)⟩
theorem witness_StepKeepsCueTable : ∃ s t : State, CuesOk s ∧ Machine.step s = .next t := by
  refine ⟨State.reset, _, ⟨.nil, fun e h => ?_, fun n c h => ?_, fun m n c d h => ?_⟩, rfl⟩
  · exact absurd h List.not_mem_nil
  · cases n <;> cases h
  · cases m <;> cases h

/-! ## Witnesses: the control link and the settings -/

/-- The longest CLIP DATA, five packets. -/
theorem witness_FramedRequestIsItsCommand : ∃ (s : State) (i : Instr) (r : Request), Powered s ∧ s.link.rx = .hunt ∧
    i.WellFormed = true ∧ requestOf i = some r :=
  ⟨State.reset, .clipData 1 31 (List.replicate 5 nullPacket), _, rfl, rfl, by decide +kernel, rfl⟩

theorem witness_FrameErrorsSetTheFlag_length : Powered State.reset ∧ State.reset.link.rx = .hunt ∧ fromBE [0, 1] < 2 ∧
    1026 < fromBE [4, 3] := ⟨rfl, rfl, by decide, by decide⟩
theorem witness_FrameErrorsSetTheFlag_crc : Powered State.reset ∧ State.reset.link.rx = .hunt ∧ ([] : List Byte).length ≤ 1024 ∧
    fromBE [0, 0] ≠ (crc16 (be 2 2 ++ [2, 7] ++ [])).toNat := ⟨rfl, rfl, by decide, by decide +kernel⟩
theorem witness_FrameErrorsSetTheFlag_gap : ∃ s : State, Powered s ∧ s.link.rx ≠ .hunt ∧ s.link.rxLast + 200000 ≤ s.clock.cycles :=
  ⟨{ at_ { cycles := 200000 } with link := { rx := .length [] } }, rfl, by decide, by decide⟩
theorem witness_FrameErrorsSetTheFlag_hunt : Powered State.reset ∧ State.reset.link.rx = .hunt ∧ (0xA4 : Byte) ≠ 0xA5 :=
  ⟨rfl, rfl, by decide⟩

/-- Requests that wait behind a reply. -/
def queued (n : Nat) : State :=
  { State.reset with link := { State.reset.link with reply := some [], queue := List.replicate n ⟨2, 0, []⟩ } }

theorem witness_RequestQueueHoldsFour : requestOf (.mute 1) = some ⟨0x23, 1, []⟩ ∧
    (Powered (queued 3) ∧ linkFree (queued 3) = false ∧ (queued 3).link.queue.length < 4) ∧
    (Powered (queued 4) ∧ linkFree (queued 4) = false ∧ 4 ≤ (queued 4).link.queue.length) :=
  ⟨rfl, ⟨rfl, rfl, by decide⟩, rfl, rfl, by decide⟩

theorem witness_UnknownAndMisfitRequests : Ready State.reset ∧ (0x52 : Byte).toNat ∉ requestKinds ∧ ([0] : List Byte) ≠ [] ∧
    ([0] : List Byte).length ≤ 1024 ∧ State.reset.link.rx = .hunt := ⟨⟨rfl, rfl⟩, by decide, by decide, by decide, rfl⟩
/-- One byte short and one too long: GET SETTING, and the three layouts with a count byte. -/
theorem witness_UnknownAndMisfitRequests_layouts : (0x05 : Byte).toNat = 5 ∧ ([0] : List Byte).length ≠ 2 ∧
    ([0, 0, 0] : List Byte).length ≤ 3 ∧ ([0, 1, 1, 1, 0] : List Byte).length ≠ 4 + 2 * (1 : Byte).toNat ∧
    ([0] : List Byte).length ≤ 1 ∧ (List.replicate 191 (1 : Byte)).length ≠ 2 + 188 * (1 : Byte).toNat ∧
    (List.replicate 8 (1 : Byte)).length ≤ 8 ∧ (List.replicate 14 (1 : Byte)).length ≠ 9 + 4 * (1 : Byte).toNat := by decide +kernel

theorem witness_ReplyAndNoticeFrames : (Result.ok = .ok ∨ Result.ok = .adjusted) ∧ Result.busy ≠ .ok ∧ Result.busy ≠ .adjusted := by decide

/-- The transmitter with a frame on the line. -/
def sending (isReply : Bool) (l : LinkState) : State := { State.reset with link := { l with tx := some ⟨isReply, []⟩ } }

theorem witness_TransmitterTakesTurns_reply : ∃ s : State, Powered s ∧ s.link.restart = .none ∧ s.link.rateDue = none ∧
    s.link.tx = some ⟨false, []⟩ ∧ s.link.reply = some [0xA5] ∧ s.link.lastSent = .notice :=
  ⟨sending false { reply := some [0xA5], lastSent := .notice }, rfl, rfl, rfl, rfl, rfl, rfl⟩

/-- A reply has left, sent last, and a notice waits. -/
def noticeWaits (queue : List Request) : State :=
  { sending true { queue := queue, lastSent := .reply } with alarms := { notices := [⟨0xF0, []⟩] } }

theorem witness_TransmitterTakesTurns_notice : ∃ s : State, Powered s ∧ s.link.restart = .none ∧ s.link.rateDue = none ∧
    s.link.tx = some ⟨true, []⟩ ∧ s.link.lastSent = .reply ∧ s.link.queue = [] ∧ s.link.rateNew = none ∧
    s.alarms.notices = ⟨0xF0, []⟩ :: [] :=
  ⟨noticeWaits [], rfl, rfl, rfl, rfl, rfl, rfl, rfl, rfl⟩
theorem witness_TransmitterTakesTurns_dispatch : ∃ s : State, Powered s ∧ s.link.restart = .none ∧ s.link.rateDue = none ∧
    s.link.tx = some ⟨true, []⟩ ∧ s.link.rateNew = none ∧ s.link.queue = ⟨0x01, 5, []⟩ :: [] ∧ s.link.lastSent = .reply ∧
    s.alarms.notices = ⟨0xF0, []⟩ :: [] :=
  ⟨noticeWaits [⟨0x01, 5, []⟩], rfl, rfl, rfl, rfl, rfl, rfl, rfl, rfl⟩
theorem witness_TransmitterTakesTurns_alone : (sending true { queue := [⟨0x01, 5, []⟩] }).alarms.notices = [] ∧
    noticeEnabled (sending true { queue := [⟨0x01, 5, []⟩] }) 6 = false ∧ linkFree State.reset = true ∧ State.reset.link.tx = none ∧
    (∃ s : State, Powered s ∧ s.link.restart = .none ∧ s.link.rateDue = none ∧ s.link.tx = some ⟨false, []⟩ ∧ s.link.reply = none ∧
      s.link.queue = [] ∧ s.alarms.notices = ⟨0xF0, []⟩ :: []) :=
  ⟨rfl, rfl, rfl, rfl, { sending false {} with alarms := { notices := [⟨0xF0, []⟩] } }, rfl, rfl, rfl, rfl, rfl, rfl, rfl⟩

theorem witness_StartFlagAndAckStart : Ready State.reset ∧
    (∃ s t : State, Powered s ∧ s.link.restart = .due ∧ exec .restartStart s = .next t) :=
  ⟨⟨rfl, rfl⟩, { State.reset with link := { restart := .due } }, _, rfl, rfl, rfl⟩

theorem witness_RestartAndLineRateFollowTheReply :
    (Ready State.reset ∧ State.reset.link.busy = none) ∧ (Ready busy17 ∧ busy17.link.busy.isSome = true) ∧
    (∃ s : State, Powered s ∧ s.link.tx = some ⟨true, []⟩ ∧ s.link.restart = .afterReply ∧ s.link.rateNew = none) ∧
    ((9600 : BitVec 32).toNat ∈ [9600, 19200, 57600, 115200, 230400, 460800, 921600] ∧
      State.reset.live.lineRate ≠ (9600 : BitVec 32).toNat) ∧
    (∃ s : State, Powered s ∧ s.link.tx = some ⟨true, []⟩ ∧ s.link.rateNew = some 921600 ∧ s.link.restart = .none) ∧
    (∃ s : State, Powered s ∧ s.link.rateDue = some 9600 ∧ s.link.queue = []) ∧
    (∃ s : State, Powered s ∧ s.link.rateDue = some 9600 ∧ s.link.queue = ⟨0x02, 1, []⟩ :: [] ∧ s.link.reply = none ∧
      s.link.restart = .none) :=
  ⟨⟨⟨rfl, rfl⟩, rfl⟩, ⟨⟨rfl, rfl⟩, rfl⟩, ⟨sending true { restart := .afterReply }, rfl, rfl, rfl, rfl⟩, ⟨by decide, by decide⟩,
    ⟨sending true { rateNew := some 921600 }, rfl, rfl, rfl, rfl⟩, ⟨{ State.reset with link := { rateDue := some 9600 } }, rfl, rfl, rfl⟩,
    { State.reset with link := { rateDue := some 9600, queue := [⟨0x02, 1, []⟩] } }, rfl, rfl, rfl, rfl, rfl⟩

theorem witness_CommitTakesASnapshot : (Ready State.reset ∧ State.reset.link.busy = none) ∧ (Ready busy17 ∧ busy17.link.busy.isSome = true) ∧
    Powered busy17 ∧ busy17.link.busy = some {} := ⟨⟨⟨rfl, rfl⟩, rfl⟩, ⟨⟨rfl, rfl⟩, rfl⟩, rfl, rfl⟩

/-- A commit ends with the transmitter taken, this many notices waiting, and SETTINGS notices on. -/
def crowded (waiting : Nat) : State :=
  { busy17 with
    link := { busy17.link with tx := some ⟨true, []⟩ }
    alarms := { notices := List.replicate waiting ⟨0xF0, []⟩ }
    live := { alarm := { notice := (List.replicate 8 false).set 7 true } } }

theorem witness_CommitTakesASnapshot_notice : Powered (crowded 15) ∧ (crowded 15).link.busy = some {} ∧
    (crowded 15).link.tx.isSome = true ∧ noticeEnabled (crowded 15) 6 = false ∧ noticeEnabled (crowded 15) 7 = true ∧
    (crowded 15).alarms.notices.length < 16 ∧ ¬ (crowded 16).alarms.notices.length < 16 ∧
    noticeEnabled { crowded 15 with live := {} } 7 = false := ⟨rfl, rfl, rfl, rfl, rfl, by decide, by decide, rfl⟩

theorem witness_RevertRestoresTheHeldSettings : (Ready State.reset ∧ State.reset.link.busy = none ∧ State.reset.em.mode = .off ∧
    State.reset.live.alarm.report.length = 36 ∧ State.reset.live.alarm.notice.length = 8 ∧
    State.reset.link.held.params.alarm.report.length = 36 ∧ State.reset.link.held.params.alarm.notice.length = 8) ∧
    (Ready busy17 ∧ busy17.link.busy.isSome = true) :=
  ⟨⟨⟨rfl, rfl⟩, rfl, rfl, rfl, rfl, rfl, rfl⟩, ⟨rfl, rfl⟩, rfl⟩

/-- The gap limit, 3/7, written as 300 and held as 255. -/
theorem witness_SettingsAreWrittenAndRead : ∃ (x : Setting) (v : Int), Ready State.reset ∧
    settingOf (groupOf 0x0307) (indexOf 0x0307) = some x ∧ judgeValue x.values (300 : BitVec 32).toInt = some v ∧
    (needsOff (groupOf 0x0307) (indexOf 0x0307) = true → State.reset.em.mode = .off) ∧ State.reset.live.alarm.report.length = 36 ∧
    State.reset.live.alarm.notice.length = 8 := ⟨_, 255, ⟨rfl, rfl⟩, rfl, by decide +kernel, fun _ => rfl, rfl, rfl⟩

/-- No setting 0/0; the mode 3/3 with a code that it has not; the frame period 3/0 while emission is not OFF. -/
theorem witness_SettingsAreWrittenAndRead_refused : settingOf (groupOf 0x0000) (indexOf 0x0000) = none ∧
    (∃ x, settingOf (groupOf 0x0303) (indexOf 0x0303) = some x ∧ judgeValue x.values (2 : BitVec 32).toInt = none) ∧
    (∃ x v s, settingOf (groupOf 0x0300) (indexOf 0x0300) = some x ∧ judgeValue x.values (1000000 : BitVec 32).toInt = some v ∧
      needsOff (groupOf 0x0300) (indexOf 0x0300) = true ∧ Ready s ∧ s.em.mode ≠ .off) :=
  ⟨rfl, ⟨_, rfl, by decide +kernel⟩, _, 1000000, { State.reset with em := { mode := .anchoring } }, rfl, by decide +kernel, rfl, ⟨rfl, rfl⟩,
    by decide⟩

/-- Port B is DISABLED, as its setting says. -/
def portOff : State :=
  { State.reset with live := { feed := { enabled := ⟨true, false⟩ } }, feed := { ports := ⟨{ mode := .dark }, { mode := .disabled }⟩ } }

theorem witness_SettingsAreWrittenAndRead_owners : Ready State.reset ∧ State.reset.live.clock.enabled.get .in1 = true ∧
    (Ready holdoverStart ∧ holdoverStart.live.clock.enabled.get .in3 = false) ∧ State.reset.live.clock.priority.get .in1 ≠ 3 ∧
    (Ready portOff ∧ portOff.live.feed.enabled.get .a = !false ∧ (portOff.feed.ports.get .a).mode ≠ .disabled ∧
      portOff.live.feed.enabled.get .b = !true ∧ (portOff.feed.ports.get .b).mode ≠ .dark) ∧
    State.reset.em.mode = .off ∧ State.reset.live.em.period ≠ 100000 ∧ State.reset.live.drive.installed ≠ 1 :=
  ⟨⟨rfl, rfl⟩, rfl, ⟨⟨rfl, rfl⟩, rfl⟩, by decide, ⟨⟨rfl, rfl⟩, rfl, by decide, rfl, by decide⟩, rfl, by decide, by decide⟩

theorem witness_PlainReportsChangeNothing : Ready State.reset ∧ (31 : Byte).toNat ≤ 31 ∧ 31 < (32 : Byte).toNat ∧ (0 : Byte).toNat = 0 ∧
    4 < (5 : Byte).toNat := ⟨⟨rfl, rfl⟩, by decide, by decide, rfl, by decide⟩
theorem witness_ClearingReports : Ready State.reset ∧ 1 < (2 : Byte).toNat ∧ (0 : Byte).toNat = 0 ∧ 2 < (3 : Byte).toNat :=
  ⟨⟨rfl, rfl⟩, by decide, rfl, by decide⟩
theorem witness_ModuleStatusBody : Ready State.reset ∧ (0 : Byte).toNat = 0 ∧ 4 < (5 : Byte).toNat := ⟨⟨rfl, rfl⟩, rfl, by decide⟩

/-! ## Witnesses: Site Time -/

theorem witness_SelectReferenceForces : Ready relockStart ∧ (holdoverStart.clock.inputs.get .in1).mode = .qualified ∧ Ready holdoverStart ∧
    (relockStart.clock.inputs.get .in2).mode ≠ .qualified ∧ 3 < (4 : Byte).toNat :=
  ⟨⟨rfl, rfl⟩, rfl, ⟨rfl, rfl⟩, by decide, by decide⟩

/-- Inputs 1 and 2 QUALIFIED, input 2 the better by priority; input 1 governs, and these are the selection and the force. -/
def choosing (keep : Bool) (forced : Option InputId) : State :=
  { at_ { mode := .locked, governing := some .in1, forced := forced, inputs := ⟨{ mode := .qualified }, { mode := .qualified }, {}⟩ } with
    live := { clock := { nonRevertive := keep, priority := ⟨2, 1, 3⟩ } } }

/-- The force, the input that governs and the best priority each decide once; and no input is QUALIFIED after a start. -/
theorem witness_SelectReferenceForces_choice : chooseGoverning (choosing true (some .in2)) = some .in2 ∧
    chooseGoverning (choosing true none) = some .in1 ∧ chooseGoverning (choosing false none) = some .in2 ∧
    chooseGoverning (choosing true (some .in3)) = some .in1 ∧ chooseGoverning State.reset = none ∧
    (∀ m, m ≠ .in2 → ((choosing false none).clock.inputs.get m).mode = .qualified →
      (choosing false none).live.clock.priority.get .in2 < (choosing false none).live.clock.priority.get m) := by
  refine ⟨by decide, by decide, by decide, by decide, by decide, ?_⟩
  intro m hm h
  cases m <;> first | decide | exact absurd rfl hm
theorem witness_ReseedRestartsProving : Ready holdoverStart ∧ holdoverStart.live.clock.enabled.get .in1 = true ∧
    (holdoverStart.clock.forced = some .in1 → (holdoverStart.clock.inputs.get .in1).mode = .qualified) ∧
    holdoverStart.live.clock.enabled.get .in3 = false ∧ (0 : Byte).toNat = 0 ∧ 3 < (4 : Byte).toNat :=
  ⟨⟨rfl, rfl⟩, rfl, fun _ => rfl, rfl, rfl, by decide⟩
theorem witness_OscillatorSecondTakesTheCorrection : ∃ s : State, Powered s ∧ s.clock.secondsTaken * 10000000 ≤ s.clock.cycles :=
  ⟨at_ { secondsTaken := 3, cycles := 30000000 }, rfl, by decide⟩
theorem witness_FirstPulseBeginsQualifying : Powered holdoverStart ∧ holdoverStart.live.clock.enabled.get .in2 = true ∧
    (holdoverStart.clock.inputs.get .in2).mode = .absent ∧ holdoverStart.clock.forced ≠ some .in2 ∧
    holdoverStart.live.clock.enabled.get .in3 = false := ⟨rfl, rfl, rfl, by decide, rfl⟩

/-- An error of the suspect band, 50 STU. -/
def atTheBand : State := { holdoverStart with clock := { holdoverStart.clock with time := 50000000050 } }

theorem witness_LockedPulseSteers : Powered atTheBand ∧ atTheBand.live.clock.enabled.get .in1 = true ∧ atTheBand.clock.mode = .locked ∧
    atTheBand.clock.governing = some .in1 ∧ chooseGoverning atTheBand = some .in1 ∧ atTheBand.clock.secondsSet = true ∧
    (atTheBand.clock.inputs.get .in1).mode = .qualified ∧ (atTheBand.clock.inputs.get .in1).reseed = false ∧
    wrongNumber atTheBand (atTheBand.clock.inputs.get .in1).received = false ∧
    (atTheBand.clock.time % 10000000 - (atTheBand.clock.inputs.get .in1).eps / 256).natAbs ≤ atTheBand.live.clock.suspectBand :=
  ⟨rfl, rfl, rfl, rfl, by decide, rfl, rfl, rfl, by decide, by decide⟩

/-- ACQUIRING from input 1 with the lock count at 9, one below the figure, at this error and with this ε. -/
def acquiring (e eps : Int) : State :=
  at_ { time := 50000000000 + e, mode := .acquiring, lockCount := 9, secondsSet := true, governing := some .in1, boundary := 4999
        inputs := ⟨{ mode := .qualified, lastPulse := some 49990000000, rawErr := 0, eps := eps * 256 }, {}, {}⟩ }

/-- A pulse that steps site time while emission is in this state. -/
def stepping (emission : EmissionMode) : State := { acquiring 1001 1001 with em := { mode := emission } }

theorem witness_LockedPulseSteers_acquiring :
    ∀ s ∈ [acquiring 1000 1000, acquiring 1001 1001, stepping .anchoring, stepping .running], Powered s ∧
    s.live.clock.enabled.get .in1 = true ∧ s.clock.mode = .acquiring ∧ s.clock.governing = some .in1 ∧ chooseGoverning s = some .in1 ∧
    (s.clock.inputs.get .in1).mode = .qualified ∧ (s.clock.inputs.get .in1).reseed = false ∧ s.alarms.records.length = 36 ∧
    (s.clock.time % 10000000 - (s.clock.inputs.get .in1).eps / 256).natAbs ≤ s.live.clock.suspectBand ∧ s.clock.secondsSet = true := by
  unfold Powered
  decide +kernel
/-- The last error that steers and the first that steps. -/
theorem witness_LockedPulseSteers_threshold :
    ((acquiring 1000 1000).clock.time % 10000000).natAbs ≤ (acquiring 1000 1000).live.clock.stepThreshold ∧
    (acquiring 1001 1001).live.clock.stepThreshold < ((acquiring 1001 1001).clock.time % 10000000).natAbs ∧
    0 ≤ ((acquiring 1001 1001).clock.time + 5000000) / 10000000 ∧
    ((acquiring 1001 1001).clock.time + 5000000) / 10000000 * 10000000 < 18446744073709551616 := by decide
/-- The step with emission ANCHORING and RUNNING: each meets the premises of the step clause, and brings the entry to ANCHORING. -/
theorem witness_LockedPulseSteers_emission : ∀ m ∈ [EmissionMode.anchoring, .running],
    (stepping m).em.mode ≠ .off ∧ (stepping m).live.clock.stepThreshold < ((stepping m).clock.time % 10000000).natAbs ∧
    (after (.timePulse .in1) (stepping m)).em.mode = .anchoring := by decide +kernel
theorem witness_LockedPulseSteers_moved : ∃ (s t : State) (h : Held), s.store.slots[43]? = some (.held h) ∧
    t.store.slots[43]? = some (.taken 9003 (some h)) :=
  let h : Held := ⟨9003, .b, .clean, 7, 0, 0, [], []⟩
  ⟨{ State.reset with store := { slots := (List.replicate 64 Slot.free).set 43 (.held h) } },
    { State.reset with store := { slots := (List.replicate 64 Slot.free).set 43 (.taken 9003 (some h)) } }, h, rfl, rfl⟩

/-- The same input in LOCKED, with the seconds not set; it has sent its number. -/
def unset : State :=
  { atTheBand with clock := { atTheBand.clock with
      secondsSet := false, inputs := ⟨{ atTheBand.clock.inputs.get .in1 with received := some 5001 }, {}, {}⟩ } }

theorem witness_LockedPulseSteers_secondCount : Powered unset ∧ unset.live.clock.enabled.get .in1 = true ∧ unset.clock.mode = .locked ∧
    unset.clock.governing = some .in1 ∧ chooseGoverning unset = some .in1 ∧ unset.clock.secondsSet = false ∧
    (unset.clock.inputs.get .in1).mode = .qualified ∧ (unset.clock.inputs.get .in1).reseed = false ∧
    (unset.clock.inputs.get .in1).received = some 5001 ∧ unset.alarms.records.length = 36 ∧
    (unset.clock.time % 10000000 - (unset.clock.inputs.get .in1).eps / 256).natAbs ≤ unset.live.clock.suspectBand ∧
    ((5001 : Int) - (unset.clock.time + 5000000) / 10000000) * 10000000 ≠ 0 :=
  ⟨rfl, rfl, rfl, rfl, by decide, rfl, rfl, rfl, rfl, rfl, by decide, by decide⟩

/-- The expiry falls due at just this time. -/
theorem witness_MissingPulseLosesLock : ∃ p, Powered holdoverStart ∧ holdoverStart.live.clock.enabled.get .in1 = true ∧
    holdoverStart.clock.mode = .locked ∧ holdoverStart.clock.governing = some .in1 ∧
    (holdoverStart.clock.inputs.get .in1).mode = .qualified ∧
    (∀ m, m ≠ .in1 → (holdoverStart.clock.inputs.get m).mode ≠ .qualified) ∧
    (holdoverStart.clock.inputs.get .in1).lastPulse = some p ∧ (holdoverStart.clock.inputs.get .in1).expiries = 0 ∧
    p + 15000000 ≤ holdoverStart.clock.time ∧ holdoverStart.alarms.records.length = 36 :=
  ⟨49990000003, rfl, rfl, rfl, rfl, rfl, by intro m; cases m <;> decide, rfl, rfl, by decide, rfl⟩

/-- Input 2 of the relock, this many good pulses behind it, and the relock window. -/
def relocking (good window : Nat) : State :=
  { relockStart with
    clock := { relockStart.clock with inputs := ⟨{ mode := .disqualified }, { qualifying with good := good }, {}⟩ }
    live := { clock := { enabled := ⟨true, true, false⟩, relockWindow := window } } }

theorem witness_MissingPulseLosesLock_relock : ∀ s ∈ [relocking 3 13, relocking 4 13, relocking 4 12],
    Powered s ∧ s.live.clock.enabled.get .in2 = true ∧ s.clock.mode = .holdover ∧ s.clock.governing = none ∧ s.clock.secondsSet = true ∧
    (s.clock.inputs.get .in2).mode = .qualifying ∧ (s.clock.inputs.get .in2).reseed = false ∧
    (s.clock.inputs.get .in1).mode ≠ .qualified ∧ (s.clock.inputs.get .in3).mode ≠ .qualified ∧
    (s.clock.inputs.get .in2).lastPulse = some 50440000014 ∧ 9999000 ≤ s.clock.time - 50440000014 ∧
    s.clock.time - 50440000014 ≤ 10001000 ∧
    (s.clock.time % 10000000 - (s.clock.inputs.get .in2).rawErr).natAbs ≤ s.live.clock.jitter := by
  unfold Powered
  decide +kernel
/-- The fourth and the fifth good pulse; ε of 13 against a window of 13 and of 12. -/
theorem witness_MissingPulseLosesLock_cases : min 15 (3 + 1) < (relocking 3 13).live.clock.entryCount ∧
    (relocking 4 13).live.clock.entryCount ≤ min 15 (4 + 1) ∧
    (((3287 : Int) + (16 * 256 - 3287) / 2 ^ (relocking 4 13).live.clock.beta) / 256).natAbs ≤ (relocking 4 13).live.clock.relockWindow ∧
    (relocking 4 12).live.clock.relockWindow <
      (((3287 : Int) + (16 * 256 - 3287) / 2 ^ (relocking 4 12).live.clock.beta) / 256).natAbs ∧
    (relocking 4 12).live.clock.lockWindow ≤ (relocking 4 12).live.clock.relockWindow ∧ 1 ≤ (relocking 4 12).live.clock.lockCount ∧
    (16 : Int).natAbs ≤ (relocking 4 12).live.clock.stepThreshold := by decide +kernel

theorem witness_SuspectTimeoutAndHoldOff :
    (∃ s : State, Powered s ∧ (s.clock.inputs.get .in1).mode = .suspect ∧ s.alarms.records.length = 36 ∧
      (s.clock.inputs.get .in1).suspectStart + (s.live.clock.suspectTimeout : Int) * 10000000 ≤ s.clock.time) ∧
    (∃ s : State, Powered s ∧ (s.clock.inputs.get .in1).mode = .disqualified ∧
      (s.clock.inputs.get .in1).disqTime + (s.live.clock.holdOff : Int) * 10000000 ≤ s.clock.time) :=
  ⟨⟨at_ { time := 300000000, inputs := ⟨{ mode := .suspect }, {}, {}⟩ }, rfl, rfl, rfl, by decide⟩,
    at_ { time := 100000000, inputs := ⟨{ mode := .disqualified }, {}, {}⟩ }, rfl, rfl, by decide⟩

/-- One STU beyond the suspect band, at a QUALIFIED and at a SUSPECT input. -/
def beyondBand (mode : InputMode) : State :=
  { holdoverStart with clock := { holdoverStart.clock with time := 50000000051, inputs := ⟨{ mode := mode }, {}, {}⟩ } }

theorem witness_SuspectTimeoutAndHoldOff_band : ∀ mode ∈ [InputMode.qualified, .suspect], Powered (beyondBand mode) ∧
    (beyondBand mode).live.clock.enabled.get .in1 = true ∧ ((beyondBand mode).clock.inputs.get .in1).mode = mode ∧
    ((beyondBand mode).clock.inputs.get .in1).reseed = false ∧ 1 ≤ (beyondBand mode).live.clock.returnCount ∧
    (beyondBand mode).live.clock.suspectBand <
      ((beyondBand mode).clock.time % 10000000 - ((beyondBand mode).clock.inputs.get .in1).eps / 256).natAbs := by
  unfold Powered
  decide +kernel

/-- Input 1 governs with ε at 0; input 2 has disagreed three times, and 11 STU once more is the fourth. -/
def disagreeing : State :=
  { at_ { time := 50000000011, mode := .locked, u := 0, secondsSet := true, governing := some .in1, boundary := 5000
          inputs := ⟨{ mode := .qualified }, { mode := .qualified, rawErr := 11, eps := 2816, disagree := 3, lastPulse := some 49990000011 }, {}⟩ } with
    live := {} }

theorem witness_SuspectTimeoutAndHoldOff_verdict : Powered disagreeing ∧ disagreeing.live.clock.enabled.get .in2 = true ∧
    (disagreeing.clock.inputs.get .in2).mode = .qualified ∧ (disagreeing.clock.inputs.get .in2).reseed = false ∧
    disagreeing.clock.mode = .locked ∧ disagreeing.clock.governing = some .in1 ∧ (disagreeing.clock.inputs.get .in1).mode = .qualified ∧
    (disagreeing.clock.inputs.get .in3).mode ≠ .qualified ∧ (disagreeing.clock.inputs.get .in3).mode ≠ .suspect ∧
    (disagreeing.clock.inputs.get .in2).lastPulse = some 49990000011 ∧
    wrongNumber disagreeing (disagreeing.clock.inputs.get .in2).received = false ∧ disagreeing.alarms.records.length = 36 ∧
    disagreeing.live.clock.crossLimit <
      (((2816 : Int) + (11 * 256 - 2816) / 2 ^ disagreeing.live.clock.beta) / 256 -
        (disagreeing.clock.inputs.get .in1).eps / 256).natAbs ∧
    disagreeing.live.clock.crossCount ≤ min 15 ((disagreeing.clock.inputs.get .in2).disagree + 1) :=
  ⟨rfl, rfl, rfl, rfl, rfl, rfl, rfl, by decide, by decide, rfl, by decide, rfl, by decide, by decide⟩

/-- Three inputs at 0, 22 and 11: input 2 and the governing input 1 lie equally far from the median. -/
def threeApart : State :=
  { disagreeing with clock := { disagreeing.clock with
      time := 50000000022
      inputs := ⟨{ mode := .qualified }, { mode := .qualified, rawErr := 22, eps := 5632, disagree := 3, lastPulse := some 49990000022 },
        { mode := .qualified, eps := 2816 }⟩ } }

theorem witness_SuspectTimeoutAndHoldOff_three :
    let s := threeApart
    let whole (m : InputId) : Int := if m = .in2 then (5632 + (22 * 256 - 5632) / 2 ^ s.live.clock.beta) / 256 else (s.clock.inputs.get m).eps / 256
    let median : Int := max (min (whole .in1) (whole .in2)) (min (max (whole .in1) (whole .in2)) (whole .in3))
    let far (m : InputId) : Nat := (whole m - median).natAbs
    Powered s ∧ s.live.clock.enabled.get .in2 = true ∧ s.clock.mode = .locked ∧ s.clock.governing = some .in1 ∧
    (∀ m, (s.clock.inputs.get m).mode = .qualified) ∧ s.alarms.records.length = 36 ∧ 9999000 ≤ s.clock.time - 49990000022 ∧
    s.clock.time - 49990000022 ≤ 10001000 ∧ wrongNumber s (s.clock.inputs.get .in2).received = false ∧
    (22 - (5632 : Int) / 256).natAbs ≤ s.live.clock.suspectBand ∧ s.live.clock.crossLimit < (whole .in2 - whole .in1).natAbs ∧
    s.live.clock.crossCount ≤ min 15 ((s.clock.inputs.get .in2).disagree + 1) ∧ far .in1 = far .in2 ∧ far .in3 < far .in2 ∧
    ((after (.timePulse .in2) s).clock.inputs.get .in2).mode = .suspect := by
  unfold Powered
  refine ⟨by decide, by decide, by decide, by decide, by intro m; cases m <;> rfl, ?_⟩
  decide +kernel

/-- u stands at the guard limit, so that this boundary expires the clock. -/
theorem witness_SecondBoundaryGrowsUncertainty : ∃ s : State, Powered s ∧ (s.clock.mode = .holdover ∨ s.clock.mode = .expired) ∧
    s.clock.boundary < s.clock.time / 10000000 ∧ s.alarms.records.length = 36 ∧ s.live.em.singleSite = false ∧ s.em.mode = .off ∧
    s.live.clock.guardLimit * 1000 < min 4294967295 (s.clock.u + s.live.clock.holdoverRate) :=
  ⟨at_ { time := 52010000000, mode := .holdover, u := 10000, boundary := 5200 }, rfl, by decide, by decide, rfl, rfl, rfl, by decide⟩

/-- The same boundary with an anchor standing. -/
def anchored (mode : EmissionMode) : State :=
  { at_ { time := 52010000000, mode := .holdover, u := 10000, boundary := 5200 } with
    em := { mode := mode, anchor := some ⟨2, 52020000000, 0, 0⟩ } }

theorem witness_SecondBoundaryGrowsUncertainty_emission : ∀ mode ∈ [EmissionMode.anchoring, .running], Powered (anchored mode) ∧
    (anchored mode).clock.mode = .holdover ∧ (anchored mode).clock.boundary < (anchored mode).clock.time / 10000000 ∧
    (anchored mode).alarms.records.length = 36 ∧ (anchored mode).live.em.singleSite = false ∧ (anchored mode).em.mode = mode ∧
    (anchored mode).em.anchor = some ⟨2, 52020000000, 0, 0⟩ := by
  unfold Powered
  decide +kernel

/-! ## Witnesses: Feed Intake and the Frame Store -/

/-- Port A SEARCHING, its phase 0 with four good sync bytes behind it. -/
def hunting (mode : PortMode) : State :=
  { State.reset with feed := { ports := ⟨{ mode := mode, runs := 4 :: List.replicate 187 0 }, {}⟩ } }

theorem witness_HuntFindsAlignment : (Powered (hunting .dark) ∧ ((hunting .dark).feed.ports.get .a).mode = .dark ∧ 0 < 5) ∧
    (Powered (hunting .searching) ∧ ((hunting .searching).feed.ports.get .a).mode = .searching ∧
      5 ≤ ((hunting .searching).feed.ports.get .a).runs.getD 0 0 + 1 ∧ (hunting .searching).alarms.records.length = 36) :=
  ⟨⟨rfl, rfl, by decide⟩, rfl, rfl, by decide, rfl⟩

/-- Port A aligned, with two damaged packets behind it. -/
def aligned (mode : PortMode) : State :=
  { at_ { cycles := 100000, time := 5000000 } with
    feed := { ports := ⟨{ mode := mode, packetPhase := some 0, wrongSync := 2, average := 65535, deadline := some 5000000 }, {}⟩ } }

/-- Bytes 4 to 86 of a timing packet laid out by 10.2: sequence 5000, stamp 3,250,000, delay 8,000,000, the default format. -/
def timingData : List Byte :=
  be 2 5000 ++ be 4 3250000 ++ be 4 8000000 ++ be 4 1000000 ++ be 2 1604 ++ [0x01, 0, 0] ++ List.replicate 64 0xFF

theorem crc_part1 : crc32 crcStart (timingData.take 20) = 0x73791edb := by decide +kernel
theorem crc_part2 : crc32 0x73791edb ((timingData.drop 20).take 21) = 0xbb1f6722 := by decide +kernel
theorem crc_part3 : crc32 0xbb1f6722 ((timingData.drop 41).take 21) = 0xe477452d := by decide +kernel
theorem crc_part4 : crc32 0xe477452d (timingData.drop 62) = 0x9d253613 := by decide +kernel

theorem crc_timing : crc32 crcStart timingData = 0x9d253613 := by
  have h : timingData = timingData.take 20 ++ ((timingData.drop 20).take 21 ++ ((timingData.drop 41).take 21 ++ timingData.drop 62)) := by
    decide +kernel
  rw [h]
  unfold crc32 at *
  rw [List.foldl_append, List.foldl_append, List.foldl_append]
  have p1 := crc_part1
  have p2 := crc_part2
  have p3 := crc_part3
  have p4 := crc_part4
  unfold crc32 at p1 p2 p3 p4
  rw [p1, p2, p3, p4]

/-- The whole packet, on the default timing stream. -/
def timing : Packet := [0x47, 0x5F, 0xF4, 0x10] ++ timingData ++ [0x9d, 0x25, 0x36, 0x13] ++ List.replicate 97 0xFF

/-- A null frame's packet has this layout (R82). -/
theorem test_nullTiming : nullTiming 8180 5000 3250000 8000000 1000000 1604 0 = timing := by
  unfold nullTiming
  dsimp only
  rw [show be 2 ((5000 : Seq).toNat : Int) ++ be 4 (3250000 : Nat) ++ be 4 (8000000 : Nat) ++ be 4 (1000000 : Nat) ++ be 2 (1604 : Nat) ++
    [(0x01 : Byte), 0, 0] ++ List.replicate 64 0xFF = timingData from rfl, crc_timing]
  decide +kernel

theorem valid_timing : validTiming timing = true := by
  have h : slice timing 4 83 = timingData := by decide +kernel
  unfold validTiming timingCrc
  rw [h, crc_timing]
  decide +kernel

/-- A timing packet that is in error, and so invalid. -/
def errored : Packet := [0x47, 0x9F, 0xF4, 0x10] ++ List.replicate 184 0

/-- Port A aligned with this many packets of a frame, or none, before it, and a continuity entry of stream 100. -/
def collecting (count : Nat) (assembling : Bool) : State :=
  let f : Assembly := { timing := readTiming timing, arrival := 0, count := count, transportErrors := 0, continuityErrors := 0, hash := 0,
                        buffer := [timing] }
  { State.reset with feed := { ports := ⟨{ mode := .good, assembling := assembling, opened := if count = 0 then none else some f,
                                           continuity := [(100, some 15)] }, {}⟩ } }

theorem witness_TimingCandidateOpensAFrame : Powered (aligned .good) ∧ isAligned ((aligned .good).feed.ports.get .a).mode = true ∧
    (aligned .good).alarms.records.length = 36 ∧ Packet.whole timing = true ∧ hasSync timing = true ∧
    streamOf timing = (aligned .good).live.feed.timingStream ∧ validTiming timing = true ∧
    (readTiming timing).period = (aligned .good).live.em.period ∧ (readTiming timing).packets = (aligned .good).live.em.packets :=
  ⟨rfl, rfl, rfl, by decide +kernel, by decide +kernel, by decide +kernel, valid_timing, by decide +kernel, by decide +kernel⟩
theorem witness_TimingCandidateOpensAFrame_refused : Packet.whole errored = true ∧ hasSync errored = true ∧
    streamOf errored = (aligned .good).live.feed.timingStream ∧ validTiming errored = false ∧ validTiming timing = true ∧
    (readTiming timing).period ≠ ({ aligned .good with live := { em := { period := 999999 } } } : State).live.em.period :=
  ⟨by decide +kernel, by decide +kernel, by decide +kernel, by decide +kernel, valid_timing, by decide +kernel⟩
theorem witness_TimingCandidateOpensAFrame_packets : Packet.whole (packet 100 0) = true ∧ hasSync (packet 100 0) = true ∧
    streamOf (packet 100 0) ≠ (collecting 1 true).live.feed.timingStream ∧
    (∀ s ∈ [collecting 1602 true, collecting 1603 true, collecting 0 true, collecting 0 false], s.powered = true ∧
      isAligned (s.feed.ports.get .a).mode = true ∧ s.alarms.records.length = 36) ∧
    ((collecting 1602 true).feed.ports.get .a).opened.map (fun f => f.count + 1 < (collecting 1602 true).live.em.packets) = some True ∧
    ((collecting 1603 true).feed.ports.get .a).opened.map Assembly.count = some 1603 ∧ 1603 + 1 = State.reset.live.em.packets ∧
    ((collecting 0 true).feed.ports.get .a).opened = none ∧ ((collecting 0 false).feed.ports.get .a).assembling = false ∧
    ((collecting 0 true).feed.ports.get .a).continuity.lookup (streamOf (packet 100 0)) = some (some 15) ∧
    ((collecting 0 true).feed.ports.get .a).continuity.lookup (streamOf (packet 101 0)) = none :=
  ⟨by decide +kernel, by decide +kernel, by decide +kernel, by decide +kernel,
    congrArg some (eq_true (by decide)), rfl, rfl, rfl, rfl, by decide +kernel, by decide +kernel⟩
/-- The first damaged packet of a row, and the second. -/
theorem witness_TimingCandidateOpensAFrame_damaged : hasSync (0x46 :: nullPacket.drop 1) = false ∧
    ((collecting 1603 true).feed.ports.get .a).wrongSync < 2 ∧ ({ (collecting 1603 true).feed.ports.get .a with wrongSync := 1 }).wrongSync < 2 ∧
    heldOut (collecting 1603 true) .a = false := by decide

theorem witness_ThirdDamagedPacketEndsAlignment : Powered (aligned .failed) ∧ isAligned ((aligned .failed).feed.ports.get .a).mode = true ∧
    hasSync (0x46 :: nullPacket.drop 1) = false ∧ 2 ≤ ((aligned .failed).feed.ports.get .a).wrongSync ∧
    (aligned .failed).alarms.records.length = 36 := ⟨rfl, rfl, by decide, by decide, rfl⟩

theorem witness_LineActivityExpiryDarkens : Powered (aligned .searching) ∧
    ((aligned .searching).feed.ports.get .a).lastByte + 100000 ≤ (aligned .searching).clock.cycles ∧
    ((aligned .searching).feed.ports.get .a).mode = .searching ∧
    isAligned ((aligned .impaired).feed.ports.get .a).mode = true ∧ (aligned .impaired).alarms.records.length = 36 :=
  ⟨rfl, by decide, rfl, rfl, rfl⟩

theorem witness_SilenceDeadlineGivesAVerdict : Powered (aligned .good) ∧ ((aligned .good).feed.ports.get .a).deadline = some 5000000 ∧
    5000000 ≤ (aligned .good).clock.time ∧ ((aligned .good).feed.ports.get .a).mode = .good ∧
    ((aligned .good).feed.ports.get .a).average ≤ 65535 ∧ ((aligned .failed).feed.ports.get .a).mode = .failed :=
  ⟨rfl, rfl, by decide, rfl, by decide, rfl⟩

theorem witness_FeedHoldConfinesOffers : Ready State.reset ∧ 2 < (3 : Byte).toNat := ⟨⟨rfl, rfl⟩, by decide⟩

/-- A port with a frame open. -/
def assembling : State :=
  let f : Assembly := { timing := readTiming timing, arrival := 0, count := 1, transportErrors := 0, continuityErrors := 0, hash := 0,
                        buffer := [timing] }
  { State.reset with feed := { ports := ⟨{ mode := .good, assembling := true, opened := some f }, {}⟩ } }

theorem witness_FeedPacketWritesOneSlot : ∃ t f, Packet.whole (0x47 :: nullPacket.drop 1) = true ∧
    exec (.feedPacket .a 0x47 (nullPacket.drop 1)) assembling = .next t ∧ (assembling.feed.ports.get .a).opened = some f ∧
    f.buffer.all Packet.whole = true := ⟨_, _, by decide +kernel, rfl, rfl, by decide +kernel⟩

/-- With a record open: a timing candidate, the third damaged packet, and counts one below and at the last but one packet. -/
theorem witness_FeedPacketWritesOneSlot_kinds : ∃ t u,
    Packet.whole (0x47 :: timing.drop 1) = true ∧ streamOf (0x47 :: timing.drop 1) = assembling.live.feed.timingStream ∧
    exec (.feedPacket .a 0x47 (timing.drop 1)) assembling = .next t ∧
    Packet.whole (0x46 :: nullPacket.drop 1) = true ∧ 2 ≤ ((aligned .failed).feed.ports.get .a).wrongSync ∧
    exec (.feedPacket .a 0x46 (nullPacket.drop 1)) (aligned .failed) = .next u ∧
    1602 + 1 ≠ State.reset.live.em.packets ∧ 1603 + 1 = State.reset.live.em.packets :=
  ⟨_, _, by decide +kernel, by decide +kernel, rfl, by decide +kernel, by decide, rfl, by decide, rfl⟩

/-- The window of the worked table, b = 8998 at counter 8, with a slot that holds a CLEAN copy of 9003. -/
def windowed (slot : Slot) : State :=
  { State.reset with
    em := { mode := .running, anchor := some ⟨8990, 20000000000, 8, 9⟩ }
    store := { slots := (List.replicate 64 Slot.free).set 43 slot, base := some 8998, jumpRun := 2 }
    feed := { ports := ⟨{ mode := .good }, {}⟩ } }

/-- Port A's copy of a sequence, released in step with the worked table. -/
def copyOf (seq : Seq) (k : Nat) : Offer :=
  { offerOf (20007400000 + ((k : Int) - 13) * 1000000) ((5000000 + (k - 13) * 1000000) % 10000000) 8000000 with
    timing := { (offerOf 0 ((5000000 + (k - 13) * 1000000) % 10000000) 8000000).timing with seq := seq } }

def heldCopy : Held := ⟨9003, .b, .clean, 7, 0, 0, [], []⟩

/-- The last sequence of the window, 63 after b. -/
theorem witness_AdmissionFillsTheSlot :
    let s := windowed .free
    let o := copyOf 9061 71
    s.em.mode ≠ .off ∧ s.store.marks.get o.port = false ∧ s.em.anchor = some ⟨8990, 20000000000, 8, 9⟩ ∧ s.store.base = some 8998 ∧
    0 ≤ Seq.distance 8998 o.timing.seq ∧ Seq.distance 8998 o.timing.seq < 64 ∧ slotOf s o.timing.seq = .free ∧
    windowLate s ⟨8990, 20000000000, 8, 9⟩ 8998 o = false ∧
    (s.live.em.singleSite = true ∨ consistent s ⟨8990, 20000000000, 8, 9⟩ 8998 o = true) ∧ s.store.slots.length = 64 ∧
    o.packets.all Packet.whole = true ∧ o.packets.length ≤ 4096 := by decide +kernel

theorem witness_DuplicateAndStaleOffers_duplicate :
    let s := windowed (.held heldCopy)
    let o := copyOf 9003 13
    s.em.mode ≠ .off ∧ s.store.marks.get o.port = false ∧ s.em.anchor = some ⟨8990, 20000000000, 8, 9⟩ ∧ s.store.base = some 8998 ∧
    0 ≤ Seq.distance 8998 o.timing.seq ∧ Seq.distance 8998 o.timing.seq < 64 ∧ slotOf s o.timing.seq = .held heldCopy ∧
    heldCopy.quality = .clean ∧ o.quality = .clean ∧ windowLate s ⟨8990, 20000000000, 8, 9⟩ 8998 o = false ∧
    (s.live.em.singleSite = true ∨ consistent s ⟨8990, 20000000000, 8, 9⟩ 8998 o = true) ∧ heldCopy.hash ≠ o.hash := by decide +kernel

theorem witness_DuplicateAndStaleOffers_stale :
    let s := windowed .free
    let o := copyOf 8997 7
    s.em.mode ≠ .off ∧ s.store.marks.get o.port = false ∧ s.em.anchor = some ⟨8990, 20000000000, 8, 9⟩ ∧ s.store.base = some 8998 ∧
    Seq.distance 8998 o.timing.seq < 0 ∧ (s.feed.ports.get o.port).mode = .good ∧ 2 ≤ s.store.jumpRun := by decide +kernel
/-- Before b, the slot TAKEN, and 64 past b; from a GOOD port with the jump run at 2 and at 1, and from one that is IMPAIRED. -/
theorem witness_DuplicateAndStaleOffers_ahead :
    let s := windowed (.taken 9003 none)
    s.em.mode ≠ .off ∧ s.em.anchor = some ⟨8990, 20000000000, 8, 9⟩ ∧ s.store.base = some 8998 ∧
    (copyOf 9062 72).timing.seq = 9062 ∧ Seq.distance 8998 9062 = 64 ∧ 0 ≤ Seq.distance 8998 9003 ∧ Seq.distance 8998 9003 < 64 ∧
    slotOf s 9003 = .taken 9003 none ∧ s.store.jumpRun = 2 ∧ ({ s.store with jumpRun := 1 } : StoreState).jumpRun < 2 ∧
    ((aligned .impaired).feed.ports.get .a).mode ≠ .good := by decide +kernel

/-- The first offer of the worked table, a CLEAN copy, against a FLAWED one. -/
theorem witness_DuplicateAndStaleOffers_upgrade :
    let s := windowed (.held { heldCopy with quality := .flawed })
    let o := copyOf 9003 13
    s.em.mode ≠ .off ∧ s.store.marks.get o.port = false ∧ s.em.anchor = some ⟨8990, 20000000000, 8, 9⟩ ∧ s.store.base = some 8998 ∧
    0 ≤ Seq.distance 8998 o.timing.seq ∧ Seq.distance 8998 o.timing.seq < 64 ∧
    slotOf s o.timing.seq = .held { heldCopy with quality := .flawed } ∧ o.quality = .clean ∧
    windowLate s ⟨8990, 20000000000, 8, 9⟩ 8998 o = false ∧
    (s.live.em.singleSite = true ∨ consistent s ⟨8990, 20000000000, 8, 9⟩ 8998 o = true) ∧ s.store.slots.length = 64 ∧
    o.packets.all Packet.whole = true ∧ o.packets.length ≤ 4096 := by decide +kernel

/-- A FLAWED copy against a CLEAN one and against a FLAWED one. -/
theorem witness_DuplicateAndStaleOffers_flawed : ∀ q ∈ [Quality.clean, .flawed],
    let s := windowed (.held { heldCopy with quality := q })
    let o := { copyOf 9003 13 with quality := .flawed }
    s.em.mode ≠ .off ∧ s.store.marks.get o.port = false ∧ s.em.anchor = some ⟨8990, 20000000000, 8, 9⟩ ∧ s.store.base = some 8998 ∧
    0 ≤ Seq.distance 8998 o.timing.seq ∧ Seq.distance 8998 o.timing.seq < 64 ∧
    slotOf s o.timing.seq = .held { heldCopy with quality := q } ∧ windowLate s ⟨8990, 20000000000, 8, 9⟩ 8998 o = false ∧
    (s.live.em.singleSite = true ∨ consistent s ⟨8990, 20000000000, 8, 9⟩ 8998 o = true) := by decide +kernel

/-- A copy released one frame after the prediction, with mismatch runs of 0 and 2. -/
theorem witness_DuplicateAndStaleOffers_mismatch :
    let s := windowed (.held heldCopy)
    let o := copyOf 9003 14
    s.em.mode ≠ .off ∧ s.store.marks.get o.port = false ∧ s.em.anchor = some ⟨8990, 20000000000, 8, 9⟩ ∧ s.store.base = some 8998 ∧
    0 ≤ Seq.distance 8998 o.timing.seq ∧ Seq.distance 8998 o.timing.seq < 64 ∧ slotOf s o.timing.seq = .held heldCopy ∧
    windowLate s ⟨8990, 20000000000, 8, 9⟩ 8998 o = false ∧ s.live.em.singleSite = false ∧
    consistent s ⟨8990, 20000000000, 8, 9⟩ 8998 o = false ∧ s.store.mismatchRun < 2 ∧
    2 ≤ ({ s.store with mismatchRun := 2 } : StoreState).mismatchRun := by decide +kernel

/-! ## Witnesses: Emission -/

/-- RUNNING on a small grid of six packets, frame 1 of an anchor at sequence 2 on the way. -/
def running : State :=
  { State.reset with
    clock := { time := 7000000, mode := .locked, governing := some .in1, u := 0 }
    em := { mode := .running, anchor := some ⟨2, 5000000, 1, 2⟩, runFrame := 1, runPacket := 4 }
    live := { em := { singleSite := true, packets := 6, period := 1000000 } }
    splice := { services := [⟨4, [100], true⟩], offsets := [⟨100, some 15, 0, false⟩] }
    store := { slots := (List.replicate 64 Slot.free).set 3 (.taken 3 (some ⟨3, .a, .clean, 0, 0, 0, [], []⟩)), base := some 3 } }

/-- No channel of a state is ACTIVE when all four are IDLE. -/
theorem none_active {s : State} (h : s.splice.channels = ⟨none, none, none, none⟩) :
    ∀ n c, s.splice.channels.get n = some c → c.active = false := by
  intro n c hc
  rw [h] at hc
  cases n <;> cases hc

theorem witness_EmissionEntries : (Ready State.reset ∧ State.reset.em.mode = .off ∧
    (∀ n c, State.reset.splice.channels.get n = some c → c.active = false)) ∧ (Ready running ∧ running.em.mode ≠ .off) ∧
    LevelOk State.reset :=
  ⟨⟨⟨rfl, rfl⟩, rfl, none_active rfl⟩, ⟨⟨rfl, rfl⟩, by decide⟩, rfl, by decide, by decide, by decide, by decide⟩

theorem witness_HostMuteAndOffset : Ready driveStart ∧ LevelOk driveStart :=
  ⟨⟨rfl, rfl⟩, rfl, by decide, by decide, by decide, by decide⟩

/-- The start of a held frame that carries MUTE for every site. -/
def directed : State :=
  { running with
    em := { running.em with runPacket := 0 }
    store := { running.store with
      slots := (List.replicate 64 Slot.free).set 3 (.taken 3 (some ⟨3, .a, .clean, 0, 0, 0, [], [⟨1, 0, 0⟩]⟩)) } }

theorem witness_HostMuteAndOffset_directive : ∃ h, Powered directed ∧ directed.em.anchor = some ⟨2, 5000000, 1, 2⟩ ∧
    directed.em.mode = .running ∧ directed.em.runPacket = 0 ∧ directed.em.runFrame < 2 ∧
    (5000000 : Int) + (directed.em.runFrame * directed.live.em.period : Nat) ≤ directed.clock.time ∧
    directed.store.slots[((2 : Seq) + BitVec.ofNat 16 directed.em.runFrame).toNat % 64]? = some (.taken 3 (some h)) ∧
    h.directives = [⟨1, 0, 0⟩] ∧ LevelOk directed :=
  ⟨_, rfl, rfl, rfl, rfl, by decide, by decide, rfl, rfl, rfl, by decide, by decide, by decide, by decide⟩

/-- A cut-off that has just come: frame 2 of the anchor at 7,002,000 − 2,000. -/
def cutOff (slot : Slot) : State :=
  { running with
    em := { running.em with anchor := some ⟨2, 5002000, 1, 2⟩ }
    store := { slots := (List.replicate 64 Slot.free).set 4 slot, base := some 3 } }

theorem witness_TakesAndTheAnchor_take : Powered (cutOff .free) ∧ (cutOff .free).em.anchor = some ⟨2, 5002000, 1, 2⟩ ∧
    (5002000 : Int) + (2 * (cutOff .free).live.em.period : Nat) - 2000 ≤ (cutOff .free).clock.time ∧ 2 ≤ 1 + 1 ∧
    (cutOff .free).em.mode = .running ∧ ((2 : Seq) + BitVec.ofNat 16 2).toNat % 64 = 4 ∧
    (cutOff .free).store.slots[4]? = some .free ∧ (cutOff (.held heldCopy)).store.slots[4]? = some (.held heldCopy) :=
  ⟨rfl, rfl, by decide, by decide, rfl, by decide, rfl, rfl⟩

theorem witness_TakesAndTheAnchor_early : ∃ s : State, Powered s ∧ s.em.anchor = some ⟨2, 5002001, 1, 2⟩ ∧
    s.clock.time < (5002001 : Int) + (2 * s.live.em.period : Nat) - 2000 :=
  ⟨{ running with em := { running.em with anchor := some ⟨2, 5002001, 1, 2⟩ } }, rfl, rfl, by decide⟩

theorem witness_TakesAndTheAnchor_anchor : ∃ s : State, Powered s ∧ s.em.anchor = some ⟨3, 7000000, 0, 1⟩ ∧ s.em.mode = .anchoring ∧
    7000000 ≤ s.clock.time ∧ s.store.slots[(3 : Seq).toNat % 64]? = some (.taken 3 (some ⟨3, .a, .clean, 0, 0, 0, [], []⟩)) :=
  ⟨{ running with em := { mode := .anchoring, anchor := some ⟨3, 7000000, 0, 1⟩ } }, rfl, rfl, rfl, by decide, rfl⟩

/-- ANCHORING without an anchor, with this clock state and time. -/
def seeking (mode : ClockMode) (time : Int) : State := { at_ { mode := mode, time := time } with em := { mode := .anchoring } }

/-- A delay of 0; a clock that is not fit; the delay beyond 63 frames; the cut-off just come and not yet come. -/
theorem witness_TakesAndTheAnchor_candidate : ∀ s ∈ [seeking .locked 10007410250, seeking .free 10007410250, seeking .locked 10011248000],
    s.em.mode = .anchoring ∧ s.store.marks.get .a = false ∧ s.em.anchor = none ∧ s.live.em.singleSite = false ∧ 1 ≤ s.live.em.period := by
  decide +kernel
theorem witness_TakesAndTheAnchor_cases :
    let o := offerOf 10007410250 3250000
    let s := seeking .locked 10007410250
    stampedInstant s (o 8000000) = 10011250000 ∧ ¬ (o 8000000).arrival < 3250000 ∧ ¬ (10011250000 - (o 8000000).arrival < s.live.em.lead) ∧
    clockFit (seeking .free 10007410250) = false ∧ clockFit s = true ∧ 63 * (s.live.em.period : Int) < 63000001 ∧
    ¬ (63 * (s.live.em.period : Int) < 8000000) ∧ (10011250000 : Int) - 2000 ≤ (seeking .locked 10011248000).clock.time ∧
    ¬ ((10011250000 : Int) - 2000 ≤ s.clock.time) := by decide +kernel

/-- The start of a null frame with the gap run at 7, one below the limit. -/
theorem witness_NullFramesMuteEmission : ∃ (s : State) (a : Anchor), Powered s ∧ s.em.anchor = some a ∧ s.em.mode = .running ∧
    s.em.runPacket = 0 ∧ s.em.runFrame < a.next ∧ a.instant + (s.em.runFrame * s.live.em.period : Nat) ≤ s.clock.time ∧
    s.store.slots[(a.seq + BitVec.ofNat 16 s.em.runFrame).toNat % 64]? = some (.taken 4 none) ∧ s.em.mute.feed = false ∧
    s.alarms.records.length = 36 ∧ s.live.em.gapLimit ≤ min 255 (s.em.gapRun + 1) ∧ LevelOk s :=
  ⟨{ running with
      em := { running.em with anchor := some ⟨2, 5000000, 2, 3⟩, runFrame := 2, runPacket := 0, gapRun := 7 }
      store := { slots := (List.replicate 64 Slot.free).set 4 (.taken 4 none), base := some 4 } }, _,
    rfl, rfl, rfl, rfl, by decide, by decide, rfl, rfl, rfl, by decide, rfl, by decide, by decide, by decide, by decide⟩
theorem witness_NullFramesMuteEmission_alone : running.splice.cues = [] ∧
    ∀ n c, running.splice.channels.get n = some c → c.active = false := ⟨rfl, none_active rfl⟩

/-- A frame of packets of one stream in slot 3, and a clip packet at position 11. -/
def carrying (stream : Nat) : State :=
  { running with mem := Memory.write (Memory.write [] (slotAddress 3 4) (packet stream 0 ++ packet stream 1)) (clipAddress 11) (packet 55 7) }

theorem witness_PacketsLeaveAtTheirInstants_middle : ∃ a h, Powered (carrying 200) ∧ (carrying 200).em.anchor = some a ∧
    (carrying 200).em.mode = .running ∧ 1 ≤ (carrying 200).em.runPacket ∧
    (carrying 200).store.slots[(a.seq + BitVec.ofNat 16 (carrying 200).em.runFrame).toNat % 64]? = some (.taken 3 (some h)) ∧
    a.instant + ((carrying 200).em.runFrame * (carrying 200).live.em.period : Nat) +
      (4 * (carrying 200).live.em.period / (carrying 200).live.em.packets : Nat) ≤ (carrying 200).clock.time ∧
    (∀ n c, (carrying 200).splice.channels.get n = some c → c.active = false) ∧
    offsetRec (carrying 200) (streamOf (readPacket (carrying 200) (slotAddress 3 4))) = none ∧ 4 + 1 < (carrying 200).live.em.packets :=
  ⟨_, _, rfl, rfl, rfl, by decide, rfl, by decide, none_active rfl, by decide +kernel, by decide⟩

/-- The last packet of the frame, a null packet. -/
theorem witness_PacketsLeaveAtTheirInstants_last :
    let s : State := { carrying 8191 with em := { running.em with runPacket := 5 } }
    Powered s ∧ (∀ n c, s.splice.channels.get n = some c → c.active = false) ∧ 1 ≤ s.em.runPacket ∧
    streamOf (readPacket s (slotAddress 3 5)) = 8191 ∧ s.em.runPacket + 1 = s.live.em.packets ∧ s.store.base = some 3 ∧
    (1 : Nat) + 1 < 2147483648 := ⟨rfl, none_active rfl, by decide, by decide +kernel, by decide, rfl, by decide⟩

/-- Channel 2 ACTIVE with service 4, its next clip packet at position 11 on stream 55, mapped to 100. -/
def inserting : State :=
  let channel : Channel :=
    { active := true, avail := 9, service := 4, start := 1, ending := 30, clip := 0, perFrame := 2, length := 10, map := [(55, 100)],
      harvest := false, early := false, read := 1, due := 1 }
  let clip : Clip := { mode := .ready, base := 10, length := 10, perFrame := 2, uses := 1 }
  let entry : CueEntry :=
    { avail := 9, service := 4, start := 1, duration := 29, ending := 30, source := .host, carrying := 0, mode := .active,
      channel := some .n2, order := 0 }
  { carrying 100 with
    clips := { clips := clip :: List.replicate 31 {} }
    splice := { running.splice with channels := ⟨none, some channel, none, none⟩, cues := [entry], lastStarted := some 3 } }

theorem witness_PacketsLeaveAtTheirInstants_inserted : ∃ n c r,
    streamOf (readPacket inserting (slotAddress 3 4)) ≠ 8191 ∧ freedBy inserting 100 = some (n, c) ∧
    streamOf (readPacket inserting (slotAddress 3 4)) = 100 ∧ 0 < c.due ∧
    4 + 1 < inserting.live.em.packets ∧ (clipRec inserting c.clip).base + c.read = 11 ∧
    c.map.lookup (streamOf (readPacket inserting (clipAddress 11))) = some 100 ∧ offsetRec inserting 100 = some r ∧ r.last = some 15 ∧
    carriesPayload (readPacket inserting (clipAddress 11)) = true :=
  ⟨.n2, _, _, by decide +kernel, rfl, by decide +kernel, by decide, by decide, by decide, by decide +kernel, rfl, rfl, by decide +kernel⟩

/-- The same channel harvesting a null packet. -/
theorem witness_PacketsLeaveAtTheirInstants_harvested : ∃ c,
    let s : State := { inserting with
      mem := (carrying 8191).mem
      splice := { inserting.splice with channels := inserting.splice.channels.map (·.map (fun c => { c with harvest := true })) } }
    streamOf (readPacket s (slotAddress 3 4)) = 8191 ∧ harvester s = some (.n2, c) ∧ 4 + 1 < s.live.em.packets ∧
    c.map.lookup (streamOf (readPacket s (clipAddress ((clipRec s c.clip).base + c.read)))) = some 100 ∧
    (offsetRec s 100).bind OffsetRec.last = some 15 := ⟨_, by decide +kernel, rfl, by decide, by decide +kernel, rfl⟩

/-- Channel 2 with nothing due, and with a clip packet that its map does not name. -/
theorem witness_PacketsLeaveAtTheirInstants_nulls :
    let change (f : Channel → Channel) : State :=
      { inserting with splice := { inserting.splice with channels := inserting.splice.channels.map (·.map f) } }
    (freedBy (change (fun c => { c with due := 0 })) 100).map (fun x => (x.1, x.2.due)) = some (.n2, 0) ∧
    (freedBy (change (fun c => { c with map := [(56, 100)] })) 100).map (fun x => x.2.map.lookup 55) = some none ∧
    streamOf (readPacket inserting (clipAddress 11)) = 55 := by decide +kernel

/-- A network packet of stream 100 with count 0, its record as it stands, at a resynchronisation and with nothing sent before. -/
theorem witness_PacketsLeaveAtTheirInstants_network :
    streamOf (readPacket (carrying 100) (slotAddress 3 4)) = 100 ∧ freedBy (carrying 100) 100 = none ∧
    offsetRec (carrying 100) 100 = some ⟨100, some 15, 0, false⟩ ∧
    offsetRec { carrying 100 with splice := { running.splice with offsets := [⟨100, none, 3, true⟩] } } 100 = some ⟨100, none, 3, true⟩ ∧
    4 + 1 < (carrying 100).live.em.packets := by decide +kernel
/-- The resynchronisation of the worked sequence: after 9, the network's 4 leaves as 10 and its 5 as 11. -/
theorem test_resynchronisation :
    let s : State := { carrying 100 with splice := { running.splice with offsets := [⟨100, some 9, 0, true⟩] } }
    let r := rewrite false (packet 100 4) s
    continuityOf r.1 = 10 ∧ offsetRec r.2 100 = some ⟨100, some 10, 6, false⟩ ∧ continuityOf (rewrite false (packet 100 5) r.2).1 = 11 := by
  decide +kernel

theorem witness_PacketsLeaveAtTheirInstants_free : Powered State.reset ∧ State.reset.em.mode ≠ .running ∧ State.reset.em.anchor = none ∧
    State.reset.em.origin + (State.reset.em.freePeriod * State.reset.live.em.period +
      State.reset.em.freePacket * State.reset.live.em.period / State.reset.live.em.packets : Nat) ≤ State.reset.clock.time :=
  ⟨rfl, by decide, rfl, by decide⟩

/-! ## Witnesses: services, clips and plans -/

/-- Sixteen services. -/
def sixteen : State :=
  { State.reset with splice := { services := (List.range 16).map (fun i => ⟨i + 1, [i], true⟩) } }

theorem witness_ServiceTable_define : (0 : BitVec 16) = 0 ∧ Ready spliceStart ∧ (65535 : BitVec 16) ≠ 0 ∧ (1 : Byte).toNat ≤ 1 ∧
    (∀ x ∈ [8190], x ≤ 8190 ∧ x ≠ spliceStart.live.feed.timingStream) ∧ [8190].Nodup ∧
    (∀ v ∈ spliceStart.splice.services, v.number ≠ 65535 → ∀ x ∈ [8190], x ∉ v.streams) ∧ serviceBound spliceStart 65535 = false ∧
    (∀ p ∈ spliceStart.splice.plans, p.service = 65535 → ∀ m ∈ p.map, m.2 ∈ [8190]) ∧ spliceStart.splice.services.length < 16 :=
  ⟨rfl, ⟨rfl, rfl⟩, by decide, by decide, by decide, by decide, by decide, by decide, by decide, by decide⟩
/-- Every reason to refuse a service: the number, the flag, the counts, a stream's value, a shared and a repeated stream. -/
theorem witness_ServiceTable_refused : (0 : BitVec 16) = 0 ∧ 1 < (2 : Byte).toNat ∧ ([] : List (BitVec 16)).map BitVec.toNat = [] ∧
    8 < ((List.replicate 9 (1 : BitVec 16)).map BitVec.toNat).length ∧ 8190 < 8191 ∧ 8180 = spliceStart.live.feed.timingStream ∧
    ¬ [7, 7].Nodup ∧ (∃ v ∈ spliceStart.splice.services, v.number ≠ 22 ∧ 1201 ∈ v.streams) ∧
    (serviceOf spliceStart 21).isSome = true ∧ (∃ p ∈ spliceStart.splice.plans, p.service = 21 ∧ ∃ m ∈ p.map, m.2 ∉ [1201]) := by
  decide +kernel
theorem witness_ServiceTable_bound : Ready inserting ∧ (serviceOf inserting 4).isSome = true ∧ serviceBound inserting 4 = true ∧
    (∀ v ∈ inserting.splice.services, v.number ≠ 4 → ∀ x ∈ [100], x ∉ v.streams) :=
  ⟨⟨rfl, rfl⟩, by decide, by decide, by decide⟩
theorem witness_ServiceTable_noRoom : Ready sixteen ∧ serviceOf sixteen 17 = none ∧ 16 ≤ sixteen.splice.services.length ∧
    (∀ v ∈ sixteen.splice.services, v.number ≠ 17 → ∀ x ∈ [100], x ∉ v.streams) :=
  ⟨⟨rfl, rfl⟩, by decide +kernel, by decide, by decide +kernel⟩
theorem witness_ServiceTable_delete : serviceOf spliceStart 9 = none ∧
    ((serviceOf spliceStart 21).isSome = true ∧ ∃ p ∈ spliceStart.splice.plans, p.service = 21) ∧
    (Ready sixteen ∧ (serviceOf sixteen 16).isSome = true ∧ serviceBound sixteen 16 = false ∧
      ∀ p ∈ sixteen.splice.plans, p.service ≠ 16) :=
  ⟨by decide, ⟨by decide, by decide⟩, ⟨rfl, rfl⟩, by decide +kernel, by decide +kernel, by decide⟩

/-- The largest f × k of one clip frame, and a hole that fits just so. -/
theorem witness_ClipLoading_open : Ready twoClips ∧ (31 : Byte).toNat ≤ 31 ∧ (50 : BitVec 16) ≠ 0 ∧ (200 : BitVec 16).toNat ≤ 4095 ∧
    (200 : BitVec 16).toNat < twoClips.live.em.packets ∧ (clipRec twoClips 31).mode = .empty ∧ firstFit twoClips (50 * 200) = some 40000 ∧
    firstFit twoClips 1085705 = none ∧ firstFit twoClips 1085704 = some 80000 :=
  ⟨⟨rfl, rfl⟩, by decide, by decide, by decide, by decide, by decide, by decide +kernel, by decide +kernel, by decide +kernel⟩

theorem witness_ClipLoading_refused : Ready almostLoaded ∧ 31 < (32 : Byte).toNat ∧ 4095 < (4096 : BitVec 16).toNat ∧
    almostLoaded.live.em.packets ≤ (1604 : BitVec 16).toNat ∧ (1603 : BitVec 16).toNat < almostLoaded.live.em.packets ∧
    (clipRec almostLoaded 0).mode ≠ .empty := ⟨⟨rfl, rfl⟩, by decide, by decide, by decide, by decide, by decide⟩

/-- Its one clip keeps the extents apart. -/
theorem witness_ClipLoading_extents : ClipsOk almostLoaded := by
  have empty : ∀ n, (clipRec almostLoaded n).mode ≠ .empty → n = 0 := by
    rintro (_ | n) h
    · rfl
    · exact absurd (congrArg Clip.mode (show clipRec almostLoaded (n + 1) = {} by
        simp only [clipRec, almostLoaded, List.getD_eq_getElem?_getD, List.getElem?_cons_succ, List.getElem?_replicate]
        split <;> rfl)) h
  refine ⟨rfl, ⟨fun n h => ?_, fun m n d h k => absurd ((empty m h).trans (empty n k).symm) d⟩, .nil,
    fun n h => absurd h List.not_mem_nil⟩
  obtain rfl := empty n h
  decide

theorem witness_ClipLoading_data : ∃ t, Ready almostLoaded ∧ Packet.whole (packet 5 0) = true ∧ hasSync (packet 5 0) = true ∧
    (clipRec almostLoaded 0).mode = .loading ∧ almostLoaded.clips.clips.length = 32 ∧
    exec (.clipData 1 0 [packet 5 0, packet 5 1]) almostLoaded = .next t ∧ (clipRec almostLoaded 0).writePos < (clipRec almostLoaded 0).length :=
  ⟨_, ⟨rfl, rfl⟩, by decide +kernel, by decide, rfl, rfl, rfl, by decide⟩
theorem witness_ClipLoading_seek : Ready almostLoaded ∧ 31 < (32 : Byte).toNat ∧ (clipRec almostLoaded 31).mode ≠ .loading ∧
    (clipRec almostLoaded 0).length ≤ (3 : BitVec 32).toNat ∧ (2 : BitVec 32).toNat < (clipRec almostLoaded 0).length :=
  ⟨⟨rfl, rfl⟩, by decide, by decide, by decide, by decide⟩

/-- One clip in a given state, in the queue where it is VERIFYING; a step of its pass has just ended. -/
def oneClip (c : Clip) : State :=
  { at_ { cycles := 10000 } with
    clips := { clips := c :: List.replicate 31 {}, queue := if c.mode = .verifying then [0] else [] }
    mem := Memory.write [] (clipAddress 0) (packet 8191 0) }

theorem witness_ClipVerification_close : (oneClip {}).clips.clips.length = 32 ∧ (oneClip {}).alarms.records.length = 36 ∧
    31 < (32 : Byte).toNat ∧ Ready (oneClip { mode := .loading, length := 3, highWater := 2 }) ∧
    (clipRec (oneClip { mode := .loading, length := 3, highWater := 2 }) 0).highWater <
      (clipRec (oneClip { mode := .loading, length := 3, highWater := 2 }) 0).length ∧
    (clipRec (oneClip { mode := .loading, length := 3, highWater := 3 }) 0).length ≤
      (clipRec (oneClip { mode := .loading, length := 3, highWater := 3 }) 0).highWater :=
  ⟨rfl, rfl, by decide, ⟨rfl, rfl⟩, by decide, by decide⟩
theorem witness_ClipVerification_delete : (clipRec (oneClip {}) 0).mode = .empty ∧
    ((clipRec (oneClip { mode := .ready, uses := 1 }) 0).mode ≠ .empty ∧ 0 < (clipRec (oneClip { mode := .ready, uses := 1 }) 0).uses) ∧
    ((clipRec (oneClip { mode := .verifying }) 0).mode ≠ .empty ∧ (clipRec (oneClip { mode := .verifying }) 0).uses = 0) :=
  ⟨rfl, ⟨by decide, by decide⟩, by decide, rfl⟩

/-- A clip of one null packet, its expected CRC that of the packet or 0. -/
def verifying (crc : BitVec 32) : State := oneClip { mode := .verifying, length := 1, expected := crc }

theorem witness_ClipVerification_last : Powered (verifying 0) ∧ (verifying 0).clips.queue = 0 :: [] ∧
    (verifying 0).clips.stepStart + 10000 ≤ (verifying 0).clock.cycles ∧
    (clipRec (verifying 0) 0).length ≤ (clipRec (verifying 0) 0).verified + 4096 ∧ (verifying 0).clips.syncFailed = false ∧
    (∀ p ∈ (List.range 1).map (fun i => readPacket (verifying 0) (clipAddress (0 + 0 + i))), hasSync p = true) ∧
    (verifying 0).clips.streamFailed = false ∧
    (∀ p ∈ (List.range 1).map (fun i => readPacket (verifying 0) (clipAddress (0 + 0 + i))),
      streamOf p = 8191 ∨ streamOf p ∈ (clipRec (verifying 0) 0).streams) :=
  ⟨rfl, rfl, by decide, by decide, rfl, by decide +kernel, rfl, by decide +kernel⟩
/-- Either expected CRC is some clip's. -/
theorem witness_ClipVerification_crc : (∃ x : BitVec 32, x = (clipRec (verifying x) 0).expected) ∧
    ∀ x : BitVec 32, x ≠ (clipRec (verifying (x + 1)) 0).expected := by
  refine ⟨⟨0, rfl⟩, fun x h => ?_⟩
  have : x = x + 1 := h
  bv_omega
theorem witness_ClipVerification_middle :
    let s := oneClip { mode := .verifying, length := 4097 }
    Powered s ∧ s.clips.queue = 0 :: [] ∧ s.clips.stepStart + 10000 ≤ s.clock.cycles ∧ (clipRec s 0).verified + 4096 < (clipRec s 0).length :=
  ⟨rfl, rfl, by decide, by decide⟩
theorem witness_ClipVerification_sync : ({ verifying 0 with clips := { (verifying 0).clips with syncFailed := true } } : State).clips.syncFailed =
    true := rfl

/-- A packet of a ninth stream. -/
theorem witness_ClipVerification_streams :
    let s : State := { oneClip { mode := .verifying, length := 1, streams := List.range 8 } with
      mem := Memory.write [] (clipAddress 0) (packet 8190 0) }
    Powered s ∧ s.clips.queue = 0 :: [] ∧ s.clips.stepStart + 10000 ≤ s.clock.cycles ∧ (clipRec s 0).length ≤ (clipRec s 0).verified + 4096 ∧
    s.clips.syncFailed = false ∧ (∀ p ∈ (List.range 1).map (fun i => readPacket s (clipAddress (0 + 0 + i))), hasSync p = true) ∧
    8 ≤ (clipRec s 0).streams.length ∧
    ∃ p ∈ (List.range 1).map (fun i => readPacket s (clipAddress (0 + 0 + i))), streamOf p ≠ 8191 ∧ streamOf p ∉ (clipRec s 0).streams := by
  unfold Powered
  decide +kernel
/-- An eighth stream is none too many. -/
theorem witness_ClipVerification_eighth :
    let s : State := { oneClip { mode := .verifying, length := 1, streams := List.range 7 } with
      mem := Memory.write [] (clipAddress 0) (packet 8190 0) }
    let read := (List.range 1).map (fun i => readPacket s (clipAddress (0 + 0 + i)))
    let streams := read.foldl (fun found p =>
      if streamOf p = 8191 ∨ streamOf p ∈ found ∨ 8 ≤ found.length then found else found ++ [streamOf p]) (clipRec s 0).streams
    streams = List.range 7 ++ [8190] ∧ ¬ ∃ p ∈ read, streamOf p ≠ 8191 ∧ streamOf p ∉ streams := by decide +kernel

/-- The plans of the worked sequence, filled up to 32. -/
def manyPlans : State :=
  { spliceStart with splice := { spliceStart.splice with
      plans := (List.range 32).map (fun i => ⟨.exact (i + 1), 21, 6, [(1101, 1201)], false, false⟩) } }

theorem witness_PlanTable_set : Ready spliceStart ∧ (3001 : BitVec 16) ≠ 0 ∧ (21 : BitVec 16) ≠ 0 ∧ (31 : Byte).toNat ≤ 31 ∧
    (∀ m ∈ [((8190 : BitVec 16), (1201 : BitVec 16))], m.1.toNat ≤ 8190) ∧ serviceOf spliceStart 9 = none ∧
    (∃ v, serviceOf spliceStart 21 = some v ∧ 1201 ∈ v.streams) ∧
    (spliceStart.splice.plans.find? (fun p => p.key = .exact 3001)).isSome = true :=
  ⟨⟨rfl, rfl⟩, by decide, by decide, by decide, by simp, by decide +kernel, ⟨_, rfl, by decide +kernel⟩, by decide +kernel⟩
theorem witness_PlanTable_noRoom : Ready manyPlans ∧ manyPlans.splice.plans.find? (fun p => p.key = .any 21) = none ∧
    32 ≤ manyPlans.splice.plans.length ∧ (∃ v, serviceOf manyPlans 21 = some v ∧ 1201 ∈ v.streams) :=
  ⟨⟨rfl, rfl⟩, by decide +kernel, by decide, _, rfl, by decide⟩
/-- Every reason to refuse a plan: its key, its fields, a clip stream, a repeat and a target outside the service. -/
theorem witness_PlanTable_refused : 1 < (2 : Byte).toNat ∧ (0 : BitVec 16) = 0 ∧ 31 < (32 : Byte).toNat ∧
    8 < (List.replicate 9 ((1 : BitVec 16), (2 : BitVec 16))).length ∧ 8190 < (8191 : BitVec 16).toNat ∧
    ¬ ([((1 : BitVec 16), (2 : BitVec 16)), (1, 3)].map Prod.fst).Nodup ∧ ¬ ([((1 : BitVec 16), (2 : BitVec 16)), (3, 2)].map Prod.snd).Nodup ∧
    (serviceOf spliceStart 21).any (fun v => !v.streams.contains 1301) = true := by decide +kernel
theorem witness_PlanTable_delete : spliceStart.splice.plans.find? (fun p => p.key = .exact 65535) = none ∧
    (spliceStart.splice.plans.find? (fun p => p.key = .any 22)).isSome = true ∧ 1 < (2 : Byte).toNat := by decide

/-! ## Witnesses: Splicing -/

theorem witness_CueOutcomes_refused : Ready State.reset ∧ (4 : Byte).toNat > 3 ∧ State.reset.em.mode ≠ .running ∧
    (1 : BitVec 16) ≠ 0 ∧ (3 : Byte).toNat ≤ 3 := ⟨⟨rfl, rfl⟩, by decide, by decide, by decide, by decide⟩

/-- Distances 1 and 2 with an arming lead of 2. -/
theorem witness_CueOutcomes_out : ∃ v p, Ready spliceStart ∧ spliceStart.em.mode = .running ∧ spliceStart.store.base = some 9096 ∧
    cueOf spliceStart 3001 = none ∧ Seq.distance 9096 9097 < spliceStart.live.armingLead ∧ spliceStart.alarms.records.length = 36 ∧
    (spliceStart.live.armingLead : Int) ≤ Seq.distance 9096 9098 ∧ serviceOf spliceStart 21 = some v ∧ v.eligible = true ∧
    spliceStart.splice.cues.length < 16 ∧ planFor spliceStart 3001 21 = some p ∧ serviceBound spliceStart 21 = false ∧
    idleChannel spliceStart = some .n1 ∧ (clipRec spliceStart p.clip).mode = .ready ∧
    (clipRec spliceStart p.clip).perFrame < spliceStart.live.em.packets :=
  ⟨_, _, ⟨rfl, rfl⟩, rfl, rfl, rfl, by decide, rfl, by decide, rfl, rfl, by decide, rfl, by decide, by decide, by decide, by decide⟩

/-- x is the sequence after the last started one, 3, and before the end, 30. -/
theorem witness_CueOutcomes_in : ∃ e c, Ready inserting ∧ inserting.em.mode = .running ∧ inserting.store.base = some 3 ∧
    cueOf inserting 9 = some e ∧ e.mode = .active ∧ inserting.splice.lastStarted = some 3 ∧ 1 ≤ ((4 : Seq) - 3).toNat ∧
    ((4 : Seq) - 3).toNat < (e.ending - 3).toNat ∧ e.channel = some .n2 ∧ inserting.splice.channels.get .n2 = some c :=
  ⟨_, _, ⟨rfl, rfl⟩, rfl, rfl, rfl, rfl, rfl, by decide, by decide, rfl, rfl⟩

/-- OUT 3,200 of the bound service 21 waits. -/
def waiting : State := { after (.cue 1 ⟨1, 3200, 21, 9105, 4⟩) oneArmed with link := State.reset.link }

theorem witness_CueOutcomes_cancel : Ready waiting ∧ waiting.em.mode = .running ∧ waiting.store.base = some 9096 ∧
    (cueOf waiting 3200).map (fun e => (e.mode, e.channel)) = some (.waiting, none) :=
  ⟨⟨by decide +kernel, by decide +kernel⟩, by decide +kernel, by decide +kernel, by decide +kernel⟩

/-- OUT 3,001 with an entry: the same content, and another content inside the arming lead; then an ACTIVE and a WAITING avail. -/
theorem witness_CueOutcomes_again : oneArmed.em.mode = .running ∧ oneArmed.store.base = some 9096 ∧ oneArmed.alarms.records.length = 36 ∧
    (cueOf oneArmed 3001).map (fun e => (e.mode, e.channel, e.service, e.start, e.duration)) = some (.armed, some .n1, 21, 9100, 10) ∧
    (oneArmed.splice.channels.get .n1).map Channel.avail = some 3001 ∧
    (∀ x ∈ oneArmed.splice.cues.filter (fun x => x.avail ≠ 3001), x.mode ≠ .waiting) ∧
    Seq.distance 9096 9097 < oneArmed.live.armingLead ∧ (inserting.splice.cues.map CueEntry.mode) = [.active] ∧
    (cueOf waiting 3200).map CueEntry.channel = some none := by decide +kernel

/-- The same state with sixteen entries in the table. -/
def fullTable (s : State) : State :=
  let e : CueEntry := { avail := 5, service := 21, start := 9100, duration := 5, ending := 9105, source := .host, carrying := 9096,
                        mode := .unfilled, channel := none, order := 1 }
  { s with splice := { s.splice with cues := List.replicate 16 e } }

/-- OUT cues at distance 2 that R113 turns away or does not arm: an unknown service, a full table, no plan, a bound service and a clip
that is not READY. -/
theorem witness_CueOutcomes_placed :
    (spliceStart.live.armingLead : Int) ≤ Seq.distance 9096 9098 ∧ serviceOf spliceStart 23 = none ∧ cueOf spliceStart 3001 = none ∧
    16 ≤ (fullTable spliceStart).splice.cues.length ∧ cueOf (fullTable spliceStart) 3001 = none ∧
    planFor { spliceStart with splice := { spliceStart.splice with plans := [] } } 3001 21 = none ∧
    serviceBound oneArmed 21 = true ∧ cueOf oneArmed 3200 = none ∧ (planFor oneArmed 3200 21).isSome = true ∧
    (planFor spliceStart 3001 21).map Plan.clip = some 6 ∧
    (clipRec { spliceStart with clips := {} } 6).mode ≠ .ready := by decide +kernel

/-- Avail 3,001 UNFILLED, so that a repeat at distance 1 is a repeat and one at distance 2 is judged again. -/
def unfilled : State :=
  { spliceStart with splice := { spliceStart.splice with
      cues := [{ avail := 3001, service := 21, start := 9100, duration := 10, ending := 9110, source := .network, carrying := 9096,
                 mode := .unfilled, channel := none, order := 1 }] } }

theorem witness_CueOutcomes_judgedAgain : (cueOf unfilled 3001).map (fun e => (e.mode, e.service, e.start, e.duration)) =
      some (.unfilled, 21, 9100, 10) ∧
    Seq.distance 9099 9100 < unfilled.live.armingLead ∧ (unfilled.live.armingLead : Int) ≤ Seq.distance 9098 9100 ∧
    ((serviceOf unfilled 21).map Service.eligible) = some true ∧ (planFor unfilled 3001 21).map Plan.clip = some 6 ∧
    serviceBound unfilled 21 = false ∧ idleChannel unfilled = some .n1 ∧ (clipRec unfilled 6).mode = .ready ∧
    (clipRec unfilled 6).perFrame < unfilled.live.em.packets := by decide +kernel

/-- IN at the last started sequence and at the end; CANCEL of an ACTIVE avail, of none, and of an ARMED one. -/
theorem witness_CueOutcomes_ignored : inserting.splice.lastStarted = some 3 ∧ ((3 : Seq) - 3).toNat = 0 ∧
    (cueOf inserting 9).map (fun e => (e.mode, e.ending)) = some (.active, 30) ∧ ((30 : Seq) - 3).toNat ≤ ((30 : Seq) - 3).toNat ∧
    cueOf inserting 10 = none ∧
    (cueOf oneArmed 3001).map (fun e => (e.mode, e.channel)) = some (.armed, some .n1) ∧
    (oneArmed.splice.channels.get .n1).map Channel.avail = some 3001 := by decide +kernel

theorem witness_AbortSpliceOfEachChannel : Ready inserting ∧ inserting.splice.channels.get .n1 = none ∧
    (inserting.splice.channels.get .n2).map Channel.active = some true ∧ Ready oneArmed ∧
    (oneArmed.splice.channels.get .n1).map (fun c => (c.active, c.avail)) = some (false, 3001) ∧
    (∀ e ∈ oneArmed.splice.cues, e.mode = .waiting → e.avail = 3001) ∧ (0 : Byte).toNat = 0 ∧ 4 < (5 : Byte).toNat :=
  ⟨⟨rfl, rfl⟩, rfl, rfl, ⟨by decide +kernel, by decide +kernel⟩, by decide +kernel, by decide +kernel, rfl, by decide⟩

/-- One entry of sequence 4 in this mode, bound or not, and its channel 1 where it is bound. -/
def starting (mode : CueMode) (bound : Bool) : State :=
  { running with splice := { running.splice with
      cues := [{ avail := 9, service := 4, start := 4, duration := 5, ending := 9, source := .host, carrying := 0, mode := mode,
                 channel := if bound then some .n1 else none, order := 0 }]
      channels := ⟨if bound then
        some { active := false, avail := 9, service := 4, start := 4, ending := 9, clip := 0, perFrame := 2, length := 1, map := [],
               harvest := false, early := false } else none, none, none, none⟩ } }

theorem witness_AbortSpliceOfEachChannel_frameStart : (∀ n c, (starting .armed true).splice.channels.get n = some c → c.active = false) ∧
    (starting .armed true).splice.cues.map (fun e => (e.start, e.mode, e.channel)) = [((4 : Seq), .armed, some .n1)] ∧
    (∀ n c, (starting .waiting false).splice.channels.get n = some c → c.active = false) ∧
    (starting .waiting false).splice.cues.map (fun e => (e.start, e.mode)) = [((4 : Seq), .waiting)] ∧
    (starting .unfilled false).splice.cues.map (fun e => (e.start, e.mode)) = [((4 : Seq), .unfilled)] :=
  ⟨by intro n c h; cases n <;> cases h; rfl, rfl, none_active rfl, rfl, rfl⟩

/-- Channel 2 alone is ACTIVE, with its avail the one entry: at its end, with a return pending, with the largest backlog that stays
and with one more. -/
def ending (ending : Seq) (pending : PendingReturn) (due : Nat) : State :=
  { inserting with splice := { inserting.splice with
      channels := inserting.splice.channels.map (·.map (fun c => { c with ending := ending, pending := pending, due := due })) } }

theorem witness_AbortSpliceOfEachChannel_return :
    (∀ s ∈ [ending 4 .none 64, ending 30 .early 64, ending 30 .aborted 64, ending 30 .none 65],
      (s.splice.channels.get .n2).map (fun c => (c.active, c.avail)) = some (true, 9) ∧ s.splice.channels.get .n1 = none ∧
      s.splice.channels.get .n3 = none ∧ s.splice.channels.get .n4 = none ∧ ∀ e ∈ s.splice.cues, e.avail = 9) ∧
    ((ending 4 .none 64).splice.channels.get .n2).map (fun c => (c.ending, c.pending, c.due)) = some ((4 : Seq), .none, 64) ∧
    ((ending 30 .none 65).splice.channels.get .n2).map Channel.due = some 65 := by decide +kernel

/-- Channel 1 is IDLE and OUT 9 waits, with a plan of its service. -/
def contended : State :=
  { starting .waiting false with
    clips := { clips := { mode := .ready, length := 10, perFrame := 2 } :: List.replicate 31 {} }
    splice := { (starting .waiting false).splice with plans := [⟨.any 4, 4, 0, [(55, 100)], false, false⟩] } }

theorem witness_AbortSpliceOfEachChannel_arbitration : ∃ e v p, contended.splice.channels.get .n1 = none ∧ candidate contended = some e ∧
    serviceOf contended e.service = some v ∧ v.eligible = true ∧ planFor contended e.avail e.service = some p ∧
    (clipRec contended p.clip).mode = .ready ∧ (clipRec contended p.clip).perFrame < contended.live.em.packets :=
  ⟨_, _, _, rfl, rfl, rfl, rfl, rfl, rfl, by decide⟩

/-- The start of a held frame without directives. -/
theorem witness_AbortSpliceOfEachChannel_departure : ∃ h, (let s : State := { running with em := { running.em with runPacket := 0 } }
    Powered s ∧ s.em.anchor = some ⟨2, 5000000, 1, 2⟩ ∧ s.em.mode = .running ∧ s.em.runPacket = 0 ∧ s.em.runFrame < 2 ∧
    (5000000 : Int) + (s.em.runFrame * s.live.em.period : Nat) ≤ s.clock.time ∧
    s.store.slots[((2 : Seq) + BitVec.ofNat 16 s.em.runFrame).toNat % 64]? = some (.taken (2 + BitVec.ofNat 16 s.em.runFrame) (some h)) ∧
    h.directives = []) := ⟨_, rfl, rfl, rfl, rfl, by decide, by decide, rfl, rfl⟩

/-! ## Witnesses: the Drive Controller and the Alarm Unit -/

theorem witness_RfSettings : Ready driveStart ∧ LevelOk driveStart := witness_HostMuteAndOffset

/-- The trip latched at 800, the figure less its hysteresis, and one below it. -/
def tripped (sample : Nat) : State :=
  { State.reset with drive := { mode := .tripped, shutLatch := true, reflLatch := true, retries := 3, temperature := sample } }

theorem witness_ClearTripsReleases : Ready (tripped 1200) ∧ LevelOk (tripped 1200) ∧
    ((tripped 1200).drive.mode = .tripped ∧ (tripped 1200).drive.shutLatch = true ∧
      ¬ (((tripped 1200).drive.temperature : Int) - 400 < (tripped 1200).live.drive.tempShut - (tripped 1200).live.drive.tempHyst)) ∧
    ((tripped 1199).drive.temperature : Int) - 400 < (tripped 1199).live.drive.tempShut - (tripped 1199).live.drive.tempHyst :=
  ⟨⟨rfl, rfl⟩, ⟨rfl, by decide, by decide, by decide, by decide⟩, ⟨rfl, rfl, by decide⟩, by decide⟩

theorem witness_MonitoringSampleJudged_due : Powered driveStart ∧ driveStart.alarms.records.length = 36 ∧
    (driveStart.drive.samplesTaken + 1) * 100000 ≤ driveStart.clock.cycles ∧
    (at_ { cycles := 99999 }).clock.cycles < ((at_ { cycles := 99999 }).drive.samplesTaken + 1) * 100000 := ⟨rfl, rfl, by decide, by decide⟩
theorem witness_MonitoringSampleJudged_shutdown : ((driveStart.live.drive.tempShut : Nat) : Int) ≤ min 4095 1250 - 400 ∧
    driveStart.drive.shutLatch = false ∧ LevelOk driveStart := ⟨by decide, rfl, witness_HostMuteAndOffset.2⟩
theorem witness_MonitoringSampleJudged_trip : Powered tripStart ∧ (min 4095 1249 - 400 : Int) < tripStart.live.drive.tempShut ∧
    (tripStart.drive.mode = .ramping ∨ tripStart.drive.mode = .steady) ∧ tripStart.live.drive.reflTrip ≤ min 4095 1200 ∧
    tripStart.live.drive.reflFilter ≤ min 15 (tripStart.drive.reflRun + 1) ∧ tripStart.drive.retries < tripStart.live.drive.retryLimit ∧
    (tripStart.drive.samplesTaken + 1) * 100000 ≤ tripStart.clock.cycles :=
  ⟨rfl, by decide, .inr rfl, by decide, by decide, by decide, by decide⟩
/-- The same trip with the retry counter at the limit. -/
theorem witness_MonitoringSampleJudged_limit :
    let s : State := { tripStart with drive := { tripStart.drive with retries := tripStart.live.drive.retryLimit } }
    s.live.drive.retryLimit ≤ s.drive.retries ∧ (after (.monitoringSample tripSample) s).drive.mode = .tripped ∧
    (after (.monitoringSample tripSample) s).drive.reflLatch = true := by decide +kernel

/-- From UNJUDGED with the run of low output at 499: a low supply, the warning temperature, module 1 over its threshold for the third
time and module 4 under the other for the third, and no forward power. -/
def strained : State :=
  { driveStart with drive := { driveStart.drive with
      supply := .unjudged, lowRun := 499, modules := ⟨{ overRun := 2 }, {}, {}, { opened := 2 }⟩ } }

theorem witness_MonitoringSampleJudged_conditions :
    let t := after (.monitoringSample ⟨0, 0, 1150, 3200, ⟨3601, 300, 3000, 199⟩⟩) strained
    Powered strained ∧ (strained.drive.samplesTaken + 1) * 100000 ≤ strained.clock.cycles ∧ strained.drive.warn = false ∧
    (strained.live.drive.tempWarn : Int) ≤ min 4095 1150 - 400 ∧ (min 4095 1150 - 400 : Int) < strained.live.drive.tempShut ∧
    1 ≤ strained.live.drive.installed ∧ (strained.drive.modules.get .n1).latchedOff = false ∧
    strained.live.drive.moduleFilter ≤ min 15 ((strained.drive.modules.get .n1).overRun + 1) ∧ 410 ≤ strained.drive.level ∧
    strained.live.drive.moduleFilter = min ((strained.drive.modules.get .n4).opened + 1) strained.live.drive.moduleFilter ∧
    strained.drive.mode = .steady ∧ t.drive.mode = .steady ∧ 0 * 1000 < t.drive.level * (1000 - strained.live.drive.lowTol) := by
  unfold Powered
  decide +kernel
theorem witness_MonitoringSampleJudged_supply : (min 4095 2899 : Nat) < strained.live.drive.supplyLow ∧
    strained.live.drive.supplyHigh < min 4095 3501 ∧ driveStart.drive.supply ≠ .low ∧ driveStart.drive.supply ≠ .high ∧
    ({ driveStart.drive with warn := true }).warn = true := by decide

theorem witness_RampRetryAndSteady :
    (∃ s : State, Powered s ∧ (s.drive.rampTicks + 1) * 10000 ≤ s.clock.cycles ∧ s.drive.mode = .ramping) ∧
    (∃ s : State, Powered s ∧ (s.drive.rampTicks + 1) * 10000 ≤ s.clock.cycles ∧ s.drive.mode ≠ .ramping) ∧
    (∃ s : State, Powered s ∧ s.drive.mode = .retryWait ∧ s.drive.retryEnd = some 1000 ∧ 1000 ≤ s.clock.time ∧ LevelOk s) ∧
    (∃ s : State, Powered s ∧ s.drive.mode = .steady ∧ s.drive.steadySince = some 0 ∧ (0 : Int) + 600000000 ≤ s.clock.time) :=
  ⟨⟨{ at_ { cycles := 10000 } with drive := { mode := .ramping } }, rfl, by decide, rfl⟩, ⟨at_ { cycles := 10000 }, rfl, by decide, by decide⟩,
    ⟨{ at_ { time := 1000 } with drive := { mode := .retryWait, retryEnd := some 1000 } }, rfl, rfl, rfl, by decide, rfl, by decide, by decide,
      by decide, by decide⟩,
    { at_ { time := 600000000 } with drive := { mode := .steady, steadySince := some 0 } }, rfl, rfl, rfl, by decide⟩
/-- A tick that reaches the ceiling, with every other condition of the drive. -/
theorem witness_RampRetryAndSteady_permitted :
    let s : State := { driveStart with drive := { driveStart.drive with mode := .ramping, level := 3070, line := 3070 } }
    (s.drive.rampTicks + 1) * 10000 ≤ s.clock.cycles ∧ s.drive.mode = .ramping ∧ permission s = true ∧ s.drive.rfEnabled = true ∧
    s.drive.supply = .inside ∧ s.drive.reflLatch = false ∧ s.drive.shutLatch = false ∧ (after .rampTick s).drive.mode = .steady := by
  decide +kernel

theorem witness_AlarmClearKeepsTheRest : Ready alarmStart ∧ 68719476736 ≤ (0x1000000000 : BitVec 40).toNat ∧
    2147483648 ≤ (alarmStart.alarms.epoch - (43 : BitVec 32)).toNat ∧ (0xFFFFFFFFF : BitVec 40).toNat < 68719476736 ∧
    (alarmStart.alarms.epoch - (41 : BitVec 32)).toNat + 36 < 2147483648 ∧ alarmStart.alarms.records.length = 36 ∧ EpochsOk alarmStart :=
  ⟨⟨rfl, rfl⟩, by decide, by decide, by decide, by decide, rfl, by unfold EpochsOk; decide +kernel⟩

end Sys2Proof.Tests
end

section
/-! PROOF of O27, MODULE STATUS (R154): the module that a number names, what the owner answers, and the reply that carries it. -/

namespace Sys2Proof
open Sys2Proof.Machine

/-! ## The numbers 1 to 4 and their byte -/

/-- A number names the item that has it. -/
@[simp] theorem Four.ofNum_num (n : Four) : Four.ofNum n.num = some n := by cases n <;> rfl

/-- No other number names an item. -/
theorem Four.ofNum_eq_none : ∀ {k : Nat}, k = 0 ∨ 4 < k → Four.ofNum k = none
  | 0, _ => rfl
  | 1, h | 2, h | 3, h | 4, h => by omega
  | _ + 5, _ => rfl

/-- The number of an item fits a byte. -/
theorem Four.toNat_ofNat_num (n : Four) : (BitVec.ofNat 8 n.num).toNat = n.num := by cases n <;> rfl

end Sys2Proof

namespace Sys2Proof.Machine
open Sys2Proof

/-! ## Requests that change nothing -/

/-- A report at a ready part: the reply is OK with the body, and the owner leaves every block as it was. -/
theorem request_report {s : State} {op : State → Answer} {body : List Byte} (kind tag : Byte) (bytes : List Byte) (hs : Ready s)
    (hop : op (s.setEv {}) = ok (s.setEv {}) body) :
    ∃ t, request kind tag bytes op s = .next t ∧ Replied t kind tag .ok body ∧ AfterRequest [] s t := by
  simpa using afterRequest_intro kind tag bytes hs hop rfl (.inr rfl)

/-- A request turned down at a ready part: the reply is the result alone (R172), and every block is left as it was. -/
theorem request_turnedDown {s : State} {op : State → Answer} {r : Result} (kind tag : Byte) (bytes : List Byte) (hs : Ready s)
    (hop : op (s.setEv {}) = turnDown (s.setEv {}) r) :
    ∃ t, request kind tag bytes op s = .next t ∧ Replied t kind tag r [] ∧ AfterRequest [] s t := by
  simpa using afterRequest_intro kind tag bytes hs hop rfl (.inr rfl)

/-! ## MODULE STATUS -/

theorem exec_moduleStatus (tag n : Byte) (s : State) :
    exec (.moduleStatus tag n) s = request 0x4D tag [n] (reqModuleStatus n) s := rfl

/-- A number of a module is answered with the module's body. -/
theorem reqModuleStatus_num (n : Four) (s : State) :
    reqModuleStatus (BitVec.ofNat 8 n.num) s = ok s (moduleBody s n) := by
  simp only [reqModuleStatus, Four.toNat_ofNat_num, Four.ofNum_num]

/-- Any other number is a bad parameter. -/
theorem reqModuleStatus_unnamed {n : Byte} (h : n.toNat = 0 ∨ 4 < n.toNat) (s : State) :
    reqModuleStatus n s = turnDown s .badParameter := by
  simp [reqModuleStatus, Four.ofNum_eq_none h]

/-- What has been reported so far does not bear on a module's body. -/
@[simp] theorem moduleBody_setEv (s : State) (e : Report) (n : Four) : moduleBody (s.setEv e) n = moduleBody s n := rfl

/-- A yes-or-no field is its one byte. -/
theorem flagByte_eq (b : Bool) : flagByte b = [if b then 1 else 0] := by cases b <;> rfl

/-- The body of an installed module (R154). -/
theorem moduleBody_installed {s : State} {n : Four} (h : n.num ≤ s.live.drive.installed) :
    let m := s.drive.modules.get n
    moduleBody s n =
      [1, if m.latchedOff then 1 else 0, if m.enable then 1 else 0] ++ be 1 m.overRun ++ be 1 m.opened ++ be 2 m.current := by
  have hone : be 1 1 = [1] := rfl
  simp [moduleBody, moduleInstalled, h, flagByte_eq, hone]

/-- The body of a module that is not installed: its latest sample, and 0 in every other field (R154). -/
theorem moduleBody_absent {s : State} {n : Four} (h : ¬ n.num ≤ s.live.drive.installed) :
    moduleBody s n = [0, 0, 0, 0, 0] ++ be 2 (s.drive.modules.get n).current := by
  simp [moduleBody, moduleInstalled, h]

/-- Settles O27: a number 1 to 4 names a module, whose body is read off as it is installed or not; any other number names none. -/
theorem moduleStatusBody : Obligations.ModuleStatusBody := by
  intro s tag hs
  refine ⟨fun n => ?_, fun n hn => ?_⟩
  · obtain ⟨t, hstep, hreply, hafter⟩ := request_report 0x4D tag [BitVec.ofNat 8 n.num] hs (reqModuleStatus_num n (s.setEv {}))
    refine ⟨t, (exec_moduleStatus ..).trans hstep, hafter, ?_⟩
    rw [moduleBody_setEv] at hreply
    split
    case isTrue h => rwa [← moduleBody_installed h]
    case isFalse h => rwa [← moduleBody_absent h]
  · rw [exec_moduleStatus]
    exact request_turnedDown 0x4D tag [n] hs (reqModuleStatus_unnamed hn (s.setEv {}))

end Sys2Proof.Machine
end

section
/-! PROOF of O20, the start flag and ACK START (R176): what a start leaves in the link, where a reply frame carries the flag, and the
reply to ACK START. -/

namespace Sys2Proof.Machine
open Sys2Proof

/-! ## The flag at a start -/

/-- The load of the settings can only report SETTINGS LOST. -/
theorem startLost_only (s : State) : OnlyDrive s (startLost s) := by
  unfold startLost
  split
  · exact occur_drive _ _
  · exact OnlyDrive.refl _

/-- AUTO START is an entry to ANCHORING or nothing. -/
theorem autoStart_only (s : State) : OnlyEmission s (autoStart s) := by
  unfold autoStart
  split
  · exact enterAnchoring_only _ _
  · exact OnlyEmission.refl _

/-- After a start the link has its start values (R182): neither the ceiling, nor SETTINGS LOST, nor AUTO START touches it. -/
@[simp] theorem startState_link (cause : StartCause) (s : State) :
    (startState cause s).link = startLink cause s.link.stored :=
  congrArg State.link ((startLost_only _).emission.trans (autoStart_only _))

theorem exec_powerOn (s : State) :
    exec .powerOn s = .next (transmit (closeEvent (startState .powerOn (losePower s)))) := rfl

theorem exec_restartStart (s : State) : exec .restartStart s = event restartEffect s := rfl

/-- A restart that is due is a start (R177). -/
theorem restartEffect_due {s : State} (h : s.link.restart = .due) : restartEffect s = startState .restart s := if_pos h

/-! ## The flag in a reply -/

/-- The first flag is the lowest bit. -/
theorem flagBits_cons (b : Bool) (flags : List Bool) : flagBits (b :: flags) = Nat.bit b (flagBits flags) := by
  cases b <;> simp [flagBits, Nat.bit, Nat.add_comm]

/-- Bit i is flag i, and the bits beyond the last flag are clear. -/
theorem testBit_flagBits (flags : List Bool) (i : Nat) : (flagBits flags).testBit i = flags.getD i false := by
  induction flags generalizing i with
  | nil => simp [flagBits]
  | cons b rest ih =>
    rw [flagBits_cons]
    cases i with
    | zero => exact Nat.testBit_bit_zero _ _
    | succ i => exact (Nat.testBit_bit_succ _ _ _).trans (ih i)

/-- The start flag is bit 1 of the summary's first byte (R173). -/
theorem statusSummary_startFlag (s : State) : ((statusSummary s).getD 0 0).getLsbD 1 = s.link.startFlag := by
  change (BitVec.ofNat 8 (flagBits _)).getLsbD 1 = _
  rw [BitVec.getLsbD_ofNat, testBit_flagBits]
  rfl

/-- The body of a frame begins after the start byte, the length, the kind and the tag. -/
theorem linkFrame_getD_body {body : List Byte} {i : Nat} (h : i < body.length) (kind tag : Byte) :
    (linkFrame kind tag body).getD (i + 5) 0 = body.getD i 0 := by
  simp [linkFrame, be, List.getElem?_append_left h]

/-- The summary of a reply follows the result code (R172, R185). -/
theorem replyFrame_getD_summary {i : Nat} (h : i < 4) (s : State) (kind tag : Byte) (r : Result) (body : List Byte) :
    (replyFrame s kind tag r body).getD (i + 6) 0 = (statusSummary s).getD i 0 := by
  have hsummary : i < (statusSummary s).length := h
  have hbody (owner : List Byte) : i + 1 < (be 1 (resultCode r) ++ statusSummary s ++ owner).length := by
    simp only [List.length_append, Laws.BodyFits.be_length, statusSummary_length]
    omega
  unfold replyFrame
  rw [linkFrame_getD_body (hbody _)]
  simp [be, List.getElem?_append_left hsummary]

/-! ## ACK START -/

/-- The reply to a request at a ready part carries the summary as the owner left the part. -/
theorem request_reply {s t : State} {kind tag : Byte} {bytes : List Byte} {op : State → Answer} (hs : Ready s)
    (h : request kind tag bytes op s = .next t) :
    let a := op (s.setEv {})
    t.link.reply = some (replyFrame (closeEvent a.state) kind tag a.result a.body) := by
  rw [request_ready hs] at h
  simp [← Host.Outcome.next.inj h]

theorem exec_ackStart (tag : Byte) (s : State) : exec (.ackStart tag) s = request 0x03 tag [] reqAckStart s := rfl

/-- ACK START clears the flag, and its summary is formed after that (R176). -/
theorem ackStart_clears {s : State} (tag : Byte) (hs : Ready s) :
    ∃ t summary, exec (.ackStart tag) s = .next t ∧ summary.length = 4 ∧ (summary.getD 0 0).getLsbD 1 = false ∧
      t.link.reply = some (linkFrame 0x83 tag ([0] ++ summary)) ∧
      AfterRequest [] { s with link := { s.link with startFlag := false } } t := by
  obtain ⟨t, hstep, -, hafter⟩ :=
    afterRequest_intro (u := s.setLink { s.link with startFlag := false }) 0x03 tag [] hs
      (show reqAckStart (s.setEv {}) = _ from rfl) rfl (.inr rfl)
  refine ⟨t, statusSummary (closeEvent (reqAckStart (s.setEv {})).state), (exec_ackStart ..).trans hstep,
    statusSummary_length _, ?_, ?_, hafter⟩
  · rw [statusSummary_startFlag, closeEvent_link]
    rfl
  · simpa [replyFrame, reqAckStart, ok, resultCode, be] using request_reply hs hstep

/-- Settles O20: both starts give the link its start values, whose flag is set; a reply's seventh byte is the summary's first. -/
theorem startFlagAndAckStart : Obligations.StartFlagAndAckStart := by
  refine ⟨fun s t h => ?powerOn, fun s t hp hdue h => ?restart, fun s kind tag r body => ?carried,
    fun s tag hs => ackStart_clears tag hs⟩
  case powerOn =>
    rw [exec_powerOn] at h
    simp [← Host.Outcome.next.inj h, startLink]
  case restart =>
    rw [exec_restartStart, event_next restartEffect hp, restartEffect_due (s := s.setEv {}) hdue] at h
    simp [← Host.Outcome.next.inj h, startLink]
  case carried => rw [replyFrame_getD_summary (i := 0) (by decide), statusSummary_startFlag]

end Sys2Proof.Machine
end

section
/-! PROOF, the invariants that every step keeps (O6 to O13): `Keeps s t` bundles them, each block's update has one rule that says
what it must bring for its invariant, and the lemmas below are about the drive, the Site Clock and the Alarm Unit. -/

namespace Sys2Proof.Machine
open Sys2Proof

/-- Each invariant but the cue table's that holds of `s` holds of `t`. The level stands for the drive's invariant, which the judging of
permission at the end of a command completes; the lines are judged there too. -/
structure KeepsRest (s t : State) : Prop where
  memory : MemoryOk s → MemoryOk t
  clock : TimeOk s ∧ ClockOk s → TimeOk t ∧ ClockOk t
  level : LevelOk s → LevelOk t
  epochs : EpochsOk s → EpochsOk t
  sizes : SizesOk s → SizesOk t
  slots : SlotsOk s → SlotsOk t
  clips : ClipsOk s ∧ UseOk s → ClipsOk t ∧ UseOk t

/-- Each invariant that holds of `s` holds of `t`. -/
structure Keeps (s t : State) : Prop extends KeepsRest s t where
  cues : CuesOk s → CuesOk t

theorem KeepsRest.refl (s : State) : KeepsRest s s := ⟨id, id, id, id, id, id, id⟩

theorem Keeps.refl (s : State) : Keeps s s := ⟨.refl s, id⟩

theorem KeepsRest.trans {s t u : State} (h : KeepsRest s t) (k : KeepsRest t u) : KeepsRest s u :=
  ⟨k.memory ∘ h.memory, k.clock ∘ h.clock, k.level ∘ h.level, k.epochs ∘ h.epochs, k.sizes ∘ h.sizes, k.slots ∘ h.slots,
    k.clips ∘ h.clips⟩

theorem Keeps.trans {s t u : State} (h : Keeps s t) (k : Keeps t u) : Keeps s u := ⟨h.toKeepsRest.trans k.toKeepsRest, k.cues ∘ h.cues⟩

/-- A fold of steps that each keep the invariants keeps them. -/
theorem Keeps.fold {α : Type} {f : State → α → State} (h : ∀ s x, Keeps s (f s x)) (xs : List α) (s : State) :
    Keeps s (xs.foldl f s) :=
  fold_frame Keeps.refl Keeps.trans h xs s

/-! ## The update of one block -/

theorem keeps_setEv (s : State) (x : Report) : Keeps s (s.setEv x) := ⟨⟨id, id, id, id, id, id, id⟩, id⟩

theorem keeps_setEm (s : State) (x : EmissionState) : Keeps s (s.setEm x) := ⟨⟨id, id, id, id, id, id, id⟩, id⟩

theorem keeps_setFeed (s : State) (x : FeedState) : Keeps s (s.setFeed x) := ⟨⟨id, id, id, id, id, id, id⟩, id⟩

theorem keeps_setLive (s : State) (x : Params) : Keeps s (s.setLive x) := ⟨⟨id, id, id, id, id, id, id⟩, id⟩

theorem keeps_setMem {s : State} {x : Memory} (h : MemoryOk s → Memory.wf x = true) : Keeps s (s.setMem x) :=
  ⟨⟨h, id, id, id, id, id, id⟩, id⟩

/-- Site time, the clock state, u and the governing input bear on the clock's invariant; nothing else of the Site Clock does. -/
theorem keeps_clock {s t : State} (h : OnlyClock s t) (hc : TimeOk s ∧ ClockOk s → TimeOk t ∧ ClockOk t) : Keeps s t := by
  rw [show t = _ from h] at hc ⊢
  exact ⟨⟨id, hc, id, id, id, id, id⟩, id⟩

theorem keeps_drive {s t : State} (h : OnlyDrive s t) (hl : LevelOk s → LevelOk t) : Keeps s t := by
  rw [show t = _ from h] at hl ⊢
  exact ⟨⟨id, id, hl, id, id, id, id⟩, id⟩

/-- The parts of the link that its invariant speaks of. -/
theorem keeps_setLink {s : State} {x : LinkState} (hq : SizesOk s → x.queue.length ≤ 4)
    (hc : SizesOk s → ContentsOk x.held ∧ (∀ c ∈ x.stored, ContentsOk c) ∧ (∀ c ∈ x.busy, ContentsOk c)) :
    Keeps s (s.setLink x) := by
  refine ⟨⟨id, id, id, id, fun h => ?_, id, id⟩, id⟩
  obtain ⟨-, hn, hcues, ht, hs, hclips, hr, -⟩ := id h
  exact ⟨hq h, hn, hcues, ht, hs, hclips, hr, hc h⟩

/-- A link update that leaves the queue and the contents as they are. -/
theorem keeps_setLink_same {s : State} {x : LinkState}
    (h : (x.queue, x.held, x.stored, x.busy) = (s.link.queue, s.link.held, s.link.stored, s.link.busy)) : Keeps s (s.setLink x) := by
  simp only [Prod.mk.injEq] at h
  obtain ⟨hq, hh, hs, hb⟩ := h
  exact keeps_setLink (fun h => by rw [hq]; exact h.1) (fun h => by rw [hh, hs, hb]; exact h.2.2.2.2.2.2.2)

theorem keeps_setStore {s : State} {x : StoreState} (hl : s.store.slots.length = 64 → x.slots.length = 64)
    (hs : SlotsOk s → SlotsOk (s.setStore x)) : Keeps s (s.setStore x) := by
  refine ⟨⟨id, id, id, id, fun h => ?_, hs, id⟩, id⟩
  obtain ⟨hq, hn, hcues, ht, hslots, hclips, hrest⟩ := h
  exact ⟨hq, hn, hcues, ht, hl hslots, hclips, hrest⟩

/-- A Frame Store update that leaves the slots as they are. -/
theorem keeps_setStore_same {s : State} {x : StoreState} (h : x.slots = s.store.slots) : Keeps s (s.setStore x) :=
  keeps_setStore (fun hl => by rw [h]; exact hl) (fun hs i y seq hi => hs i y seq (by rwa [← h]))

theorem keeps_setAlarms {s : State} {x : AlarmState} (hn : s.alarms.notices.length ≤ 16 → x.notices.length ≤ 16)
    (hr : x.records.length = s.alarms.records.length) (he : EpochsOk s → EpochsOk (s.setAlarms x)) : Keeps s (s.setAlarms x) := by
  refine ⟨⟨id, id, id, he, fun h => ?_, id, id⟩, id⟩
  obtain ⟨hq, hnotices, hcues, ht, hslots, hclips, hrecords, hrest⟩ := h
  exact ⟨hq, hn hnotices, hcues, ht, hslots, hclips, hr.trans hrecords, hrest⟩

/-- An Alarm Unit update that leaves the latches as they are. -/
theorem keeps_setAlarms_same {s : State} {x : AlarmState} (hn : x.notices.length ≤ s.alarms.notices.length)
    (h : (x.records, x.epoch) = (s.alarms.records, s.alarms.epoch)) : Keeps s (s.setAlarms x) := by
  simp only [Prod.mk.injEq] at h
  obtain ⟨hr, he⟩ := h
  exact keeps_setAlarms hn.trans (by rw [hr]) (fun h r hmem => by
    have hr' := h r (by rw [← hr]; exact hmem)
    simpa [he] using hr')

/-- The clip records replaced, and nothing that Splicing holds. -/
theorem keeps_setClips {s : State} {x : ClipState} (hl : x.clips.length = s.clips.clips.length)
    (hc : ClipsOk s ∧ UseOk s → ClipsOk (s.setClips x) ∧ UseOk (s.setClips x)) : Keeps s (s.setClips x) := by
  refine ⟨⟨id, id, id, id, fun h => ?_, id, hc⟩, id⟩
  obtain ⟨hq, hn, hcues, ht, hslots, hclips, hrest⟩ := h
  exact ⟨hq, hn, hcues, ht, hslots, hl.trans hclips, hrest⟩

/-- A Clip Store update that leaves the records and the queue as they are. -/
theorem keeps_setClips_same {s : State} {x : ClipState} (h : (x.clips, x.queue) = (s.clips.clips, s.clips.queue)) :
    Keeps s (s.setClips x) := by
  simp only [Prod.mk.injEq] at h
  obtain ⟨hc, hq⟩ := h
  exact keeps_setClips (by rw [hc]) (fun ⟨⟨hl, hext, hv⟩, hu⟩ => by
    have hrec : ∀ n, clipRec (s.setClips x) n = clipRec s n := fun n => by simp [clipRec, hc]
    refine ⟨⟨by simpa [hc] using hl, ?_, ?_⟩, ?_⟩
    · simpa [ExtentsOk, hrec] using hext
    · simpa [VerifyingOk, hrec, hq] using hv
    · simpa [UseOk, hrec, channelsWith] using hu)

/-- Splicing's tables replaced. -/
theorem keeps_setSplice {s : State} {x : SpliceState} (hn : SizesOk s → x.cues.length ≤ 16)
    (ht : SizesOk s → TablesOk x.services x.plans) (hk : ClipsOk s ∧ UseOk s → UseOk (s.setSplice x))
    (hc : CuesOk s → CuesOk (s.setSplice x)) : Keeps s (s.setSplice x) := by
  refine ⟨⟨id, id, id, id, fun h => ?_, id, fun h => ⟨h.1, hk h⟩⟩, hc⟩
  obtain ⟨hq, hnotices, -, -, hrest⟩ := id h
  exact ⟨hq, hnotices, hn h, ht h, hrest⟩

/-- A Splicing update that leaves the cue table and the channels as they are. -/
theorem keeps_setSplice_tables {s : State} {x : SpliceState} (hcues : x.cues = s.splice.cues) (hch : x.channels = s.splice.channels)
    (ht : SizesOk s → TablesOk x.services x.plans) : Keeps s (s.setSplice x) :=
  keeps_setSplice (fun h => by rw [hcues]; exact h.2.2.1) ht (fun h => by simpa [UseOk, channelsWith, hch, clipRec] using h.2)
    (fun h => by simpa [CuesOk, EntryOk, hcues, hch] using h)

/-- The same for an update that leaves the service and plan tables too. -/
theorem keeps_setSplice_same {s : State} {x : SpliceState}
    (h : (x.cues, x.channels, x.services, x.plans) = (s.splice.cues, s.splice.channels, s.splice.services, s.splice.plans)) :
    Keeps s (s.setSplice x) := by
  simp only [Prod.mk.injEq] at h
  obtain ⟨hcues, hch, hs, hp⟩ := h
  exact keeps_setSplice_tables hcues hch (fun h => by rw [hs, hp]; exact h.2.2.2.1)

/-! ## Reports -/

theorem keeps_occur (i : Nat) (s : State) : Keeps s (occur i s) := keeps_setEv _ _
theorem keeps_noteClock (s : State) : Keeps s (noteClock s) := keeps_setEv _ _
theorem keeps_noteInput (n : InputId) (s : State) : Keeps s (noteInput n s) := keeps_setEv _ _
theorem keeps_noteEmission (o : Nat) (s : State) : Keeps s (noteEmission o s) := keeps_setEv _ _
theorem keeps_noteDrive (o : Nat) (s : State) : Keeps s (noteDrive o s) := keeps_setEv _ _
theorem keeps_noteSplice (n : SpliceNote) (s : State) : Keeps s (noteSplice n s) := keeps_setEv _ _
theorem keeps_noteChannel (n : Four) (c : Channel) (o r : Nat) (s : State) : Keeps s (noteChannel n c o r s) := keeps_setEv _ _
theorem keeps_noteClip (n : ClipNote) (s : State) : Keeps s (noteClip n s) := keeps_setEv _ _

/-! ## The drive level (07) -/

/-- Silent drive states, in which the level is 0 (R140). -/
def Silent (m : DriveMode) : Prop := m = .standby ∨ m = .retryWait ∨ m = .tripped

/-- What is left of `LevelOk` while the ceiling is computed afresh. -/
def LevelFits (s : State) : Prop :=
  s.drive.line = s.drive.level ∧ s.drive.level ≤ s.drive.ceiling ∧ (Silent s.drive.mode → s.drive.level = 0)

theorem LevelOk.fits {s : State} (h : LevelOk s) : LevelFits s := ⟨h.1, h.2.1, h.2.2.1⟩

/-- The drive record of an update that leaves level, line, ceiling and state. -/
theorem LevelOk.of_same {s t : State} (h : LevelOk s) (hm : t.drive.mode = s.drive.mode) (hl : t.drive.level = s.drive.level)
    (hline : t.drive.line = s.drive.line) (hc : t.drive.ceiling = s.drive.ceiling) : LevelOk t := by
  unfold LevelOk at h ⊢
  rwa [hm, hl, hline, hc]

theorem keeps_setDrive_same {s : State} {x : DriveState}
    (h : (x.mode, x.level, x.line, x.ceiling) = (s.drive.mode, s.drive.level, s.drive.line, s.drive.ceiling)) :
    Keeps s (s.setDrive x) := by
  simp only [Prod.mk.injEq] at h
  obtain ⟨hm, hl, hline, hc⟩ := h
  exact keeps_drive (setDrive_only _ _) (fun h => h.of_same hm hl hline hc)

theorem steadyAtCeiling_levelOk (o : Nat) {s : State} (h : LevelFits s) (hs : s.drive.mode = .steady → s.drive.level = s.drive.ceiling) :
    LevelOk (steadyAtCeiling o s) := by
  obtain ⟨hline, hle, hz⟩ := h
  unfold steadyAtCeiling
  split
  case isTrue hc => simp [LevelOk, enterSteady, noteDrive, hline, hc.2]
  case isFalse hc => exact ⟨hline, hle, hz, hs, fun hr => lt_of_le_of_ne hle (fun he => hc ⟨hr, he⟩)⟩

theorem enterRamping_levelOk (o : Nat) {s : State} (hline : s.drive.line = s.drive.level) (hle : s.drive.level ≤ s.drive.ceiling) :
    LevelOk (enterRamping o s) := by
  unfold enterRamping
  apply steadyAtCeiling_levelOk
  · split <;> simp [LevelFits, Silent, noteDrive, setLevel, hline, hle]
  · split <;> simp [noteDrive, setLevel]

theorem enterSilent_levelOk {m : DriveMode} (hm : Silent m) (o : Nat) (s : State) : LevelOk (enterSilent m o s) := by
  rcases hm with rfl | rfl | rfl <;> simp [LevelOk, enterSilent, noteDrive, setLevel]

theorem lowerToCeiling_fits {s : State} (h : LevelFits s) : LevelFits (lowerToCeiling s) := by
  obtain ⟨hline, -, hz⟩ := h
  unfold lowerToCeiling
  split
  case isTrue hc =>
    refine ⟨rfl, le_refl _, fun hs => ?_⟩
    have hlevel := hz hs
    change ceilingOf s = 0
    omega
  case isFalse hc => exact ⟨hline, not_lt.mp hc, hz⟩

theorem followCeiling_levelOk (old : Nat) {s : State} (h : LevelFits s) : LevelOk (followCeiling old s) := by
  obtain ⟨hline, hle, hz⟩ := h
  unfold followCeiling
  split
  case h_1 hm =>
    apply steadyAtCeiling_levelOk
    · split <;> simp [LevelFits, Silent, setLevel, hm, hline, hle]
    · split <;> simp [setLevel, hm]
  case h_2 hm =>
    split
    · exact enterRamping_levelOk _ hline hle
    · simp [LevelOk, hm, hline, hle]
      omega
  case h_3 hr hs =>
    exact ⟨hline, hle, hz, fun h => absurd h hs, fun h => absurd h hr⟩

theorem recomputeCeiling_levelOk {s : State} (h : LevelFits s) : LevelOk (recomputeCeiling s) :=
  followCeiling_levelOk _ (lowerToCeiling_fits h)

theorem keeps_recomputeCeiling (s : State) : Keeps s (recomputeCeiling s) :=
  keeps_drive (recomputeCeiling_only s) (fun h => recomputeCeiling_levelOk h.fits)

theorem keeps_enterSilent {m : DriveMode} (hm : Silent m) (o : Nat) (s : State) : Keeps s (enterSilent m o s) :=
  keeps_drive (enterSilent_frame m o s) (fun _ => enterSilent_levelOk hm o s)

theorem keeps_enterRamping (o : Nat) (s : State) : Keeps s (enterRamping o s) :=
  keeps_drive (enterRamping_frame o s) (fun h => enterRamping_levelOk o h.1 h.2.1)

theorem keeps_setDirectivePower (p : Int) (s : State) : Keeps s (setDirectivePower p s) :=
  Keeps.trans (keeps_setDrive_same (by rfl)) (keeps_recomputeCeiling _)

theorem keeps_judgePermission (s : State) : Keeps s (judgePermission s) := by
  unfold judgePermission
  split
  · split
    · exact keeps_enterRamping _ _
    · exact .refl s
  · split
    · exact .refl s
    · exact keeps_enterSilent (.inl rfl) _ _
  · split
    · exact .refl s
    · exact keeps_enterSilent (.inl rfl) _ _
  · exact .refl s

/-- The permission of a state whose drive has another state and level only. -/
theorem permitted_of_drive {s t : State} (hem : t.em = s.em) (hr : t.drive.rfEnabled = s.drive.rfEnabled)
    (hsup : t.drive.supply = s.drive.supply) (hrl : t.drive.reflLatch = s.drive.reflLatch) (hsl : t.drive.shutLatch = s.drive.shutLatch)
    (hm : (t.drive.mode != .retryWait) = (s.drive.mode != .retryWait)) : permitted t = permitted s := by
  simp [permitted, driveConditions, permission, hem, hr, hsup, hrl, hsl, hm]

/-- Once permission has been judged, the level is 0 where the drive is not permitted (R139). -/
theorem judgePermission_driveOk {s : State} (h : LevelOk s) : DriveOk (judgePermission s) := by
  refine ⟨(keeps_judgePermission s).level h, ?_⟩
  have hsilent (m : DriveMode) (o : Nat) : (enterSilent m o s).drive.level = 0 := by simp [enterSilent, noteDrive, setLevel]
  unfold judgePermission
  split
  case h_1 hm =>
    split
    case isTrue hp =>
      intro hn
      have hfixed : permitted (enterRamping 1 s) = permitted s := by
        unfold enterRamping steadyAtCeiling
        dsimp only
        split <;> split <;>
          exact permitted_of_drive rfl rfl rfl rfl rfl (by rw [hm]; rfl)
      rw [hfixed, hp] at hn
      cases hn
    case isFalse => exact fun _ => h.2.2.1 (.inl hm)
  case h_2 =>
    split
    case isTrue hp => intro hn; rw [hp] at hn; cases hn
    case isFalse => exact fun _ => hsilent _ _
  case h_3 =>
    split
    case isTrue hp => intro hn; rw [hp] at hn; cases hn
    case isFalse => exact fun _ => hsilent _ _
  case h_4 h1 h2 h3 =>
    intro _
    apply h.2.2.1
    cases hm : s.drive.mode <;> simp_all

theorem keeps_moveDriveTimes (d : Int) (s : State) : Keeps s (moveDriveTimes d s) := keeps_setDrive_same (by rfl)

theorem keeps_judgeSupply (v : Nat) (s : State) : Keeps s (judgeSupply v s) := by
  unfold judgeSupply
  dsimp only
  have hset (m : SupplyMode) : Keeps s (s.setDrive { s.drive with supply := m }) := keeps_setDrive_same (by rfl)
  split
  · exact (hset _).trans (keeps_occur _ _)
  · split
    · exact (hset _).trans (keeps_occur _ _)
    · exact hset _

theorem keeps_judgeWarning (theta : Int) (s : State) : Keeps s (judgeWarning theta s) := by
  unfold judgeWarning
  dsimp only
  have hset (b : Bool) : Keeps s (s.setDrive { s.drive with warn := b }) := keeps_setDrive_same (by rfl)
  split
  · exact (hset _).trans (keeps_occur _ _)
  · split
    · exact hset _
    · exact .refl s

theorem keeps_judgeShutdown (theta : Int) (s : State) : Keeps s (judgeShutdown theta s) := by
  have hset (c : DriveCounts) : Keeps s (occur 24 (s.setDrive { s.drive with shutLatch := true, retryEnd := none, counts := c })) :=
    Keeps.trans (keeps_setDrive_same (by rfl)) (keeps_occur _ _)
  unfold judgeShutdown
  split
  · dsimp only
    split
    · exact hset _
    · exact (hset _).trans (keeps_enterSilent (.inr (.inr rfl)) _ _)
  · exact .refl s

theorem keeps_setModules (m : PerFour Module) (s : State) : Keeps s (s.setDrive { s.drive with modules := m }) :=
  keeps_setDrive_same (by rfl)

theorem keeps_judgeOvercurrent (c : Nat) (n : Four) (s : State) : Keeps s (judgeOvercurrent c n s) := by
  unfold judgeOvercurrent
  dsimp only
  split
  · generalize (if s.live.drive.overThreshold < c then sat 15 ((s.drive.modules.get n).overRun + 1) else 0) = run
    split
    · exact Keeps.trans (Keeps.trans (keeps_setDrive_same (by rfl)) (keeps_occur _ _)) (keeps_noteDrive _ _)
    · exact keeps_setModules _ s
  · exact .refl s

theorem keeps_judgeOpen (c : Nat) (n : Four) (s : State) : Keeps s (judgeOpen c n s) := by
  unfold judgeOpen
  dsimp only
  split
  · generalize (if 410 ≤ s.drive.level ∧ c < s.live.drive.openThreshold then
      min ((s.drive.modules.get n).opened + 1) s.live.drive.moduleFilter else 0) = run
    split
    · exact (keeps_setModules _ s).trans (keeps_occur _ _)
    · exact keeps_setModules _ s
  · exact .refl s

theorem keeps_judgeModule (c : PerFour Nat) (s : State) (n : Four) : Keeps s (judgeModule c s n) :=
  ((keeps_setModules _ s).trans (keeps_judgeOvercurrent _ _ _)).trans (keeps_judgeOpen _ _ _)

theorem keeps_reflectedTrip (s : State) : Keeps s (reflectedTrip s) := by
  have hset (c : DriveCounts) : Keeps s (occur 21 (s.setDrive { s.drive with reflRun := 0, counts := c })) :=
    Keeps.trans (keeps_setDrive_same (by rfl)) (keeps_occur _ _)
  unfold reflectedTrip
  dsimp only
  split
  · exact ((hset _).trans (keeps_enterSilent (.inr (.inl rfl)) _ _)).trans (keeps_setDrive_same (by rfl))
  · exact (((hset _).trans (keeps_setDrive_same (by rfl))).trans (keeps_occur _ _)).trans
      (keeps_enterSilent (.inr (.inr rfl)) _ _)

theorem keeps_judgeReflected (rho : Nat) (s : State) : Keeps s (judgeReflected rho s) := by
  have hset (r : Nat) : Keeps s (s.setDrive { s.drive with reflRun := r }) := keeps_setDrive_same (by rfl)
  unfold judgeReflected
  dsimp only
  split
  · generalize (if s.live.drive.reflTrip ≤ rho then sat 15 (s.drive.reflRun + 1) else 0) = run
    split
    · exact (hset _).trans (keeps_reflectedTrip _)
    · exact hset _
  · exact .refl s

theorem keeps_judgeFoldback (theta : Int) (rho : Nat) (s : State) : Keeps s (judgeFoldback theta rho s) := by
  unfold judgeFoldback
  dsimp only
  exact Keeps.trans (keeps_setDrive_same (by rfl)) (keeps_recomputeCeiling _)

theorem keeps_judgeLowOutput (f : Nat) (s : State) : Keeps s (judgeLowOutput f s) := by
  have hset (r : Nat) : Keeps s (s.setDrive { s.drive with lowRun := r }) := keeps_setDrive_same (by rfl)
  unfold judgeLowOutput
  dsimp only
  split
  · split
    · exact (hset _).trans (keeps_occur _ _)
    · exact hset _
  · exact hset _

theorem keeps_judgeSample (x : Samples) (s : State) : Keeps s (judgeSample x s) := by
  unfold judgeSample judgeTemperature
  exact (((((keeps_judgeSupply _ s).trans (keeps_judgeWarning _ _)).trans (keeps_judgeShutdown _ _)).trans
    (Keeps.fold (keeps_judgeModule _) _ _)).trans (keeps_judgeReflected _ _)).trans
    ((keeps_judgeFoldback _ _ _).trans (keeps_judgeLowOutput _ _))

theorem keeps_sampleEffect (x : Samples) (s : State) : Keeps s (sampleEffect x s) := by
  unfold sampleEffect
  split
  · exact Keeps.trans (keeps_setDrive_same (by rfl)) (keeps_judgeSample _ _)
  · exact .refl s

theorem rampedLevel_le (s : State) : rampedLevel s ≤ s.drive.ceiling := by
  unfold rampedLevel
  split
  · exact le_refl _
  · exact Nat.min_le_left _ _

theorem keeps_rampTickEffect (s : State) : Keeps s (rampTickEffect s) := by
  refine keeps_drive (rampTickEffect_only s) (fun h => ?_)
  unfold rampTickEffect
  dsimp only
  split
  · split
    case isTrue hm =>
      have hm' : s.drive.mode = .ramping := hm
      have hfits : LevelFits (setLevel (rampedLevel (s.setDrive { s.drive with rampTicks := s.drive.rampTicks + 1 }))
          (s.setDrive { s.drive with rampTicks := s.drive.rampTicks + 1 })) :=
        ⟨rfl, rampedLevel_le _, by simp [Silent, setLevel, hm']⟩
      exact steadyAtCeiling_levelOk _ hfits (by simp [setLevel, hm'])
    case isFalse => exact h.of_same rfl rfl rfl rfl
  · exact h

theorem keeps_retryEndEffect (s : State) : Keeps s (retryEndEffect s) := by
  unfold retryEndEffect
  split
  · split
    · dsimp only
      have hset (c : DriveCounts) : Keeps s (s.setDrive { s.drive with retryEnd := none, counts := c }) :=
        (keeps_setDrive_same (by rfl))
      split
      · exact (hset _).trans (keeps_enterRamping _ _)
      · exact (hset _).trans (keeps_enterSilent (.inl rfl) _ _)
    · exact .refl s
  · exact .refl s

theorem keeps_steadyEffect (s : State) : Keeps s (steadyEffect s) := by
  unfold steadyEffect
  split
  · split
    · exact keeps_setDrive_same (by rfl)
    · exact .refl s
  · exact .refl s

theorem keeps_reEnable (s : State) (n : Four) : Keeps s (reEnable s n) := by
  unfold reEnable
  dsimp only
  split
  · exact Keeps.trans (keeps_setModules _ s) (keeps_noteDrive _ _)
  · exact .refl s

theorem keeps_releaseTrips (s : State) : Keeps s (releaseTrips s) :=
  Keeps.trans (keeps_setDrive_same (by rfl)) (keeps_enterSilent (.inl rfl) _ _)

theorem keeps_installedWrite (count : Nat) (s : State) : Keeps s (installedWrite count s) := by
  unfold installedWrite
  dsimp only
  have hrest (t : State) (m : PerFour Module) (p : Params) :
      Keeps t (recomputeCeiling ((t.setDrive { t.drive with modules := m }).setLive p)) :=
    ((keeps_setModules m t).trans (keeps_setLive _ _)).trans (keeps_recomputeCeiling _)
  split
  · exact (keeps_noteDrive _ s).trans (hrest _ _ _)
  · exact hrest _ _ _

end Sys2Proof.Machine
end

section
/-! PROOF, the invariants that every step keeps: the Site Clock (01) and the Alarm Unit (08). -/

namespace Sys2Proof.Machine
open Sys2Proof

/-! ## The Site Clock (01) -/

/-- A clock update that leaves site time, the clock state, u and the governing input. -/
theorem keeps_setClock_same {s : State} {x : ClockState}
    (h : (x.time, x.mode, x.u, x.governing) = (s.clock.time, s.clock.mode, s.clock.u, s.clock.governing)) : Keeps s (s.setClock x) := by
  simp only [Prod.mk.injEq] at h
  obtain ⟨ht, hm, hu, hg⟩ := h
  exact keeps_clock (setClock_only _ _) (fun h => by simpa [TimeOk, ClockOk, ht, hm, hu, hg] using h)

theorem keeps_setInput (n : InputId) (r : InputRec) (s : State) : Keeps s (setInput n r s) := keeps_setClock_same (by rfl)

theorem keeps_setInputMode (n : InputId) (m : InputMode) (s : State) : Keeps s (setInputMode n m s) := by
  unfold setInputMode
  dsimp only
  have hmode : Keeps s (noteInput n (setInput n { inputRec s n with mode := m } s)) := (keeps_setInput _ _ _).trans (keeps_noteInput _ _)
  split
  · exact .refl s
  · split
    · exact hmode.trans (keeps_setClock_same (by rfl))
    · exact hmode

theorem keeps_enterSuspect (n : InputId) (s : State) : Keeps s (enterSuspect n s) :=
  (keeps_setInput _ _ _).trans (keeps_setInputMode _ _ _)

theorem keeps_enterDisqualified (n : InputId) (s : State) : Keeps s (enterDisqualified n s) :=
  ((keeps_setInput _ _ _).trans (keeps_setInputMode _ _ _)).trans (keeps_occur _ _)

theorem keeps_enterQualified (n : InputId) (s : State) : Keeps s (enterQualified n s) :=
  (keeps_setInput _ _ _).trans (keeps_setInputMode _ _ _)

/-- What the clock makes of a change of governing input brings the clock state into its table again. -/
theorem actOnGoverning_clockOk {s : State} (g : Option InputId) (h : ClockOk s) :
    ClockOk (actOnGoverning (noteClock (s.setClock { s.clock with governing := g }))) := by
  obtain ⟨hgov, hlocked, hfree⟩ := h
  unfold actOnGoverning
  split <;> rename_i hm hg <;>
    simp only [noteClock, State.setEv_clock, State.setClock_clock] at hm hg <;>
    (try split) <;> simp_all [ClockOk, enterClock, noteClock, dropSlew, occur]

@[simp] theorem enterClock_time (m : ClockMode) (s : State) : (enterClock m s).clock.time = s.clock.time := by cases m <;> rfl

@[simp] theorem actOnGoverning_time (s : State) : (actOnGoverning s).clock.time = s.clock.time := by
  unfold actOnGoverning
  (repeat' split) <;> rfl

theorem keeps_regovern (s : State) : Keeps s (regovern s) := by
  refine keeps_clock (regovern_only s) (fun ⟨ht, hc⟩ => ?_)
  unfold regovern
  split
  case isTrue => exact ⟨ht, hc⟩
  case isFalse => exact ⟨by simpa [TimeOk, noteClock] using ht, actOnGoverning_clockOk _ hc⟩

/-- A change between two clock states without a governing input, of which neither fixes u. -/
theorem keeps_judgeGuard (s : State) : Keeps s (judgeGuard s) := by
  refine keeps_clock (judgeGuard_only s) (fun ⟨ht, hc⟩ => ?_)
  unfold judgeGuard
  split
  case isTrue hg =>
    refine ⟨ht, ?_⟩
    simpa [ClockOk, enterClock, noteClock, occur, hg.1] using hc
  case isFalse => exact ⟨ht, hc⟩

theorem keeps_countLock (n : InputId) {s : State} (hm : s.clock.mode = .acquiring) : Keeps s (countLock n s) := by
  refine keeps_clock (countLock_only n s) (fun ⟨ht, hc⟩ => ?_)
  unfold countLock
  dsimp only
  generalize (if (epsOf s n).natAbs ≤ s.live.clock.lockWindow then sat 60 (s.clock.lockCount + 1) else 0) = count
  split
  · refine ⟨ht, ?_⟩
    simpa [ClockOk, enterClock, noteClock, hm] using hc.1
  · exact ⟨ht, hc⟩

/-- A move of site time comes out in 64 bits. -/
theorem keeps_moveClock (d : Int) (s : State) : Keeps s (moveClock d s) :=
  keeps_clock (moveClock_only d s) (fun ⟨_, hc⟩ =>
    ⟨⟨Int.emod_nonneg _ (by decide), Int.emod_lt_of_pos _ (by decide)⟩, hc⟩)

theorem keeps_oscillatorCycle (s : State) : Keeps s (oscillatorCycle s) :=
  keeps_clock (setClock_only _ s) (fun ⟨_, hc⟩ =>
    ⟨⟨Int.emod_nonneg _ (by decide), Int.emod_lt_of_pos _ (by decide)⟩, hc⟩)

theorem keeps_slewClock (n : InputId) (s : State) : Keeps s (slewClock n s) := keeps_setClock_same (by rfl)

theorem keeps_countPulse (n : InputId) (e : Int) (good : Bool) (s : State) : Keeps s (countPulse n e good s) := keeps_setInput _ _ _

theorem keeps_filterPulse (n : InputId) (e : Int) (s : State) : Keeps s (filterPulse n e s) := by
  unfold filterPulse
  dsimp only
  split
  · exact keeps_setInput _ _ _
  · split
    · exact .refl s
    · split
      · exact .refl s
      · exact keeps_setInput _ _ _

theorem keeps_pulseTransition (n : InputId) (out wrong : Bool) (s : State) : Keeps s (pulseTransition n out wrong s) := by
  have hqualifying : Keeps s (setInputMode n .qualifying (setInput n { inputRec s n with good := 0 } s)) :=
    (keeps_setInput _ _ _).trans (keeps_setInputMode _ _ _)
  unfold pulseTransition
  dsimp only
  split
  · exact hqualifying
  · split
    · exact hqualifying
    · exact .refl s
  · split
    · exact keeps_enterQualified _ _
    · exact .refl s
  · split
    · exact keeps_enterSuspect _ _
    · exact .refl s
  · split
    · exact keeps_enterQualified _ _
    · exact .refl s

theorem keeps_crossCheck (n : InputId) (s : State) : Keeps s (crossCheck n s) := by
  unfold crossCheck
  split
  case h_1 g _ =>
    split
    · dsimp only
      generalize (if s.live.clock.crossLimit < (epsOf s n - epsOf s g).natAbs then sat 15 ((inputRec s n).disagree + 1) else 0) = k
      split
      · exact (((keeps_setInput n _ s).trans (keeps_setClock_same (by rfl))).trans (keeps_occur _ _)).trans (keeps_enterSuspect _ _)
      · exact keeps_setInput _ _ _
    · exact .refl s
  case h_2 => exact .refl s

theorem keeps_recordPulse (n : InputId) (e : Int) (b : Bool) (k : Option Nat) (s : State) : Keeps s (recordPulse n e b k s) :=
  keeps_setInput _ _ _

theorem keeps_missingTransition (n : InputId) (s : State) : Keeps s (missingTransition n s) := by
  unfold missingTransition
  dsimp only
  split
  · split
    · exact (keeps_setInput _ _ _).trans (keeps_setInputMode _ _ _)
    · exact keeps_setInput _ _ _
  · exact keeps_enterSuspect _ _
  · split
    · exact keeps_enterDisqualified _ _
    · exact .refl s
  · exact .refl s
  · exact .refl s

theorem keeps_oscillatorSecondEffect (s : State) : Keeps s (oscillatorSecondEffect s) := by
  unfold oscillatorSecondEffect
  split
  · exact keeps_setClock_same (by rfl)
  · exact .refl s

theorem keeps_holdOffEffect (n : InputId) (s : State) : Keeps s (holdOffEffect n s) := by
  unfold holdOffEffect
  dsimp only
  split
  · exact keeps_setInput _ _ _
  · exact .refl s

/-- In HOLDOVER and EXPIRED u may grow. -/
theorem keeps_growth {s : State} (hm : s.clock.mode = .holdover ∨ s.clock.mode = .expired) (b : Int) (u : Nat) :
    Keeps s (s.setClock { s.clock with boundary := b, u := u }) := by
  refine keeps_clock (setClock_only _ s) (fun ⟨ht, hc⟩ => ⟨ht, ?_⟩)
  rcases hm with hm | hm <;> simpa [ClockOk, hm] using hc.1

/-! ## The Alarm Unit (08) -/

/-- An aged latch lies less than 2^31 behind the epoch (R158). -/
theorem ageRecord_near (e : BitVec 32) (r : AlarmRec) (h : r.latched = true) : (e - (ageRecord e r).setEpoch).toNat < 0x80000000 := by
  unfold ageRecord
  split
  case isTrue => bv_omega
  case isFalse hn => simpa [h] using hn

/-- After a latch is set, every set-epoch is near the epoch, whatever it was before. -/
theorem setLatch_epochsOk (item : Nat) (s : State) : EpochsOk (setLatch item s) := by
  intro r hr hl
  rw [setLatch_records] at hr
  rw [setLatch_epoch]
  rcases List.mem_or_eq_of_mem_set hr with hr | rfl
  · obtain ⟨q, -, rfl⟩ := List.mem_map.mp hr
    exact ageRecord_near _ _ (by simpa using hl)
  · simp

@[simp] theorem setLatch_length (item : Nat) (s : State) : (setLatch item s).alarms.records.length = s.alarms.records.length := by
  simp [setLatch_records]

theorem offerNotice_notices_le (kind : Nat) (body : List Byte) {s : State} (h : s.alarms.notices.length ≤ 16) :
    (offerNotice kind body s).alarms.notices.length ≤ 16 := by
  unfold offerNotice
  split
  · split
    · simp; omega
    · exact h
  · exact h

theorem setLatch_notices_le (item : Nat) {s : State} (h : s.alarms.notices.length ≤ 16) : (setLatch item s).alarms.notices.length ≤ 16 := by
  unfold setLatch
  dsimp only
  split
  · exact offerNotice_notices_le _ _ h
  · exact h

/-- What the Alarm Unit alone does keeps the other invariants. -/
theorem keeps_alarms {s t : State} (h : ∃ a, t = s.setAlarms a) (hn : s.alarms.notices.length ≤ 16 → t.alarms.notices.length ≤ 16)
    (hr : t.alarms.records.length = s.alarms.records.length) (he : EpochsOk s → EpochsOk t) : Keeps s t := by
  obtain ⟨a, rfl⟩ := h
  exact keeps_setAlarms hn hr he

theorem keeps_offerNotice (kind : Nat) (body : List Byte) (s : State) : Keeps s (offerNotice kind body s) :=
  keeps_alarms (offerNotice_only _ _ _) (offerNotice_notices_le _ _) (by simp) (fun h => by simpa [EpochsOk] using h)

theorem keeps_setLatch (item : Nat) (s : State) : Keeps s (setLatch item s) :=
  keeps_alarms (setLatch_only _ _) (setLatch_notices_le item) (by simp) (fun _ => setLatch_epochsOk _ _)

/-- A record read by its item is one of the records, or a clear one. -/
theorem alarmRec_mem_or (s : State) (item : Nat) : alarmRec s item ∈ s.alarms.records ∨ alarmRec s item = {} := by
  unfold alarmRec
  rw [List.getD_eq_getElem?_getD]
  cases h : s.alarms.records[item - 1]? with
  | none => exact .inr rfl
  | some r => exact .inl (List.mem_of_getElem? h)

/-- One record replaced by one whose latch is clear, or whose set-epoch is near the epoch. -/
theorem epochsOk_set {s : State} {i : Nat} {r : AlarmRec} (h : EpochsOk s)
    (hr : r.latched = true → (s.alarms.epoch - r.setEpoch).toNat < 0x80000000) :
    EpochsOk (s.setAlarms { s.alarms with records := s.alarms.records.set i r }) := by
  intro q hq hl
  rcases List.mem_or_eq_of_mem_set hq with hq | rfl
  · exact h q hq hl
  · exact hr hl

theorem keeps_setRecord {s : State} {i : Nat} {r : AlarmRec}
    (hr : EpochsOk s → r.latched = true → (s.alarms.epoch - r.setEpoch).toNat < 0x80000000) :
    Keeps s (s.setAlarms { s.alarms with records := s.alarms.records.set i r }) :=
  keeps_setAlarms id (by simp) (fun h => epochsOk_set h (hr h))

theorem keeps_latchItem (s : State) (item : Nat) : Keeps s (latchItem s item) := by
  unfold latchItem
  dsimp only
  split
  case isTrue hl =>
    refine keeps_setRecord (fun h _ => ?_)
    rcases alarmRec_mem_or s item with hm | hm
    · exact h (alarmRec s item) hm hl
    · rw [hm] at hl; cases hl
  case isFalse => exact keeps_setLatch _ _

theorem keeps_latchAll (s : State) : Keeps s (latchAll s) := Keeps.fold keeps_latchItem _ _

theorem keeps_queueNotices (s : State) : Keeps s (queueNotices s) :=
  Keeps.fold (fun s (n : Nat × List Byte) => keeps_offerNotice n.1 n.2 s) _ _

theorem keeps_judgeLines (s : State) : Keeps s (judgeLines s) := keeps_setAlarms_same (by rfl) (by rfl)

/-- The end of a command. -/
theorem keeps_closeEvent (s : State) : Keeps s (closeEvent s) := by
  unfold closeEvent
  exact ((((keeps_judgePermission s).trans (keeps_latchAll _)).trans (keeps_queueNotices _)).trans (keeps_judgeLines _)).trans
    (keeps_setEv _ _)

/-- The lines are judged at the end of a command. -/
theorem judgeLines_linesOk (s : State) (e : Report) : LinesOk ((judgeLines s).setEv e) := ⟨rfl, rfl⟩

theorem closeEvent_linesOk (s : State) : LinesOk (closeEvent s) := by
  unfold closeEvent
  exact judgeLines_linesOk _ _

theorem closeEvent_driveOk {s : State} (h : LevelOk s) : DriveOk (closeEvent s) := by
  have hd : (closeEvent s).drive = (judgePermission s).drive := closeEvent_drive s
  have he : (closeEvent s).em = (judgePermission s).em := by
    obtain ⟨d, e, hj⟩ := judgePermission_only s
    rw [closeEvent_em, hj]; rfl
  have hp : permitted (closeEvent s) = permitted (judgePermission s) := permitted_of_drive he (by rw [hd]) (by rw [hd]) (by rw [hd])
    (by rw [hd]) (by rw [hd])
  obtain ⟨hlevel, hoff⟩ := judgePermission_driveOk h
  exact ⟨hlevel.of_same (by rw [hd]) (by rw [hd]) (by rw [hd]) (by rw [hd]), fun hn => by rw [hd]; exact hoff (hp ▸ hn)⟩

theorem keeps_clearItem (er : BitVec 32) (acc : State × List (Nat × Nat)) (item : Nat) : Keeps acc.1 (clearItem er acc item).1 := by
  unfold clearItem
  dsimp only
  have hclear : Keeps acc.1 (acc.1.setAlarms { acc.1.alarms with records := acc.1.alarms.records.set (item - 1) {} }) :=
    keeps_setRecord (fun _ h => by cases h)
  split
  · dsimp only
    split
    · exact hclear.trans (keeps_setLatch _ _)
    · exact hclear
  · exact .refl _

theorem keeps_clearItems (er : BitVec 32) (is : List Nat) (acc : State × List (Nat × Nat)) : Keeps acc.1 (is.foldl (clearItem er) acc).1 := by
  induction is generalizing acc with
  | nil => exact .refl _
  | cons i is ih => exact (keeps_clearItem er acc i).trans (ih _)

end Sys2Proof.Machine
end

section
/-! PROOF, the invariants that every step keeps: the Frame Store's slots (03), the clip records, their extents and their use (05). -/

namespace Sys2Proof
open Sys2Proof.Machine

/-! ## One value of four, of three and of two -/

@[simp] theorem PerFour.get_set_self {α : Type} (x : PerFour α) (n : Four) (v : α) : (x.set n v).get n = v := by cases n <;> rfl

theorem PerFour.get_set_ne {α : Type} (x : PerFour α) {m n : Four} (h : m ≠ n) (v : α) : (x.set n v).get m = x.get m := by
  cases m <;> cases n <;> first | rfl | exact absurd rfl h

theorem PerFour.get_set {α : Type} (x : PerFour α) (m n : Four) (v : α) : (x.set n v).get m = if m = n then v else x.get m := by
  split
  case isTrue h => rw [h, PerFour.get_set_self]
  case isFalse h => exact x.get_set_ne h v

@[simp] theorem PerFour.get_map {α β : Type} (f : α → β) (x : PerFour α) (n : Four) : (x.map f).get n = f (x.get n) := by
  cases n <;> rfl

@[simp] theorem PerFour.set_get {α : Type} (x : PerFour α) (n : Four) : x.set n (x.get n) = x := by cases n <;> rfl

@[simp] theorem PerFour.set_set {α : Type} (x : PerFour α) (n : Four) (v w : α) : (x.set n v).set n w = x.set n w := by cases n <;> rfl

theorem Four.mem_all (n : Four) : n ∈ Four.all := by cases n <;> decide

end Sys2Proof

namespace Sys2Proof.Machine
open Sys2Proof

/-! ## The Frame Store (03) -/

theorem slotIndex_lt (seq : Seq) : slotIndex seq < 64 := Nat.mod_lt _ (by decide)

/-- A slot that is FREE, or HELD or TAKEN with the sequence it is selected by, in its place. -/
theorem keeps_setSlot {seq : Seq} {x : Slot} (hx : slotSeq x = none ∨ slotSeq x = some seq) (s : State) : Keeps s (setSlot seq x s) := by
  refine keeps_setStore (fun h => by simpa using h) (fun h i y q hi hq => ?_)
  simp only [State.setStore_store] at hi
  by_cases hix : slotIndex seq = i
  · rw [hix, List.getElem?_set_self'] at hi
    obtain ⟨_, _, hxy⟩ := Option.map_eq_some_iff.mp hi
    have hxq : slotSeq x = some q := by rw [show x = y from hxy]; exact hq
    rcases hx with hx | hx
    · rw [hx] at hxq; cases hxq
    · rw [hx] at hxq; cases hxq; exact hix
  · rw [List.getElem?_set_ne hix] at hi
    exact h i y q hi hq

theorem keeps_setBase (b : Option Seq) (s : State) : Keeps s (setBase b s) := by
  unfold setBase
  cases b with
  | none => exact keeps_setStore_same (by rfl)
  | some x => exact Keeps.trans (keeps_setStore_same (x := { s.store with base := some x }) (by rfl)) (keeps_setSplice_same (by rfl))

theorem keeps_emptyStore (s : State) : Keeps s (emptyStore s) := by
  unfold emptyStore
  refine Keeps.trans (keeps_setStore (fun _ => by simp [Config.slots]) (fun _ i y q hi hq => ?_)) (keeps_setBase _ _)
  simp only [State.setStore_store] at hi
  rw [List.eq_of_mem_replicate (List.mem_of_getElem? hi)] at hq
  cases hq

theorem keeps_takeSlot (seq : Seq) (s : State) : Keeps s (takeSlot seq s) := by
  unfold takeSlot
  split
  · exact keeps_setSlot (.inr rfl) s
  · exact keeps_setSlot (.inr rfl) s
  · exact .refl s

/-- A change of slots one by one that leaves each its sequence. -/
theorem keeps_mapSlots {s : State} {f : Slot → Slot} (h : ∀ x, slotSeq (f x) = slotSeq x) (m : PerPort Bool) :
    Keeps s (s.setStore { s.store with slots := s.store.slots.map f, marks := m }) := by
  refine keeps_setStore (fun hl => by simpa using hl) (fun hs i y q hi hq => ?_)
  simp only [State.setStore_store, List.getElem?_map] at hi
  obtain ⟨x, hx, rfl⟩ := Option.map_eq_some_iff.mp hi
  exact hs i x q hx (by rw [← h]; exact hq)

theorem keeps_moveStoreTimes (d : Int) (s : State) : Keeps s (moveStoreTimes d s) :=
  keeps_mapSlots (fun x => by rcases x with _ | _ | _ <;> rfl) _

/-! ## Clip records (05) -/

theorem clipRec_setClip (n m : Nat) (c : Clip) (s : State) :
    clipRec (setClip n c s) m = if m = n ∧ n < s.clips.clips.length then c else clipRec s m := by
  simp only [clipRec, setClip, State.setClips_clips, List.getD_eq_getElem?_getD, List.getElem?_set]
  by_cases hmn : n = m
  · subst hmn
    by_cases hl : n < s.clips.clips.length
    · simp [hl]
    · simp [hl]
  · simp [hmn, Ne.symm hmn]

/-- A record that is not EMPTY is one of the records. -/
theorem lt_of_clip_mode {s : State} {n : Nat} (h : (clipRec s n).mode ≠ .empty) : n < s.clips.clips.length := by
  by_contra hn
  exact h (by simp [clipRec, List.getElem?_eq_none (not_lt.mp hn)])

/-- The clips' invariants look at the state, the extent and the use count of each record, at the queue and at the channels' clips. -/
theorem clipsOk_congr {s t : State} (hl : t.clips.clips.length = s.clips.clips.length) (hq : t.clips.queue = s.clips.queue)
    (hr : ∀ n, (clipRec t n).mode = (clipRec s n).mode ∧ (clipRec t n).base = (clipRec s n).base ∧
      (clipRec t n).length = (clipRec s n).length) (h : ClipsOk s) : ClipsOk t := by
  obtain ⟨hlen, ⟨hin, hap⟩, hnd, hver⟩ := h
  refine ⟨hl.trans hlen, ⟨fun n => ?_, fun m n hmn => ?_⟩, by rw [hq]; exact hnd, fun n hn => ?_⟩
  · rw [(hr n).1, (hr n).2.1, (hr n).2.2]
    exact hin n
  · rw [(hr n).1, (hr n).2.1, (hr n).2.2, (hr m).1, (hr m).2.1, (hr m).2.2]
    exact hap m n hmn
  · rw [(hr n).1]
    exact hver n (hq ▸ hn)

/-- A record edited in the fields that no invariant looks at. -/
theorem keeps_editClip {n : Nat} {c : Clip} {s : State}
    (h : (c.mode, c.base, c.length, c.uses) = ((clipRec s n).mode, (clipRec s n).base, (clipRec s n).length, (clipRec s n).uses)) :
    Keeps s (setClip n c s) := by
  simp only [Prod.mk.injEq] at h
  obtain ⟨hm, hb, hl, hu⟩ := h
  have hr : ∀ m, (clipRec (setClip n c s) m).mode = (clipRec s m).mode ∧ (clipRec (setClip n c s) m).base = (clipRec s m).base ∧
      (clipRec (setClip n c s) m).length = (clipRec s m).length ∧ (clipRec (setClip n c s) m).uses = (clipRec s m).uses := by
    intro m
    rw [clipRec_setClip]
    split
    case isTrue h => rw [h.1]; exact ⟨hm, hb, hl, hu⟩
    case isFalse => exact ⟨rfl, rfl, rfl, rfl⟩
  refine keeps_setClips (by simp) (fun ⟨hc, huse⟩ => ⟨?_, fun m => ?_⟩)
  · exact clipsOk_congr (s := s) (t := setClip n c s) (by simp [setClip]) rfl (fun m => ⟨(hr m).1, (hr m).2.1, (hr m).2.2.1⟩) hc
  · obtain ⟨h1, -, -, h4⟩ := hr m
    have := huse m
    rw [← h4, ← h1] at this
    exact this

/-- The extents of a table in which record n alone has changed. -/
def ApartFrom (s : State) (n : Nat) (c : Clip) : Prop :=
  c.base + c.length ≤ Config.clipPositions ∧
  ∀ m, m ≠ n → (clipRec s m).mode ≠ .empty →
    (clipRec s m).base + (clipRec s m).length ≤ c.base ∨ c.base + c.length ≤ (clipRec s m).base

/-- A record with the extent that stood there keeps apart from the others. -/
theorem apartFrom_kept {s : State} {n : Nat} {c : Clip} (h : ExtentsOk s) (hm : (clipRec s n).mode ≠ .empty)
    (hb : c.base = (clipRec s n).base) (hl : c.length = (clipRec s n).length) : ApartFrom s n c := by
  refine ⟨by rw [hb, hl]; exact h.1 n hm, fun m hmn hne => ?_⟩
  rw [hb, hl]
  exact h.2 m n hmn hne hm

/-- A record replaced, and the verification queue with it. -/
theorem keeps_replaceClip {s : State} {x : ClipState} {n : Nat} {c : Clip} (hx : x.clips = s.clips.clips.set n c)
    (hn : ClipsOk s → n < 32) (hext : ClipsOk s ∧ UseOk s → c.mode ≠ .empty → ApartFrom s n c)
    (hu : ClipsOk s ∧ UseOk s → c.uses = (clipRec s n).uses ∧ (0 < c.uses → c.mode = .ready))
    (hq : ClipsOk s ∧ UseOk s → x.queue.Nodup ∧ ∀ m ∈ x.queue, if m = n then c.mode = .verifying else m ∈ s.clips.queue) :
    Keeps s (s.setClips x) := by
  refine keeps_setClips (by simp [hx]) (fun h => ?_)
  obtain ⟨⟨hlen, hex, hver⟩, huse⟩ := id h
  have hrec : ∀ m, clipRec (s.setClips x) m = if m = n then c else clipRec s m := by
    intro m
    have := clipRec_setClip n m c s
    simp only [clipRec, setClip, State.setClips_clips] at this ⊢
    simpa [hx, hlen, hn h.1] using this
  have hself : clipRec (s.setClips x) n = c := by rw [hrec, if_pos rfl]
  have hother : ∀ m, m ≠ n → clipRec (s.setClips x) m = clipRec s m := fun m hm => by rw [hrec, if_neg hm]
  refine ⟨⟨by simpa [hx] using hlen, ⟨fun m hm => ?_, fun k m hkm hk hm => ?_⟩, (hq h).1, fun m hm => ?_⟩, fun m => ?_⟩
  · by_cases hmn : m = n
    · subst hmn
      rw [hself] at hm ⊢
      exact (hext h hm).1
    · rw [hother m hmn] at hm ⊢
      exact hex.1 m hm
  · by_cases hkn : k = n
    · subst hkn
      rw [hself] at hk ⊢
      rw [hother m (Ne.symm hkm)] at hm ⊢
      exact ((hext h hk).2 m (Ne.symm hkm) hm).symm
    · rw [hother k hkn] at hk ⊢
      by_cases hmn : m = n
      · subst hmn
        rw [hself] at hm ⊢
        exact (hext h hm).2 k hkn hk
      · rw [hother m hmn] at hm ⊢
        exact hex.2 k m hkm hk hm
  · have hmq := (hq h).2 m hm
    by_cases hmn : m = n
    · subst hmn
      rw [if_pos rfl] at hmq
      rw [hself]
      exact hmq
    · rw [if_neg hmn] at hmq
      rw [hother m hmn]
      exact hver.2 m hmq
  · by_cases hmn : m = n
    · subst hmn
      rw [hself]
      exact ⟨(hu h).1.trans (huse m).1, (hu h).2⟩
    · rw [hother m hmn]
      exact huse m

/-! ## Extents and free runs (R96, R97) -/

theorem mem_insertExtent {e x : Nat × Nat} {es : List (Nat × Nat)} : x ∈ insertExtent e es ↔ x = e ∨ x ∈ es := by
  induction es with
  | nil => simp [insertExtent]
  | cons y es ih =>
    unfold insertExtent
    split
    · simp
    · simp [ih]; tauto

theorem insertExtent_sorted {e : Nat × Nat} {es : List (Nat × Nat)} (h : es.Pairwise (fun x y => x.1 ≤ y.1)) :
    (insertExtent e es).Pairwise (fun x y => x.1 ≤ y.1) := by
  induction es with
  | nil => simp [insertExtent]
  | cons y es ih =>
    obtain ⟨hy, hes⟩ := List.pairwise_cons.mp h
    unfold insertExtent
    split
    case isTrue hlt =>
      refine List.pairwise_cons.mpr ⟨fun x hx => ?_, h⟩
      rcases List.mem_cons.mp hx with rfl | hx
      · omega
      · have := hy x hx; omega
    case isFalse hge =>
      refine List.pairwise_cons.mpr ⟨fun x hx => ?_, ih hes⟩
      rcases mem_insertExtent.mp hx with rfl | hx
      · omega
      · exact hy x hx

/-- The extents stand in ascending order of base. -/
theorem extents_sorted (s : State) : (extents s).Pairwise (fun x y => x.1 ≤ y.1) := by
  unfold extents
  induction (s.clips.clips.filter (fun c => c.mode ≠ .empty)).map (fun c => (c.base, c.length)) with
  | nil => simp
  | cons e es ih => exact insertExtent_sorted ih

theorem mem_foldr_insertExtent {x : Nat × Nat} {es : List (Nat × Nat)} : x ∈ es.foldr insertExtent [] ↔ x ∈ es := by
  induction es with
  | nil => simp
  | cons e es ih => simp [mem_insertExtent, ih]

/-- The extents are those of the clips that are not EMPTY. -/
theorem mem_extents {s : State} {e : Nat × Nat} :
    e ∈ extents s ↔ ∃ n, (clipRec s n).mode ≠ .empty ∧ e = ((clipRec s n).base, (clipRec s n).length) := by
  unfold extents
  rw [mem_foldr_insertExtent, List.mem_map]
  constructor
  · rintro ⟨c, hc, rfl⟩
    obtain ⟨hmem, hmode⟩ := List.mem_filter.mp hc
    obtain ⟨n, hn⟩ := List.mem_iff_getElem?.mp hmem
    have hrec : clipRec s n = c := by simp [clipRec, hn]
    exact ⟨n, by rw [hrec]; simpa using hmode, by rw [hrec]⟩
  · rintro ⟨n, hn, rfl⟩
    have hlt := lt_of_clip_mode hn
    have hrec : clipRec s n = s.clips.clips[n] := by simp [clipRec, hlt]
    refine ⟨clipRec s n, List.mem_filter.mpr ⟨?_, by simpa using hn⟩, rfl⟩
    rw [hrec]
    exact List.getElem_mem hlt

/-- A free run begins no earlier than the place the search begins at, ends inside the region, and meets no extent. -/
theorem freeRunsFrom_apart {es : List (Nat × Nat)} (hs : es.Pairwise (fun x y => x.1 ≤ y.1))
    (hin : ∀ e ∈ es, e.1 + e.2 ≤ Config.clipPositions) {start : Nat} {r : Nat × Nat} (hr : r ∈ freeRunsFrom start es) :
    start ≤ r.1 ∧ r.1 + r.2 ≤ Config.clipPositions ∧ ∀ e ∈ es, e.1 + e.2 ≤ r.1 ∨ r.1 + r.2 ≤ e.1 := by
  induction es generalizing start with
  | nil =>
    unfold freeRunsFrom at hr
    split at hr
    · obtain rfl := List.mem_singleton.mp hr
      simp
      omega
    · simp at hr
  | cons e es ih =>
    obtain ⟨he, hes⟩ := List.pairwise_cons.mp hs
    have hein := hin e (by simp)
    have ih' := fun {b} => @ih hes (fun x hx => hin x (by simp [hx])) b
    unfold freeRunsFrom at hr
    split at hr
    case isTrue hlt =>
      rcases List.mem_cons.mp hr with rfl | hr
      · refine ⟨le_refl _, by simp only; omega, fun x hx => .inr ?_⟩
        rcases List.mem_cons.mp hx with rfl | hx
        · simp only; omega
        · have := he x hx; simp only; omega
      · obtain ⟨h1, h2, h3⟩ := ih' hr
        refine ⟨by omega, h2, fun x hx => ?_⟩
        rcases List.mem_cons.mp hx with rfl | hx
        · exact .inl h1
        · exact h3 x hx
    case isFalse hge =>
      obtain ⟨h1, h2, h3⟩ := ih' hr
      refine ⟨by omega, h2, fun x hx => ?_⟩
      rcases List.mem_cons.mp hx with rfl | hx
      · left; omega
      · exact h3 x hx

/-- The place that first fit gives lies in a free run (R97). -/
theorem firstFit_apart {s : State} (h : ExtentsOk s) {length base : Nat} (hf : firstFit s length = some base) :
    base + length ≤ Config.clipPositions ∧
    ∀ n, (clipRec s n).mode ≠ .empty →
      (clipRec s n).base + (clipRec s n).length ≤ base ∨ base + length ≤ (clipRec s n).base := by
  unfold firstFit at hf
  obtain ⟨r, hfind, rfl⟩ := Option.map_eq_some_iff.mp hf
  have hlen : length ≤ r.2 := by simpa using List.find?_some hfind
  have hin : ∀ e ∈ extents s, e.1 + e.2 ≤ Config.clipPositions := by
    intro e he
    obtain ⟨n, hn, rfl⟩ := mem_extents.mp he
    exact h.1 n hn
  obtain ⟨-, h2, h3⟩ := freeRunsFrom_apart (extents_sorted s) hin (List.mem_of_find?_eq_some hfind)
  refine ⟨by omega, fun n hn => ?_⟩
  have := h3 _ (mem_extents.mpr ⟨n, hn, rfl⟩)
  simp only at this
  omega

/-! ## The Clip Store's operations -/

/-- A clip that is in neither READY nor the count of any channel has no use. -/
theorem uses_zero {s : State} (h : UseOk s) {n : Nat} (hm : (clipRec s n).mode ≠ .ready) : (clipRec s n).uses = 0 := by
  by_contra hne
  exact hm ((h n).2 (Nat.pos_of_ne_zero hne))

theorem keeps_loadPacket (n : Nat) (s : State) (p : Packet) : Keeps s (loadPacket n s p) := by
  unfold loadPacket writePackets
  exact Keeps.trans (keeps_setMem (fun h => Memory.write_wf h _ _)) (keeps_editClip (by rfl))

theorem keeps_reportClip (n : Nat) (s : State) : Keeps s (reportClip n s) := by
  unfold reportClip
  dsimp only
  split
  · exact (keeps_noteClip _ _).trans (keeps_occur _ _)
  · exact keeps_noteClip _ _

theorem keeps_beginPass (k : Nat) (s : State) : Keeps s (beginPass k s) := keeps_setClips_same (by rfl)

theorem keeps_verifyPacket (n : Nat) (s : State) (p : Packet) : Keeps s (verifyPacket n s p) :=
  Keeps.trans (t := s.setClips { s.clips with
    crc := crc32 s.clips.crc p
    syncFailed := s.clips.syncFailed || !hasSync p
    streamFailed := s.clips.streamFailed || (addStream (clipRec s n).streams (streamOf p)).2 }) (keeps_setClips_same (by rfl)) (keeps_editClip (by rfl))

@[simp] theorem verifyPacket_queue (n : Nat) (s : State) (p : Packet) : (verifyPacket n s p).clips.queue = s.clips.queue := rfl

@[simp] theorem verifyPackets_queue (n : Nat) (ps : List Packet) (s : State) :
    (ps.foldl (verifyPacket n) s).clips.queue = s.clips.queue := by
  induction ps generalizing s with
  | nil => rfl
  | cons p ps ih => rw [List.foldl_cons, ih, verifyPacket_queue]

theorem passOutcome_extent (s : State) (c : Clip) :
    (passOutcome s c).base = c.base ∧ (passOutcome s c).length = c.length ∧ (passOutcome s c).uses = c.uses := by
  unfold passOutcome
  (repeat' split) <;> exact ⟨rfl, rfl, rfl⟩

/-- A pass ends with the head of the queue out of it, its record as the outcome says. -/
theorem endPass_eq (n : Nat) (rest : List Nat) (s : State) :
    ∃ x e, endPass n rest s = (s.setClips x).setEv e ∧ x.clips = s.clips.clips.set n (passOutcome s (clipRec s n)) ∧ x.queue = rest := by
  unfold endPass reportClip
  dsimp only
  split <;> exact ⟨_, _, rfl, rfl, rfl⟩

theorem keeps_endPass {n : Nat} {rest : List Nat} {s : State} (hq : s.clips.queue = n :: rest) : Keeps s (endPass n rest s) := by
  obtain ⟨x, e, heq, hclips, hqueue⟩ := endPass_eq n rest s
  obtain ⟨hb, hl, hu⟩ := passOutcome_extent s (clipRec s n)
  have hver : ClipsOk s → (clipRec s n).mode = .verifying := fun h => h.2.2.2 n (by simp [hq])
  rw [heq]
  refine Keeps.trans (keeps_replaceClip hclips (fun h => ?_) (fun h _ => ?_) (fun h => ?_) (fun h => ?_)) (keeps_setEv _ _)
  · rw [← h.1]
    exact lt_of_clip_mode (by simp [hver h])
  · exact apartFrom_kept h.1.2.1 (by simp [hver h.1]) hb hl
  · have hzero := uses_zero h.2 (n := n) (by simp [hver h.1])
    exact ⟨hu, fun hpos => by omega⟩
  · have hnd : (n :: rest).Nodup := hq ▸ h.1.2.2.1
    obtain ⟨hn, hrest⟩ := List.nodup_cons.mp hnd
    rw [hqueue]
    refine ⟨hrest, fun m hm => ?_⟩
    rw [if_neg (by rintro rfl; exact hn hm), hq]
    exact List.mem_cons_of_mem _ hm

theorem keeps_verificationEffect (s : State) : Keeps s (verificationEffect s) := by
  unfold verificationEffect
  split
  case h_1 => exact .refl s
  case h_2 n rest hq =>
    split
    case isFalse => exact .refl s
    case isTrue =>
      dsimp only
      generalize (List.range _).map _ = ps
      generalize (clipRec s n).verified + min stepPackets ((clipRec s n).length - (clipRec s n).verified) = v
      have hread : Keeps s (setClip n { clipRec (ps.foldl (verifyPacket n) s) n with verified := v } (ps.foldl (verifyPacket n) s)) :=
        (Keeps.fold (keeps_verifyPacket n) ps s).trans (keeps_editClip (by rfl))
      split
      · exact (hread.trans (keeps_setClips_same (by rfl))).trans (keeps_endPass (by simpa [setClip] using hq))
      · exact hread.trans (keeps_setClips_same (by rfl))

theorem keeps_reqClipOpen (n : Byte) (f k : BitVec 16) (crc : BitVec 32) (s : State) : Keeps s (reqClipOpen n f k crc s).state := by
  unfold reqClipOpen
  dsimp only
  split
  · exact .refl s
  case isFalse hargs =>
    split
    · exact .refl s
    · split
      · exact .refl s
      case isFalse hempty =>
        rw [not_not] at hempty
        split
        · exact .refl s
        case h_2 base hfit =>
          have hlt : n.toNat < 32 := by omega
          refine keeps_replaceClip rfl (fun _ => hlt) (fun h _ => ?_) (fun h => ?_) (fun h => ?_)
          · obtain ⟨hin, hap⟩ := firstFit_apart h.1.2.1 hfit
            exact ⟨hin, fun m _ hm => hap m hm⟩
          · exact ⟨(uses_zero h.2 (by simp [hempty])).symm, fun hpos => by simp at hpos⟩
          · refine ⟨h.1.2.2.1, fun m hm => ?_⟩
            rw [if_neg]
            · exact hm
            · rintro rfl
              have := h.1.2.2.2 _ hm
              rw [hempty] at this
              cases this

theorem keeps_reqClipData (n : Byte) (ps : List Packet) (s : State) : Keeps s (reqClipData n ps s).state := by
  unfold reqClipData
  split
  · exact .refl s
  · split
    · exact .refl s
    · split
      · exact .refl s
      · exact Keeps.fold (keeps_loadPacket _) _ _

theorem keeps_reqClipSeek (n : Byte) (p : BitVec 32) (s : State) : Keeps s (reqClipSeek n p s).state := by
  unfold reqClipSeek
  dsimp only
  (repeat' split) <;> first
    | exact .refl s
    | exact keeps_editClip (by rfl)

theorem keeps_reqClipClose (n : Byte) (s : State) : Keeps s (reqClipClose n s).state := by
  unfold reqClipClose
  dsimp only
  split
  · exact .refl s
  case isFalse hn =>
    split
    · exact .refl s
    case isFalse hload =>
      rw [not_not] at hload
      have hlt : n.toNat < 32 := by omega
      have hne : (clipRec s n.toNat).mode ≠ .empty := by simp [hload]
      have hnotin : ClipsOk s → n.toNat ∉ s.clips.queue := fun h hm => by
        have := h.2.2.2 _ hm
        rw [hload] at this
        cases this
      have huse (h : UseOk s) (m : ClipMode) : 0 < (clipRec s n.toNat).uses → m = .ready := fun hpos => by
        have := uses_zero h (n := n.toNat) (by simp [hload])
        omega
      split
      · refine Keeps.trans (t := setClip n.toNat { clipRec s n.toNat with mode := .rejected, reason := some .coverage } s)
          (keeps_replaceClip rfl (fun _ => hlt) (fun h _ => apartFrom_kept h.1.2.1 hne rfl rfl)
          (fun h => ⟨rfl, huse h.2 _⟩) (fun h => ⟨h.1.2.2.1, fun m hm => ?_⟩)) (keeps_reportClip _ _)
        rw [if_neg (by rintro rfl; exact hnotin h.1 hm)]
        exact hm
      · have hqueued : Keeps s (setQueue (s.clips.queue ++ [n.toNat])
            (setClip n.toNat { clipRec s n.toNat with mode := .verifying, verified := 0 } s)) := by
          refine keeps_replaceClip rfl (fun _ => hlt) (fun h _ => apartFrom_kept h.1.2.1 hne rfl rfl) (fun h => ⟨rfl, huse h.2 _⟩)
            (fun h => ⟨?_, fun m hm => ?_⟩)
          · exact List.nodup_append.mpr ⟨h.1.2.2.1, by simp, fun a ha b hb => by
              obtain rfl := List.mem_singleton.mp hb
              exact fun he => hnotin h.1 (he ▸ ha)⟩
          · split
            · rfl
            case isFalse hmn => simpa [hmn, setClip] using hm
        simp only [ok]
        split
        · exact hqueued.trans (keeps_beginPass _ _)
        · exact hqueued

theorem keeps_deleteClip {n : Nat} {s : State} (hm : (clipRec s n).mode ≠ .empty) (hu : (clipRec s n).uses = 0) :
    Keeps s (deleteClip n s) := by
  have hcleared : Keeps s (setQueue (s.clips.queue.filter (fun q => q ≠ n)) (setClip n {} s)) := by
    refine keeps_replaceClip rfl (fun h => ?_) (fun _ h => absurd rfl h) (fun _ => ⟨hu.symm, fun hpos => by simp at hpos⟩)
      (fun h => ⟨h.1.2.2.1.filter _, fun m hmem => ?_⟩)
    · rw [← h.1]
      exact lt_of_clip_mode hm
    · have hmem : m ∈ s.clips.queue ∧ m ≠ n := by simpa using hmem
      rw [if_neg hmem.2]
      exact hmem.1
  unfold deleteClip
  dsimp only
  split
  · exact hcleared.trans (keeps_beginPass _ _)
  · exact hcleared

theorem keeps_reqClipDelete (n : Byte) (s : State) : Keeps s (reqClipDelete n s).state := by
  unfold reqClipDelete
  dsimp only
  split
  · exact .refl s
  · split
    · exact .refl s
    case isFalse hm =>
      split
      · exact .refl s
      case isFalse hu => exact keeps_deleteClip hm (by omega)

end Sys2Proof.Machine
end

section
/-! PROOF, the invariants that every step keeps: Splicing (06), whose channels, cue entries and clip uses fit together. -/

namespace Sys2Proof.Machine
open Sys2Proof

/-! ## The channels' use of a clip -/

/-- Whether a channel is ARMED or ACTIVE with clip k, as a count. -/
def clipUse (k : Nat) (c : Option Channel) : Nat := if c.any (fun c => c.clip == k) then 1 else 0

theorem channelsWith_length (s : State) (k : Nat) : (channelsWith s k).length =
    clipUse k s.splice.channels.n1 + clipUse k s.splice.channels.n2 + clipUse k s.splice.channels.n3 + clipUse k s.splice.channels.n4 := by
  simp only [channelsWith, Four.all, ← List.countP_eq_length_filter, List.countP_cons, List.countP_nil, PerFour.get, clipUse]
  omega

/-- A channel replaced moves the count of its clip. -/
theorem channelsWith_set {s t : State} {n : Four} {v : Option Channel} (h : t.splice.channels = s.splice.channels.set n v) (k : Nat) :
    (channelsWith t k).length + clipUse k (s.splice.channels.get n) = (channelsWith s k).length + clipUse k v := by
  rw [channelsWith_length, channelsWith_length, h]
  cases n <;> simp only [PerFour.set, PerFour.get] <;> omega

theorem clipUse_some (k : Nat) (c : Channel) : clipUse k (some c) = if c.clip = k then 1 else 0 := by simp [clipUse]

theorem clipUse_none (k : Nat) : clipUse k none = 0 := rfl

/-! ## Building blocks -/

/-- What Splicing's operations must bring for each invariant. -/
theorem keepsRest_splice {s t : State} (h : OnlySplice s t) (hst : t.store = s.store)
    (hn : s.splice.cues.length ≤ 16 → t.splice.cues.length ≤ 16) (hs : t.splice.services = s.splice.services)
    (hp : t.splice.plans = s.splice.plans) (hl : t.clips.clips.length = s.clips.clips.length)
    (hk : ClipsOk s ∧ UseOk s → ClipsOk t ∧ UseOk t) : KeepsRest s t := by
  have h' : t = { s with store := t.store, clips := t.clips, splice := t.splice, ev := t.ev } := h
  have hmem : t.mem = s.mem := (congrArg State.mem h' :)
  have hclock : t.clock = s.clock := (congrArg State.clock h' :)
  have hdrive : t.drive = s.drive := (congrArg State.drive h' :)
  have halarms : t.alarms = s.alarms := (congrArg State.alarms h' :)
  have hlink : t.link = s.link := (congrArg State.link h' :)
  refine ⟨?_, ?_, ?_, ?_, fun hok => ?_, ?_, hk⟩
  · unfold MemoryOk; rw [hmem]; exact id
  · unfold TimeOk ClockOk; rw [hclock]; exact id
  · unfold LevelOk; rw [hdrive]; exact id
  · unfold EpochsOk; rw [halarms]; exact id
  · obtain ⟨hq, hnotices, hcues, ht, hslots, hclips, hrest⟩ := hok
    exact ⟨by rw [hlink]; exact hq, by rw [halarms]; exact hnotices, hn hcues, by rw [hs, hp]; exact ht, by rw [hst]; exact hslots,
      hl.trans hclips, by rw [halarms, hlink]; exact hrest⟩
  · unfold SlotsOk; rw [hst]; exact id

/-- Whether the cue table and the channels fit together is seen from them alone. -/
theorem cuesOk_congr {s t : State} (hc : t.splice.cues = s.splice.cues) (hch : t.splice.channels = s.splice.channels) :
    CuesOk t ↔ CuesOk s := by
  simp only [CuesOk, EntryOk, hc, hch]

/-- No channel is bound to an avail. -/
def Unbound (avail : Nat) (s : State) : Prop := ∀ n c, s.splice.channels.get n = some c → c.avail ≠ avail

/-- Of one avail there is one entry. -/
theorem entry_unique {s : State} (h : CuesOk s) {e f : CueEntry} (he : e ∈ s.splice.cues) (hf : f ∈ s.splice.cues)
    (ha : e.avail = f.avail) : e = f :=
  List.inj_on_of_nodup_map h.1 he hf ha

/-- An avail whose entry has no channel is bound to none. -/
theorem unbound_of_entry {s : State} (h : CuesOk s) {e : CueEntry} (he : e ∈ s.splice.cues) (hn : e.channel = none) :
    Unbound e.avail s := by
  intro n c hc ha
  obtain ⟨f, hf, hfa, hfc⟩ := h.2.2.1 n c hc
  rw [entry_unique h he hf (by rw [hfa, ha]), hfc] at hn
  cases hn

/-- An avail without an entry is bound to no channel. -/
theorem unbound_of_no_entry {s : State} (h : CuesOk s) {a : Nat} (hn : ∀ e ∈ s.splice.cues, e.avail ≠ a) : Unbound a s := by
  rintro n c hc rfl
  obtain ⟨f, hf, hfa, -⟩ := h.2.2.1 n c hc
  exact hn f hf hfa

/-- An entry that waits or is unfilled has no channel. -/
theorem channel_none_of_mode {s : State} {e : CueEntry} (h : EntryOk s e) (hm : e.mode = .waiting ∨ e.mode = .unfilled) :
    e.channel = none := by
  unfold EntryOk at h
  split at h
  · assumption
  · obtain ⟨hbound, -⟩ := h
    rcases hm with hm | hm <;> simp [hm] at hbound

/-- The channel of an entry that is armed or active. -/
theorem entry_channel {s : State} {e : CueEntry} {n : Four} (h : EntryOk s e) (hn : e.channel = some n) :
    (e.mode = .armed ∨ e.mode = .active) ∧ ∃ c, s.splice.channels.get n = some c ∧ c.avail = e.avail ∧ c.service = e.service := by
  unfold EntryOk at h
  split at h
  · simp_all
  · simp_all

/-! ## The cue table: each operation on it -/

theorem cuesOk_removeCue {s : State} (h : CuesOk s) {a : Nat} (hu : Unbound a s) : CuesOk (removeCue a s) := by
  obtain ⟨hnd, hent, hch, hserv⟩ := h
  refine ⟨(List.filter_sublist.map _).nodup hnd, fun e he => hent e (List.mem_filter.mp he).1, fun n c hc => ?_, hserv⟩
  obtain ⟨e, he, hea, hec⟩ := hch n c hc
  exact ⟨e, List.mem_filter.mpr ⟨he, by simpa [hea] using hu n c hc⟩, hea, hec⟩

/-- The entry of an avail without a channel put into a state without a channel. -/
theorem cuesOk_unbind {s : State} (h : CuesOk s) {a : Nat} (hu : Unbound a s) {m : CueMode} (hm : m = .waiting ∨ m = .unfilled) :
    CuesOk (editCue a (fun e => { e with mode := m, channel := none }) s) := by
  obtain ⟨hnd, hent, hch, hserv⟩ := h
  refine ⟨?_, fun e he => ?_, fun n c hc => ?_, hserv⟩
  · have hmap : (s.splice.cues.map (fun e => if e.avail = a then { e with mode := m, channel := none } else e)).map CueEntry.avail =
        s.splice.cues.map CueEntry.avail := by
      rw [List.map_map]
      exact List.map_congr_left (fun e _ => by simp only [Function.comp]; split <;> rfl)
    exact hmap ▸ hnd
  · obtain ⟨f, hf, rfl⟩ := List.mem_map.mp he
    split
    · exact hm
    · exact hent f hf
  · obtain ⟨e, he, hea, hec⟩ := hch n c hc
    exact ⟨e, List.mem_map.mpr ⟨e, he, if_neg (hea ▸ hu n c hc)⟩, hea, hec⟩

/-- An entry edited in the fields that the fit does not look at. -/
theorem cuesOk_editCue {s : State} (h : CuesOk s) {a : Nat} {f : CueEntry → CueEntry}
    (hf : ∀ e, (f e).avail = e.avail ∧ (f e).service = e.service ∧ (f e).mode = e.mode ∧ (f e).channel = e.channel) :
    CuesOk (editCue a f s) := by
  obtain ⟨hnd, hent, hch, hserv⟩ := h
  have hsame : ∀ e, (if e.avail = a then f e else e).avail = e.avail ∧ (if e.avail = a then f e else e).service = e.service ∧
      (if e.avail = a then f e else e).mode = e.mode ∧ (if e.avail = a then f e else e).channel = e.channel := by
    intro e
    split
    · exact hf e
    · exact ⟨rfl, rfl, rfl, rfl⟩
  refine ⟨?_, fun e he => ?_, fun n c hc => ?_, hserv⟩
  · have hmap : (s.splice.cues.map (fun e => if e.avail = a then f e else e)).map CueEntry.avail = s.splice.cues.map CueEntry.avail := by
      rw [List.map_map]
      exact List.map_congr_left (fun e _ => (hsame e).1)
    exact hmap ▸ hnd
  · obtain ⟨x, hx, rfl⟩ := List.mem_map.mp he
    have := hent x hx
    obtain ⟨h1, h2, h3, h4⟩ := hsame x
    unfold EntryOk at this ⊢
    simpa only [h1, h2, h3, h4, editCue, setCues, State.setSplice_splice] using this
  · obtain ⟨e, he, hea, hec⟩ := hch n c hc
    exact ⟨_, List.mem_map.mpr ⟨e, he, rfl⟩, (hsame e).1.trans hea, (hsame e).2.2.2.trans hec⟩

/-- A bound channel replaced by one of the same avail and service. -/
theorem cuesOk_setChannel {s : State} (h : CuesOk s) {n : Four} {c d : Channel} (hc : s.splice.channels.get n = some c)
    (ha : d.avail = c.avail) (hv : d.service = c.service) : CuesOk (setChannel n (some d) s) := by
  obtain ⟨hnd, hent, hch, hserv⟩ := h
  have hget : ∀ m, (setChannel n (some d) s).splice.channels.get m = if m = n then some d else s.splice.channels.get m :=
    fun m => PerFour.get_set _ _ _ _
  have hback : ∀ m x, (setChannel n (some d) s).splice.channels.get m = some x →
      ∃ y, s.splice.channels.get m = some y ∧ y.avail = x.avail ∧ y.service = x.service := by
    intro m x hx
    rw [hget] at hx
    split at hx
    case isTrue hm => cases hx; exact ⟨c, hm ▸ hc, ha.symm, hv.symm⟩
    case isFalse => exact ⟨x, hx, rfl, rfl⟩
  refine ⟨hnd, fun e he => ?_, fun m x hx => ?_, fun m k x y hx hy hxy => ?_⟩
  · have := hent e he
    unfold EntryOk at this ⊢
    split
    · simp_all
    case h_2 m hm =>
      simp only [hm] at this
      obtain ⟨hmode, x, hx, hxa, hxv⟩ := this
      refine ⟨hmode, ?_⟩
      rw [hget]
      split
      case isTrue hmn => subst hmn; rw [hc] at hx; cases hx; exact ⟨d, rfl, ha.trans hxa, hv.trans hxv⟩
      case isFalse => exact ⟨x, hx, hxa, hxv⟩
  · obtain ⟨y, hy, hya, -⟩ := hback m x hx
    rw [← hya]
    exact hch m y hy
  · obtain ⟨x', hx', -, hxs⟩ := hback m x hx
    obtain ⟨y', hy', -, hys⟩ := hback k y hy
    exact hserv m k x' y' hx' hy' (by rw [hxs, hys, hxy])

theorem cuesOk_releaseChannel {s : State} (h : CuesOk s) {n : Four} {c : Channel} (hc : s.splice.channels.get n = some c) :
    CuesOk (releaseChannel n c s) := by
  obtain ⟨hnd, hent, hch, hserv⟩ := id h
  have hcues : (releaseChannel n c s).splice.cues = s.splice.cues.filter (fun e => e.avail ≠ c.avail) := rfl
  have hget : ∀ m, (releaseChannel n c s).splice.channels.get m = if m = n then none else s.splice.channels.get m :=
    fun m => PerFour.get_set _ _ _ _
  have hback : ∀ m x, (releaseChannel n c s).splice.channels.get m = some x → m ≠ n ∧ s.splice.channels.get m = some x := by
    intro m x hx
    rw [hget] at hx
    split at hx
    · cases hx
    case isFalse hm => exact ⟨hm, hx⟩
  refine ⟨?_, fun e he => ?_, fun m x hx => ?_, fun m k x y hx hy => hserv m k x y (hback m x hx).2 (hback k y hy).2⟩
  · rw [hcues]
    exact (List.filter_sublist.map _).nodup hnd
  · rw [hcues] at he
    obtain ⟨hmem, hne⟩ := List.mem_filter.mp he
    have := hent e hmem
    unfold EntryOk at this ⊢
    split
    · simp_all
    case h_2 m hm =>
      simp only [hm] at this
      obtain ⟨hmode, x, hx, hxa, hxv⟩ := this
      refine ⟨hmode, x, ?_, hxa, hxv⟩
      rw [hget, if_neg]
      · exact hx
      · rintro rfl
        rw [hc] at hx
        cases hx
        simp [hxa] at hne
  · obtain ⟨hmn, hx'⟩ := hback m x hx
    obtain ⟨e, he, hea, hec⟩ := hch m x hx'
    refine ⟨e, ?_, hea, hec⟩
    rw [hcues]
    refine List.mem_filter.mpr ⟨he, ?_⟩
    obtain ⟨f, hf, hfa, hfc⟩ := hch n c hc
    have : e.avail ≠ c.avail := fun hac => by
      rw [entry_unique h he hf (hac.trans hfa.symm), hfc] at hec
      exact hmn (Option.some.inj hec).symm
    simpa using this

/-- The channel and the entry that a binding makes (R115). -/
theorem cuesOk_bindChannel {s : State} (h : CuesOk s) {n : Four} {e : CueEntry} (p : Plan) (hn : s.splice.channels.get n = none)
    (hs : serviceBound s e.service = false)
    (he : ∃ x ∈ s.splice.cues, x.avail = e.avail ∧ x.service = e.service ∧ (x.mode = .waiting ∨ x.mode = .unfilled)) :
    CuesOk (bindChannel n e p s) := by
  obtain ⟨hnd, hent, hch, hserv⟩ := id h
  obtain ⟨x, hx, hxa, hxs, hxm⟩ := he
  have hu : Unbound e.avail s := hxa ▸ unbound_of_entry h hx (channel_none_of_mode (hent x hx) hxm)
  have hfree : ∀ m c, s.splice.channels.get m = some c → c.service ≠ e.service := by
    intro m c hc hse
    have : serviceBound s e.service = true := List.any_eq_true.mpr ⟨m, Four.mem_all m, by simp [hc, hse]⟩
    rw [hs] at this
    cases this
  have hcues : (bindChannel n e p s).splice.cues =
      s.splice.cues.map (fun f => if f.avail = e.avail then { f with mode := .armed, channel := some n } else f) := rfl
  obtain ⟨d, hd, hda, hds⟩ : ∃ d, (bindChannel n e p s).splice.channels = s.splice.channels.set n (some d) ∧ d.avail = e.avail ∧
      d.service = e.service := ⟨_, rfl, rfl, rfl⟩
  have hget : ∀ m, (bindChannel n e p s).splice.channels.get m = if m = n then some d else s.splice.channels.get m := fun m => by
    rw [hd, PerFour.get_set]
  refine ⟨?_, fun f hf => ?_, fun m c hc => ?_, fun m k c c' hc hc' hcc => ?_⟩
  · have hmap : (bindChannel n e p s).splice.cues.map CueEntry.avail = s.splice.cues.map CueEntry.avail := by
      rw [hcues, List.map_map]
      exact List.map_congr_left (fun f _ => by simp only [Function.comp]; split <;> rfl)
    rw [hmap]
    exact hnd
  · rw [hcues] at hf
    obtain ⟨g, hg, rfl⟩ := List.mem_map.mp hf
    split
    case isTrue hga =>
      refine ⟨.inl rfl, d, by rw [hget, if_pos rfl], hda.trans hga.symm, ?_⟩
      rw [hds, ← hxs, entry_unique h hg hx (hga.trans hxa.symm)]
    case isFalse hga =>
      have := hent g hg
      unfold EntryOk at this ⊢
      split
      · simp_all
      case h_2 m hm =>
        simp only [hm] at this
        obtain ⟨hmode, c, hc, hca, hcs⟩ := this
        refine ⟨hmode, c, ?_, hca, hcs⟩
        rw [hget, if_neg]
        · exact hc
        · rintro rfl
          rw [hn] at hc
          cases hc
  · rw [hget] at hc
    split at hc
    case isTrue hm =>
      cases hc
      exact ⟨{ x with mode := .armed, channel := some n }, by rw [hcues]; exact List.mem_map.mpr ⟨x, hx, if_pos hxa⟩, hxa.trans hda.symm,
        by rw [hm]⟩
    case isFalse =>
      obtain ⟨f, hf, hfa, hfc⟩ := hch m c hc
      exact ⟨f, by rw [hcues]; exact List.mem_map.mpr ⟨f, hf, if_neg (hfa ▸ hu m c hc)⟩, hfa, hfc⟩
  · rw [hget] at hc hc'
    split at hc <;> split at hc'
    · simp_all
    · cases hc
      exact absurd (hcc.symm.trans hds) (hfree k c' hc')
    · cases hc'
      exact absurd (hcc.trans hds) (hfree m c hc)
    · exact hserv m k c c' hc hc' hcc

/-! ## The building blocks' other invariants -/

theorem keeps_countCue (f : CueCounts → CueCounts) (s : State) : Keeps s (countCue f s) := keeps_setSplice_same (by rfl)

/-- A cue table replaced: only its length bears on the invariants other than its own. -/
theorem keepsRest_setCues {s : State} {cues : List CueEntry} (h : s.splice.cues.length ≤ 16 → cues.length ≤ 16) :
    KeepsRest s (setCues cues s) :=
  keepsRest_splice (setSplice_only _ s) rfl h rfl rfl rfl id

theorem keepsRest_editCue (a : Nat) (f : CueEntry → CueEntry) (s : State) : KeepsRest s (editCue a f s) :=
  keepsRest_setCues (fun h => by simpa using h)

theorem keepsRest_removeCue (a : Nat) (s : State) : KeepsRest s (removeCue a s) :=
  keepsRest_setCues (fun h => (List.length_filter_le _ _).trans h)

/-- A channel replaced by one with the same clip. -/
theorem keepsRest_setChannel {s : State} {n : Four} {c d : Channel} (hc : s.splice.channels.get n = some c) (hd : d.clip = c.clip) :
    KeepsRest s (setChannel n (some d) s) := by
  refine keepsRest_splice (setChannel_only _ _ _) rfl id rfl rfl rfl (fun h => ⟨h.1, fun k => ?_⟩)
  have := channelsWith_set (t := setChannel n (some d) s) (n := n) (v := some d) rfl k
  rw [hc, clipUse_some, clipUse_some, hd, Nat.add_right_cancel_iff] at this
  rw [this]
  exact h.2 k

theorem keeps_setChannel {s : State} {n : Four} {c d : Channel} (hc : s.splice.channels.get n = some c) (hd : d.clip = c.clip)
    (ha : d.avail = c.avail) (hv : d.service = c.service) : Keeps s (setChannel n (some d) s) :=
  ⟨keepsRest_setChannel hc hd, fun h => cuesOk_setChannel h hc ha hv⟩

/-- A clip whose use count moves with the channel that is bound to it or freed. -/
theorem use_moves {s t : State} {n : Four} {v : Option Channel} {k : Nat} {c : Clip} (hk : k < s.clips.clips.length)
    (hclips : t.clips.clips = s.clips.clips.set k c) (hqueue : t.clips.queue = s.clips.queue)
    (hch : t.splice.channels = s.splice.channels.set n v) (hm : c.mode = (clipRec s k).mode) (hb : c.base = (clipRec s k).base)
    (hl : c.length = (clipRec s k).length) (hready : (clipRec s k).mode = .ready)
    (hu : UseOk s → c.uses + clipUse k (s.splice.channels.get n) = (clipRec s k).uses + clipUse k v)
    (ho : ∀ j, j ≠ k → clipUse j (s.splice.channels.get n) = clipUse j v) (h : ClipsOk s ∧ UseOk s) : ClipsOk t ∧ UseOk t := by
  have hrec : ∀ j, clipRec t j = if j = k then c else clipRec s j := by
    intro j
    have := clipRec_setClip k j c s
    simp only [clipRec, setClip, State.setClips_clips, hk, and_true] at this
    simpa only [clipRec, hclips] using this
  refine ⟨clipsOk_congr (by simp [hclips]) hqueue (fun j => ?_) h.1, fun j => ?_⟩
  · rw [hrec]
    split
    case isTrue hj => rw [hj]; exact ⟨hm, hb, hl⟩
    case isFalse => exact ⟨rfl, rfl, rfl⟩
  · have hmove := channelsWith_set hch j
    rw [hrec]
    split
    case isTrue hj =>
      subst hj
      have h1 := hu h.2
      have h2 := (h.2 j).1
      exact ⟨by omega, fun _ => hm.trans hready⟩
    case isFalse hj =>
      rw [ho j hj, Nat.add_right_cancel_iff] at hmove
      rw [hmove]
      exact h.2 j

theorem ready_of_usable {s : State} {k : Nat} (h : clipUsable s k = true) : (clipRec s k).mode = .ready := by
  simp only [clipUsable, Bool.and_eq_true, beq_iff_eq] at h
  exact h.1

theorem keepsRest_bindChannel {s : State} {n : Four} (e : CueEntry) {p : Plan} (hn : s.splice.channels.get n = none)
    (hu : clipUsable s p.clip = true) : KeepsRest s (bindChannel n e p s) := by
  have hready := ready_of_usable hu
  refine keepsRest_splice (bindChannel_only _ _ _ _) rfl (fun h => ?_) rfl rfl (by simp [bindChannel, noteChannel, noteSplice, editCue, setCues, setClip, setChannel]) ?_
  · simpa [bindChannel, noteChannel, noteSplice, editCue, setCues, setClip, setChannel] using h
  · refine use_moves (lt_of_clip_mode (by rw [hready]; nofun)) rfl rfl rfl rfl rfl rfl hready (fun _ => ?_) (fun j hj => ?_)
    · rw [hn, clipUse_none, clipUse_some, if_pos rfl]
    · rw [hn, clipUse_none, clipUse_some, if_neg (fun h => hj h.symm)]

theorem keepsRest_releaseChannel {s : State} {n : Four} {c : Channel} (hc : s.splice.channels.get n = some c) :
    KeepsRest s (releaseChannel n c s) := by
  refine keepsRest_splice (releaseChannel_only _ _ _) rfl (fun h => ?_) rfl rfl (by simp [releaseChannel, removeCue, setCues, setClip, setChannel])
    (fun h => ?_)
  · exact (List.length_filter_le _ _).trans h
  · have hpos : 0 < (clipRec s c.clip).uses := by
      rw [(h.2 c.clip).1]
      have := channelsWith_set (s := s) (t := setChannel n none s) (n := n) (v := none) rfl c.clip
      rw [hc, clipUse_some, if_pos rfl, clipUse_none] at this
      omega
    have hready := (h.2 c.clip).2 hpos
    refine use_moves (s := s) (n := n) (v := none) (lt_of_clip_mode (by rw [hready]; nofun)) rfl rfl rfl rfl rfl rfl hready (fun _ => ?_)
      (fun j hj => ?_) h
    · rw [hc, clipUse_none, clipUse_some, if_pos rfl]
      change (clipRec s c.clip).uses - 1 + 1 = _
      omega
    · rw [hc, clipUse_none, clipUse_some, if_neg (fun h => hj h.symm)]

theorem keeps_releaseChannel {s : State} {n : Four} {c : Channel} (hc : s.splice.channels.get n = some c) :
    Keeps s (releaseChannel n c s) :=
  ⟨keepsRest_releaseChannel hc, fun h => cuesOk_releaseChannel h hc⟩

theorem keeps_disarm {s : State} {n : Four} {c : Channel} (hc : s.splice.channels.get n = some c) : Keeps s (disarm n c s) :=
  (keeps_noteChannel n c 4 0 s).trans (keeps_releaseChannel hc)

theorem keepsRest_turnUnfilled (a : Nat) (s : State) : KeepsRest s (turnUnfilled a s) :=
  ((keepsRest_editCue _ _ s).trans (keeps_countCue _ _).toKeepsRest).trans (keeps_occur _ _).toKeepsRest

/-! ## Arbitration (R119) -/

theorem insertCue_perm (ref : Seq) (e : CueEntry) (es : List CueEntry) : (insertCue ref e es).Perm (e :: es) := by
  induction es with
  | nil => rfl
  | cons x es ih =>
    unfold insertCue
    split
    · rfl
    · exact (ih.cons x).trans (List.Perm.swap e x es)

/-- The table order is an order of the table. -/
theorem orderedCues_perm (s : State) : (orderedCues s).Perm s.splice.cues := by
  unfold orderedCues
  induction s.splice.cues with
  | nil => rfl
  | cons e es ih => exact (insertCue_perm _ _ _).trans (ih.cons e)

theorem mem_orderedCues {s : State} {e : CueEntry} : e ∈ orderedCues s ↔ e ∈ s.splice.cues := (orderedCues_perm s).mem_iff

/-- The candidate is an entry that waits, and no channel is bound to its service. -/
theorem candidate_some {s : State} {e : CueEntry} (h : candidate s = some e) :
    e ∈ s.splice.cues ∧ e.mode = .waiting ∧ serviceBound s e.service = false := by
  unfold candidate at h
  have hp := List.find?_some h
  simp only [Bool.and_eq_true, decide_eq_true_eq, Bool.not_eq_true'] at hp
  exact ⟨mem_orderedCues.mp (List.mem_of_find?_eq_some h), hp⟩

theorem keeps_arbitrateLoop (fuel : Nat) (n : Four) {s : State} (hn : s.splice.channels.get n = none) : Keeps s (arbitrateLoop fuel n s) := by
  induction fuel generalizing s with
  | zero => exact .refl s
  | succ fuel ih =>
    unfold arbitrateLoop
    split
    case h_1 => exact .refl s
    case h_2 e he =>
      obtain ⟨hmem, hmode, hserv⟩ := candidate_some he
      have hunbound : CuesOk s → Unbound e.avail s := fun h =>
        unbound_of_entry h hmem (channel_none_of_mode (h.2.1 e hmem) (.inl hmode))
      have hdropped : Keeps s (occur 18 (countDropped (removeCue e.avail s))) :=
        ((show Keeps s (removeCue e.avail s) from ⟨keepsRest_removeCue _ _, fun h => cuesOk_removeCue h (hunbound h)⟩).trans
          (keeps_countCue _ _)).trans (keeps_occur _ _)
      have hunfilled : Keeps s (turnUnfilled e.avail s) :=
        ⟨keepsRest_turnUnfilled _ _, fun h => cuesOk_unbind h (hunbound h) (.inr rfl)⟩
      split
      · exact hdropped.trans (ih hn)
      · split
        · exact hunfilled.trans (ih hn)
        case h_2 p _ =>
          split
          case isTrue hp =>
            exact ⟨keepsRest_bindChannel e hn hp, fun h => cuesOk_bindChannel h p hn hserv ⟨e, hmem, rfl, rfl, .inl hmode⟩⟩
          case isFalse => exact hunfilled.trans (ih hn)

theorem keeps_arbitrate (n : Four) (s : State) : Keeps s (arbitrate n s) := by
  unfold arbitrate
  split
  case isTrue h => exact keeps_arbitrateLoop _ _ (by simpa using h)
  case isFalse => exact .refl s

/-! ## Returns (R124) -/

theorem keeps_markResync (v : Nat) (s : State) : Keeps s (markResync v s) := by
  unfold markResync
  split
  · exact keeps_setSplice_same (by rfl)
  · exact .refl s

theorem keeps_endSplice {s : State} {n : Four} {c : Channel} (hc : s.splice.channels.get n = some c) (r : ReturnReason) :
    Keeps s (endSplice n c r s) := by
  have hended : Keeps s (markResync c.service (releaseChannel n c (noteChannel n c 3 (reasonCode r) s))) :=
    ((keeps_noteChannel n c 3 (reasonCode r) s).trans (keeps_releaseChannel hc)).trans (keeps_markResync _ _)
  unfold endSplice
  dsimp only
  split
  · exact hended.trans (keeps_occur _ _)
  · exact hended

theorem keeps_returnChannel {s : State} {n : Four} {c : Channel} (hc : s.splice.channels.get n = some c) (r : ReturnReason) :
    Keeps s (returnChannel n c r s) := by
  unfold returnChannel
  dsimp only
  split
  · exact keeps_endSplice hc r
  · exact (keeps_endSplice hc r).trans (keeps_arbitrate _ _)

/-! ## Judging cues (R111 to R117) -/

theorem cueOf_some {s : State} {a : Nat} {e : CueEntry} (h : cueOf s a = some e) : e ∈ s.splice.cues ∧ e.avail = a := by
  unfold cueOf at h
  exact ⟨List.mem_of_find?_eq_some h, by simpa using List.find?_some h⟩

theorem cueOf_none {s : State} {a : Nat} (h : cueOf s a = none) : ∀ e ∈ s.splice.cues, e.avail ≠ a := by
  unfold cueOf at h
  simpa using h

/-- What the judging of a cue knows of the entry of its avail: a new cue has none, and the entry judged again is UNFILLED, of the same
service. -/
def CuePlace (c : OutCue) (again : Bool) (s : State) : Prop :=
  if again then ∃ e, cueOf s c.avail = some e ∧ e.mode = .unfilled ∧ e.service = c.service else cueOf s c.avail = none

theorem CuePlace.unbound {c : OutCue} {again : Bool} {s : State} (hp : CuePlace c again s) (h : CuesOk s) : Unbound c.avail s := by
  cases again with
  | false => exact unbound_of_no_entry h (cueOf_none hp)
  | true =>
    obtain ⟨e, he, hm, -⟩ := hp
    obtain ⟨hmem, ha⟩ := cueOf_some he
    exact ha ▸ unbound_of_entry h hmem (channel_none_of_mode (h.2.1 e hmem) (.inr hm))

/-- The entry that a new cue makes (R113). -/
def newEntry (c : OutCue) (m : CueMode) (s : State) : CueEntry :=
  { avail := c.avail, service := c.service, start := c.start, duration := c.duration,
    ending := c.start + BitVec.ofNat 16 c.duration, source := c.source, carrying := c.carrying, mode := m, channel := none,
    order := s.splice.accepted + 1 }

theorem enterCue_new (c : OutCue) (m : CueMode) (s : State) : enterCue c false m s =
    countCue (fun k => { k with new := sat 65535 (k.new + 1) })
      (s.setSplice { s.splice with cues := s.splice.cues ++ [newEntry c m s], accepted := s.splice.accepted + 1 }) := rfl

theorem enterCue_again (c : OutCue) (m : CueMode) (s : State) : enterCue c true m s =
    editCue c.avail (fun e => { e with mode := m, channel := none }) s := rfl

theorem keepsRest_enterCue {c : OutCue} {again : Bool} (m : CueMode) {s : State} (hl : again = false → s.splice.cues.length < 16) :
    KeepsRest s (enterCue c again m s) := by
  cases again with
  | true => exact keepsRest_editCue _ _ _
  | false =>
    rw [enterCue_new]
    refine KeepsRest.trans ?_ (keeps_countCue _ _).toKeepsRest
    refine keepsRest_splice (setSplice_only _ s) rfl (fun _ => ?_) rfl rfl rfl id
    simpa using Nat.succ_le_of_lt (hl rfl)

theorem cuesOk_enterCue {c : OutCue} {again : Bool} {m : CueMode} {s : State} (hp : CuePlace c again s) (h : CuesOk s)
    (hm : m = .waiting ∨ m = .unfilled) : CuesOk (enterCue c again m s) := by
  cases again with
  | true => exact cuesOk_unbind h (hp.unbound h) hm
  | false =>
    rw [enterCue_new]
    have hno := cueOf_none hp
    obtain ⟨hnd, hent, hch, hserv⟩ := h
    refine (keeps_countCue _ _).cues ⟨?_, fun e he => ?_, fun n d hd => ?_, hserv⟩
    · simp only [State.setSplice_splice, List.map_append, List.map_cons, List.map_nil]
      refine List.nodup_append.mpr ⟨hnd, by simp, fun a ha b hb => ?_⟩
      obtain ⟨e, he, rfl⟩ := List.mem_map.mp ha
      obtain rfl := List.mem_singleton.mp hb
      exact hno e he
    · simp only [State.setSplice_splice] at he
      rcases List.mem_append.mp he with he | he
      · exact hent e he
      · obtain rfl := List.mem_singleton.mp he
        exact hm
    · obtain ⟨e, he, hea, hec⟩ := hch n d hd
      exact ⟨e, List.mem_append_left _ he, hea, hec⟩

/-- The entry that `enterCue` leaves for the avail. -/
theorem enterCue_entry {c : OutCue} {again : Bool} (m : CueMode) {s : State} (hp : CuePlace c again s) :
    ∃ x ∈ (enterCue c again m s).splice.cues, x.avail = c.avail ∧ x.service = c.service ∧ x.mode = m := by
  unfold enterCue
  cases again with
  | true =>
    obtain ⟨e, he, -, hs⟩ := hp
    obtain ⟨hmem, ha⟩ := cueOf_some he
    exact ⟨{ e with mode := m, channel := none }, List.mem_map.mpr ⟨e, hmem, if_pos ha⟩, ha, hs, rfl⟩
  | false => exact ⟨_, List.mem_append_right _ (List.mem_singleton.mpr rfl), rfl, rfl, rfl⟩

@[simp] theorem enterCue_channels (c : OutCue) (again : Bool) (m : CueMode) (s : State) :
    (enterCue c again m s).splice.channels = s.splice.channels := by
  unfold enterCue
  split <;> rfl

@[simp] theorem enterCue_clips (c : OutCue) (again : Bool) (m : CueMode) (s : State) : (enterCue c again m s).clips = s.clips := by
  unfold enterCue
  split <;> rfl

@[simp] theorem enterCue_live (c : OutCue) (again : Bool) (m : CueMode) (s : State) : (enterCue c again m s).live = s.live := by
  unfold enterCue
  split <;> rfl

/-- A binding overwrites the state of the entry that was made for it. -/
theorem bindChannel_enterCue (n : Four) (e : CueEntry) (p : Plan) (c : OutCue) (again : Bool) (m m' : CueMode) (s : State)
    (he : e.avail = c.avail) : bindChannel n e p (enterCue c again m s) = bindChannel n e p (enterCue c again m' s) := by
  cases again with
  | true =>
    have hmap : ∀ m, ((s.splice.cues.map (fun f => if f.avail = c.avail then { f with mode := m, channel := none } else f)).map
        (fun f => if f.avail = e.avail then { f with mode := CueMode.armed, channel := some n } else f)) =
        s.splice.cues.map (fun f => if f.avail = c.avail then { f with mode := CueMode.armed, channel := some n } else f) := by
      intro m
      rw [List.map_map]
      refine List.map_congr_left (fun f _ => ?_)
      simp only [Function.comp, he]
      by_cases hf : f.avail = c.avail <;> simp [hf]
    simp [bindChannel, enterCue, editCue, setCues, setClip, setChannel, noteChannel, noteSplice, clipRec, startedSeq, State.setSplice,
      State.setClips, State.setEv, hmap]
  | false =>
    simp [bindChannel, enterCue, editCue, setCues, setClip, setChannel, noteChannel, noteSplice, clipRec, startedSeq, State.setSplice,
      State.setClips, State.setEv, countCue, he]

theorem keepsRest_enterUnfilled {c : OutCue} {again : Bool} {s : State} (hl : again = false → s.splice.cues.length < 16) :
    KeepsRest s (enterUnfilled c again s) :=
  ((keepsRest_enterCue .unfilled hl).trans (keeps_countCue _ _).toKeepsRest).trans (keeps_occur _ _).toKeepsRest

/-- The channel that a cue is armed on is idle, and the service bound to none. -/
theorem idle_of_armable {s : State} {v : Nat} {n : Four} (h : (if serviceBound s v then none else idleChannel s) = some n) :
    serviceBound s v = false ∧ s.splice.channels.get n = none := by
  split at h
  · cases h
  case isFalse hb =>
    refine ⟨by simpa using hb, ?_⟩
    have := List.find?_some h
    simpa using this

theorem keepsRest_placeCue (c : OutCue) (again : Bool) (s : State) : KeepsRest s (placeCue c again s).1 := by
  unfold placeCue
  split
  · split
    · exact ((keepsRest_removeCue _ s).trans (keeps_countCue _ _).toKeepsRest).trans (keeps_occur _ _).toKeepsRest
    · exact ((keeps_countCue _ s).trans (keeps_occur _ _)).toKeepsRest
  · split
    · exact ((keeps_countCue _ s).trans (keeps_occur _ _)).toKeepsRest
    case isFalse hfull =>
      have hl : again = false → s.splice.cues.length < 16 := fun ha => by simpa [ha] using hfull
      split
      · exact keepsRest_enterUnfilled hl
      · split
        · exact keepsRest_enterCue _ hl
        case h_2 n hn =>
          split
          case isTrue hu =>
            dsimp only
            split
            · exact (keepsRest_enterCue _ hl).trans
                (keepsRest_bindChannel _ (by simpa using (idle_of_armable hn).2) (by simpa [clipUsable, clipRec] using hu))
            · exact keepsRest_enterCue _ hl
          case isFalse => exact keepsRest_enterUnfilled hl

theorem cuesOk_placeCue {c : OutCue} {again : Bool} {s : State} (hp : CuePlace c again s) (h : CuesOk s) :
    CuesOk (placeCue c again s).1 := by
  have hunfilled : CuesOk (enterUnfilled c again s) :=
    ((keeps_countCue _ _).trans (keeps_occur _ _)).cues (cuesOk_enterCue hp h (.inr rfl))
  unfold placeCue
  split
  · split
    · exact ((keeps_countCue _ _).trans (keeps_occur _ _)).cues (cuesOk_removeCue h (hp.unbound h))
    · exact ((keeps_countCue _ s).trans (keeps_occur _ _)).cues h
  · split
    · exact ((keeps_countCue _ s).trans (keeps_occur _ _)).cues h
    · split
      · exact hunfilled
      case h_2 p _ =>
        split
        · exact cuesOk_enterCue hp h (.inl rfl)
        case h_2 n hn =>
          split
          · dsimp only
            obtain ⟨hserv, hidle⟩ := idle_of_armable hn
            split
            case h_1 e he =>
              obtain ⟨hmem, hea⟩ := cueOf_some he
              have hes : e.service = c.service := by
                obtain ⟨x, hx, hxa, hxs, -⟩ := enterCue_entry .armed hp
                have hnd : ((enterCue c again .armed s).splice.cues.map CueEntry.avail).Nodup := by
                  have heq : (enterCue c again .armed s).splice.cues.map CueEntry.avail =
                      (enterCue c again .waiting s).splice.cues.map CueEntry.avail := by
                    unfold enterCue
                    split
                    · simp only [editCue, setCues, State.setSplice_splice, List.map_map]
                      exact List.map_congr_left (fun f _ => by simp only [Function.comp]; split <;> rfl)
                    · simp [countCue]
                  rw [heq]
                  exact (cuesOk_enterCue hp h (.inl rfl)).1
                rw [List.inj_on_of_nodup_map hnd hmem hx (hea.trans hxa.symm), hxs]
              rw [bindChannel_enterCue n e p c again .armed .waiting s hea]
              obtain ⟨x, hx, hxa, hxs, hxm⟩ := enterCue_entry .waiting hp
              refine cuesOk_bindChannel (cuesOk_enterCue hp h (.inl rfl)) p (by simpa using hidle) ?_
                ⟨x, hx, hxa.trans hea.symm, hxs.trans hes.symm, .inl hxm⟩
              rw [hes]
              simpa [serviceBound] using hserv
            case h_2 hnone =>
              obtain ⟨x, hx, hxa, -⟩ := enterCue_entry .armed hp
              exact absurd hxa (cueOf_none hnone x hx)
          · exact hunfilled

theorem keepsRest_judgeNewCue (c : OutCue) (s : State) : KeepsRest s (judgeNewCue c s).1 := by
  unfold judgeNewCue
  split
  · exact ((keeps_countCue _ s).trans (keeps_occur _ _)).toKeepsRest
  · exact keepsRest_placeCue _ _ _

theorem cuesOk_judgeNewCue {c : OutCue} {s : State} (hn : cueOf s c.avail = none) (h : CuesOk s) : CuesOk (judgeNewCue c s).1 := by
  unfold judgeNewCue
  split
  · exact ((keeps_countCue _ s).trans (keeps_occur _ _)).cues h
  · exact cuesOk_placeCue hn h

/-- The entry that a removal removes is there no more. -/
theorem cueOf_filter {s : State} {a : Nat} (h : ∀ e ∈ s.splice.cues, e.avail ≠ a) : cueOf s a = none := by
  unfold cueOf
  simpa using h

theorem keeps_reviseCue {c : OutCue} {held : CueEntry} {s : State} (hh : cueOf s c.avail = some held) : Keeps s (reviseCue c held s).1 := by
  obtain ⟨hmem, ha⟩ := cueOf_some hh
  unfold reviseCue
  dsimp only
  have hcount : Keeps s (countCue (fun k => { k with revision := sat 65535 (k.revision + 1) }) s) := keeps_countCue _ _
  have hgone (t : State) (b : Nat) (hb : b = c.avail) (ht : ∀ e ∈ t.splice.cues, e.avail ≠ b) : cueOf t c.avail = none :=
    cueOf_filter (hb ▸ ht)
  split
  case h_1 n hn =>
    split
    case h_1 ch hch =>
      have hdis := hcount.trans (keeps_disarm (n := n) hch)
      refine Keeps.trans ⟨hdis.toKeepsRest.trans (keepsRest_judgeNewCue c _), fun h => ?_⟩ (keeps_arbitrate _ _)
      obtain ⟨-, x, hx, hxa, -⟩ := entry_channel (h.2.1 held hmem) hn
      have hsame : x = ch := Option.some.inj (hx.symm.trans hch)
      refine cuesOk_judgeNewCue (hgone _ ch.avail (by rw [← hsame, hxa, ha]) (fun e he => ?_)) (hdis.cues h)
      simpa using (List.mem_filter.mp he).2
    case h_2 hch =>
      refine Keeps.trans ⟨(hcount.toKeepsRest.trans (keepsRest_removeCue _ _)).trans (keepsRest_judgeNewCue c _), fun h => ?_⟩
        (keeps_arbitrate _ _)
      obtain ⟨-, x, hx, -⟩ := entry_channel (h.2.1 held hmem) hn
      exact absurd (hx.symm.trans hch) nofun
  case h_2 hn =>
    refine ⟨(hcount.toKeepsRest.trans (keepsRest_removeCue _ _)).trans (keepsRest_judgeNewCue c _), fun h => ?_⟩
    refine cuesOk_judgeNewCue (hgone _ c.avail rfl (fun e he => ?_))
      (cuesOk_removeCue (hcount.cues h) (ha ▸ unbound_of_entry h hmem hn))
    simpa using (List.mem_filter.mp he).2

theorem sameContent_service {c : OutCue} {e : CueEntry} (h : sameContent c e = true) : e.service = c.service := by
  simp only [sameContent, Bool.and_eq_true, beq_iff_eq] at h
  exact h.1.1

theorem keeps_judgeOut (c : OutCue) (s : State) : Keeps s (judgeOut c s).1 := by
  unfold judgeOut
  split
  case h_1 hn => exact ⟨keepsRest_judgeNewCue _ _, cuesOk_judgeNewCue hn⟩
  case h_2 e he =>
    split
    case isTrue hsame =>
      dsimp only
      split
      case isTrue hu =>
        exact (keeps_countCue _ s).trans ⟨keepsRest_placeCue _ _ _, cuesOk_placeCue ⟨e, he, hu.1, sameContent_service hsame⟩⟩
      case isFalse => (dsimp only [countRepeat]; exact keeps_countCue _ _)
    case isFalse =>
      split
      · (dsimp only; exact keeps_countCue _ _)
      · exact keeps_reviseCue he

theorem keeps_judgeIn (a : Nat) (x : Seq) (s : State) : Keeps s (judgeIn a x s).1 := by
  have hedit : Keeps s (editCue a (fun e => { e with ending := x }) s) :=
    ⟨keepsRest_editCue _ _ _, fun h => cuesOk_editCue h (fun _ => ⟨rfl, rfl, rfl, rfl⟩)⟩
  unfold judgeIn
  dsimp only
  split
  · split
    · split
      · split
        case h_1 c hc => (dsimp only; exact (hedit.trans (keeps_setChannel hc (by rfl) (by rfl) (by rfl))).trans (keeps_countCue _ _))
        case h_2 => (dsimp only; exact hedit.trans (keeps_countCue _ _))
      · (dsimp only; exact hedit.trans (keeps_countCue _ _))
    · (dsimp only; exact keeps_countCue _ _)
  · (dsimp only; exact keeps_countCue _ _)

/-- The removal of an entry whose channel, where it has one, is idle. -/
theorem keeps_removeEntry {s : State} {a : Nat} {e : CueEntry} (he : e ∈ s.splice.cues) (ha : e.avail = a)
    (hn : ∀ n, e.channel = some n → s.splice.channels.get n = none) : Keeps s (removeCue a s) := by
  refine ⟨keepsRest_removeCue _ _, fun h => cuesOk_removeCue h ?_⟩
  cases hc : e.channel with
  | none => exact ha ▸ unbound_of_entry h he hc
  | some n =>
    obtain ⟨-, x, hx, -⟩ := entry_channel (h.2.1 e he) hc
    exact absurd (hx.symm.trans (hn n hc)) nofun

theorem keeps_judgeCancel (a : Nat) (s : State) : Keeps s (judgeCancel a s).1 := by
  unfold judgeCancel
  dsimp only
  split
  · (dsimp only; exact keeps_countCue _ _)
  case h_2 e he =>
    obtain ⟨hmem, ha⟩ := cueOf_some he
    split
    · (dsimp only; exact keeps_countCue _ _)
    · split
      case h_1 n hn =>
        split
        case h_1 c hc => (dsimp only; exact ((keeps_disarm hc).trans (keeps_arbitrate _ _)).trans (keeps_countCue _ _))
        case h_2 hc =>
          (dsimp only; exact (keeps_removeEntry hmem ha (fun m hm => by rw [hn] at hm; cases hm; exact hc)).trans (keeps_countCue _ _))
      case h_2 hn => (dsimp only; exact (keeps_removeEntry hmem ha (fun m hm => by rw [hn] at hm; cases hm)).trans (keeps_countCue _ _))

theorem keeps_judgeCue (d : CueData) (src : CueSource) (q : Seq) (s : State) : Keeps s (judgeCue d src q s).1 := by
  unfold judgeCue
  split
  · exact keeps_judgeOut _ _
  · split
    · exact keeps_judgeIn _ _ _
    · exact keeps_judgeCancel _ _

theorem keeps_networkCues (q : Seq) (cs : List CueData) (s : State) : Keeps s (networkCues q cs s) := by
  refine Keeps.fold (fun s d => ?_) cs s
  split
  · exact keeps_countCue _ _
  · exact keeps_judgeCue _ _ _ _

/-! ## Frame starts and ends (R120, R123) -/

theorem keeps_returnsAt (q : Seq) (s : State) (n : Four) : Keeps s (returnsAt q s n) := by
  unfold returnsAt
  split
  case h_1 c hc =>
    (repeat' split) <;> first
      | exact .refl s
      | exact keeps_returnChannel hc _
  case h_2 => exact .refl s

/-- Every channel changed in the fields that no invariant looks at. -/
theorem keeps_mapChannels {f : Channel → Channel} (hf : ∀ c, (f c).avail = c.avail ∧ (f c).service = c.service ∧ (f c).clip = c.clip)
    (s : State) : Keeps s (s.setSplice { s.splice with channels := s.splice.channels.map (fun c => c.map f) }) := by
  have hget : ∀ n, (s.splice.channels.map (fun c => c.map f)).get n = (s.splice.channels.get n).map f := fun n => PerFour.get_map _ _ _
  have huse : ∀ k, channelsWith (s.setSplice { s.splice with channels := s.splice.channels.map (fun c => c.map f) }) k =
      channelsWith s k := by
    intro k
    refine List.filter_congr (fun n _ => ?_)
    simp only [State.setSplice_splice, hget]
    cases s.splice.channels.get n <;> simp [hf]
  refine ⟨keepsRest_splice (setSplice_only _ s) rfl id rfl rfl rfl (fun h => ⟨h.1, fun k => by rw [huse]; exact h.2 k⟩), fun h => ?_⟩
  obtain ⟨hnd, hent, hch, hserv⟩ := h
  refine ⟨hnd, fun e he => ?_, fun n c hc => ?_, fun m n c d hc hd hcd => ?_⟩
  · have := hent e he
    unfold EntryOk at this ⊢
    split
    · simp_all
    case h_2 m hm =>
      simp only [hm] at this
      obtain ⟨hmode, x, hx, hxa, hxv⟩ := this
      refine ⟨hmode, f x, ?_, (hf x).1.trans hxa, (hf x).2.1.trans hxv⟩
      simp only [State.setSplice_splice, hget, hx, Option.map_some]
  · simp only [State.setSplice_splice, hget] at hc
    obtain ⟨x, hx, rfl⟩ := Option.map_eq_some_iff.mp hc
    rw [(hf x).1]
    exact hch n x hx
  · simp only [State.setSplice_splice, hget] at hc hd
    obtain ⟨x, hx, rfl⟩ := Option.map_eq_some_iff.mp hc
    obtain ⟨y, hy, rfl⟩ := Option.map_eq_some_iff.mp hd
    exact hserv m n x y hx hy (by rw [← (hf x).2.1, ← (hf y).2.1, hcd])

theorem keepsRest_activate (e : CueEntry) (s : State) : KeepsRest s (activate e s) := by
  unfold activate
  split
  · split
    case h_1 c hc =>
      exact ((keepsRest_setChannel hc (d := { c with active := true }) rfl).trans (keepsRest_editCue _ _ _)).trans
        (keeps_noteChannel _ _ _ _ _).toKeepsRest
    case h_2 => exact .refl s
  · exact .refl s

/-- An entry that is armed made active, with its channel. -/
theorem cuesOk_activate {e : CueEntry} {s : State} (h : CuesOk s) (he : e ∈ s.splice.cues) : CuesOk (activate e s) := by
  unfold activate
  split
  case h_1 n hn =>
    split
    case h_1 c hc =>
      obtain ⟨-, x, hx, hxa, hxs⟩ := entry_channel (h.2.1 e he) hn
      obtain rfl : x = c := Option.some.inj (hx.symm.trans hc)
      obtain ⟨hnd, hent, hch, hserv⟩ := cuesOk_setChannel h hc (d := { x with active := true }) rfl rfl
      refine (keeps_noteChannel _ _ _ _ _).cues ⟨?_, fun f hf => ?_, fun m d hd => ?_, hserv⟩
      · have hmap : (s.splice.cues.map (fun f => if f.avail = e.avail then { f with mode := CueMode.active } else f)).map CueEntry.avail =
            s.splice.cues.map CueEntry.avail := by
          rw [List.map_map]
          exact List.map_congr_left (fun f _ => by simp only [Function.comp]; split <;> rfl)
        exact hmap ▸ hnd
      · obtain ⟨g, hg, rfl⟩ := List.mem_map.mp hf
        split
        case isTrue hga =>
          have hge : g = e := entry_unique h hg he hga
          have := hent g hg
          rw [hge] at this ⊢
          unfold EntryOk at this ⊢
          simp only [hn] at this ⊢
          exact ⟨.inr trivial, this.2⟩
        case isFalse => exact hent g hg
      · obtain ⟨f, hf, hfa, hfc⟩ := hch m d hd
        refine ⟨_, List.mem_map.mpr ⟨f, hf, rfl⟩, ?_, ?_⟩
        · split <;> exact hfa
        · split <;> exact hfc
    case h_2 => exact h
  case h_2 => exact h

theorem keepsRest_startEntry (s : State) (e : CueEntry) : KeepsRest s (startEntry s e) := by
  unfold startEntry
  split
  · exact keepsRest_activate e s
  · exact ((keepsRest_removeCue _ s).trans (keeps_countCue _ _).toKeepsRest).trans (keeps_occur _ _).toKeepsRest
  · exact keepsRest_removeCue _ _
  · exact .refl s

theorem cuesOk_startEntry {s : State} {e : CueEntry} (h : CuesOk s) (he : e ∈ s.splice.cues) : CuesOk (startEntry s e) := by
  have hremoved (hm : e.mode = .waiting ∨ e.mode = .unfilled) : CuesOk (removeCue e.avail s) :=
    cuesOk_removeCue h (unbound_of_entry h he (channel_none_of_mode (h.2.1 e he) hm))
  unfold startEntry
  split
  case h_1 => exact cuesOk_activate h he
  case h_2 hm => exact ((keeps_countCue _ _).trans (keeps_occur _ _)).cues (hremoved (.inl hm))
  case h_3 hm => exact hremoved (.inr hm)
  case h_4 => exact h

/-- A fold over entries of the table, each of which leaves the entries of the other avails. -/
theorem cuesOk_foldEntries {f : State → CueEntry → State} (hf : ∀ s e, CuesOk s → e ∈ s.splice.cues → CuesOk (f s e))
    (hother : ∀ s e x, CuesOk s → e ∈ s.splice.cues → x ∈ s.splice.cues → x.avail ≠ e.avail → x ∈ (f s e).splice.cues)
    (es : List CueEntry) (s : State) (h : CuesOk s) (hnd : (es.map CueEntry.avail).Nodup) (hin : ∀ e ∈ es, e ∈ s.splice.cues) :
    CuesOk (es.foldl f s) := by
  induction es generalizing s with
  | nil => exact h
  | cons e es ih =>
    obtain ⟨hne, hnd⟩ := List.nodup_cons.mp hnd
    have he := hin e (by simp)
    refine ih (f s e) (hf s e h he) hnd (fun x hx => hother s e x h he (hin x (by simp [hx])) (fun ha => hne ?_))
    exact List.mem_map.mpr ⟨x, hx, ha⟩

/-- The entries that a filter of the table order selects, folded over. -/
theorem cuesOk_foldOrdered {f : State → CueEntry → State} (hf : ∀ s e, CuesOk s → e ∈ s.splice.cues → CuesOk (f s e))
    (hother : ∀ s e x, CuesOk s → e ∈ s.splice.cues → x ∈ s.splice.cues → x.avail ≠ e.avail → x ∈ (f s e).splice.cues)
    (p : CueEntry → Bool) (s : State) (h : CuesOk s) : CuesOk (((orderedCues s).filter p).foldl f s) := by
  refine cuesOk_foldEntries hf hother _ s h ?_ (fun e he => mem_orderedCues.mp (List.mem_filter.mp he).1)
  exact (List.filter_sublist.map _).nodup (((orderedCues_perm s).map CueEntry.avail).nodup_iff.mpr h.1)

theorem mem_removeCue {s : State} {a : Nat} {x : CueEntry} (hx : x ∈ s.splice.cues) (ha : x.avail ≠ a) :
    x ∈ (removeCue a s).splice.cues :=
  List.mem_filter.mpr ⟨hx, by simpa using ha⟩

theorem startEntry_other (s : State) (e x : CueEntry) (hx : x ∈ s.splice.cues) (ha : x.avail ≠ e.avail) :
    x ∈ (startEntry s e).splice.cues := by
  unfold startEntry
  split
  · unfold activate
    split
    · split
      · exact List.mem_map.mpr ⟨x, hx, if_neg ha⟩
      · exact hx
    · exact hx
  · exact mem_removeCue hx ha
  · exact mem_removeCue hx ha
  · exact hx

theorem makeDue_same (c : Channel) : (makeDue c).avail = c.avail ∧ (makeDue c).service = c.service ∧ (makeDue c).clip = c.clip := by
  unfold makeDue
  split <;> exact ⟨rfl, rfl, rfl⟩

theorem keepsRest_fold {α : Type} {f : State → α → State} (h : ∀ s x, KeepsRest s (f s x)) (xs : List α) (s : State) :
    KeepsRest s (xs.foldl f s) :=
  fold_frame KeepsRest.refl KeepsRest.trans h xs s

theorem keeps_spliceFrameStart (q : Seq) (s : State) : Keeps s (spliceFrameStart q s) := by
  have hstarts (t : State) : Keeps t (((orderedCues t).filter (fun e => e.start = q)).foldl startEntry t) :=
    ⟨keepsRest_fold keepsRest_startEntry _ _,
      fun h => cuesOk_foldOrdered (fun _ _ h he => cuesOk_startEntry h he) (fun s e x _ _ hx ha => startEntry_other s e x hx ha) _ t h⟩
  unfold spliceFrameStart
  dsimp only
  exact (((keeps_setSplice_same (x := { s.splice with lastStarted := some q }) (by rfl)).trans (Keeps.fold (keeps_returnsAt q) _ _)).trans
    (hstarts _)).trans (keeps_mapChannels makeDue_same _)

theorem keeps_backlogAt (s : State) (n : Four) : Keeps s (backlogAt s n) := by
  unfold backlogAt
  split
  case h_1 c hc =>
    (repeat' split) <;> first
      | exact .refl s
      | exact keeps_returnChannel hc _
      | exact keeps_setChannel hc (by rfl) (by rfl) (by rfl)
  case h_2 => exact .refl s

theorem keeps_spliceFrameEnd (s : State) : Keeps s (spliceFrameEnd s) := Keeps.fold keeps_backlogAt _ _

/-! ## Substitution (R121, R128) -/

theorem keeps_rewrite (i : Bool) (p : Packet) (s : State) : Keeps s (rewrite i p s).2 := by
  unfold rewrite
  split
  · exact .refl s
  · exact keeps_setSplice_same (by rfl)

theorem keeps_takePosition {n : Four} {c : Channel} {s : State} (hc : s.splice.channels.get n = some c) :
    Keeps s (takePosition n c s).2 := by
  unfold takePosition
  dsimp only
  split
  · exact .refl s
  · split
    · exact (keeps_setChannel hc (by rfl) (by rfl) (by rfl)).trans (keeps_rewrite _ _ _)
    · exact keeps_setChannel hc (by rfl) (by rfl) (by rfl)

/-- The channel that frees a stream is the one in the state. -/
theorem freedBy_some {s : State} {x : Nat} {n : Four} {c : Channel} (h : freedBy s x = some (n, c)) :
    s.splice.channels.get n = some c := by
  unfold freedBy at h
  obtain ⟨m, -, hm⟩ := List.exists_of_findSome?_eq_some h
  split at hm
  · split at hm
    · cases hm; assumption
    · cases hm
  · cases hm

theorem harvester_some {s : State} {n : Four} {c : Channel} (h : harvester s = some (n, c)) : s.splice.channels.get n = some c := by
  unfold harvester at h
  obtain ⟨m, -, hm⟩ := List.exists_of_findSome?_eq_some h
  split at hm
  · split at hm
    · cases hm; assumption
    · cases hm
  · cases hm

theorem keeps_substitute (p : Packet) (s : State) : Keeps s (substitute p s).2 := by
  unfold substitute
  split
  · split
    case h_1 h => exact keeps_takePosition (harvester_some h)
    case h_2 => exact .refl s
  · split
    case h_1 h => exact keeps_takePosition (freedBy_some h)
    case h_2 => exact keeps_rewrite _ _ _

/-! ## The emission state (R126) -/

theorem keeps_clearOffsets (s : State) : Keeps s (clearOffsets s) := keeps_setSplice_same (by rfl)

theorem keeps_reAnchorChannel (s : State) (n : Four) : Keeps s (reAnchorChannel s n) := by
  unfold reAnchorChannel
  split
  case h_1 c hc =>
    split
    · exact keeps_returnChannel hc _
    · exact .refl s
  case h_2 => exact .refl s

theorem keeps_spliceAnchoring (s : State) : Keeps s (spliceAnchoring s) :=
  (Keeps.fold keeps_reAnchorChannel _ _).trans (keeps_clearOffsets _)

theorem keeps_stopChannel (s : State) (n : Four) : Keeps s (stopChannel s n) := by
  unfold stopChannel
  split
  case h_1 c hc =>
    split
    · exact keeps_returnChannel hc _
    · exact keeps_disarm hc
  case h_2 => exact .refl s

@[simp] theorem markResync_channels (v : Nat) (s : State) : (markResync v s).splice.channels = s.splice.channels := by
  unfold markResync
  split <;> rfl

@[simp] theorem releaseChannel_channels (n : Four) (c : Channel) (s : State) :
    (releaseChannel n c s).splice.channels = s.splice.channels.set n none := rfl

/-- A channel stopped is IDLE, and the others stay (R126). -/
theorem stopChannel_channels (s : State) (n : Four) : (stopChannel s n).splice.channels = s.splice.channels.set n none := by
  unfold stopChannel
  split
  case h_1 c hc =>
    split
    · simp [returnChannel, endSplice, noteChannel, noteSplice]
    · rfl
  case h_2 hn => rw [← hn, PerFour.set_get]

theorem keeps_spliceOff (s : State) : Keeps s (spliceOff s) := by
  have hidle : (Four.all.foldl stopChannel s).splice.channels = ⟨none, none, none, none⟩ := by
    simp [Four.all, stopChannel_channels, PerFour.set]
  have hnone : ∀ n, (Four.all.foldl stopChannel s).splice.channels.get n = none := fun n => by rw [hidle]; cases n <;> rfl
  refine ((Keeps.fold keeps_stopChannel _ s).trans ⟨keepsRest_setCues (fun _ => by simp), fun _ => ?_⟩).trans (keeps_clearOffsets _)
  refine ⟨by simp [setCues], fun e he => by simp [setCues] at he, fun n c hc => ?_, fun m n c d hc => ?_⟩
  · exact absurd ((hnone n).symm.trans hc) nofun
  · exact absurd ((hnone m).symm.trans hc) nofun

theorem keepsRest_passedEntry (s : State) (e : CueEntry) : KeepsRest s (passedEntry s e) := by
  have hmiss (t : State) (ht : KeepsRest s t) : KeepsRest s (occur 19 (countMissed t)) :=
    (ht.trans (keeps_countCue _ t).toKeepsRest).trans (keeps_occur _ _).toKeepsRest
  unfold passedEntry
  split
  · exact keepsRest_removeCue _ _
  · exact hmiss _ (keepsRest_removeCue _ _)
  · apply hmiss
    split
    · split
      case h_1 hc => exact (keeps_disarm hc).toKeepsRest
      case h_2 => exact keepsRest_removeCue _ _
    · exact keepsRest_removeCue _ _
  · exact .refl s

theorem cuesOk_passedEntry {s : State} {e : CueEntry} (h : CuesOk s) (he : e ∈ s.splice.cues) : CuesOk (passedEntry s e) := by
  have hmiss (t : State) (ht : CuesOk t) : CuesOk (occur 19 (countMissed t)) := ((keeps_countCue _ t).trans (keeps_occur _ _)).cues ht
  have hremoved (hn : ∀ n, e.channel = some n → s.splice.channels.get n = none) : CuesOk (removeCue e.avail s) :=
    (keeps_removeEntry he rfl hn).cues h
  have hidle (hm : e.mode = .waiting ∨ e.mode = .unfilled) : ∀ n, e.channel = some n → s.splice.channels.get n = none := fun n hn => by
    rw [channel_none_of_mode (h.2.1 e he) hm] at hn
    cases hn
  unfold passedEntry
  split
  case h_1 hm => exact hremoved (hidle (.inr hm))
  case h_2 hm => exact hmiss _ (hremoved (hidle (.inl hm)))
  case h_3 =>
    apply hmiss
    split
    case h_1 n hn =>
      split
      case h_1 c hc => exact (keeps_disarm hc).cues h
      case h_2 hc => exact hremoved (fun m hm => by rw [hn] at hm; cases hm; exact hc)
    case h_2 hn => exact hremoved (fun m hm => by rw [hn] at hm; cases hm)
  case h_4 => exact h

theorem passedEntry_other (s : State) (e x : CueEntry) (h : CuesOk s) (he : e ∈ s.splice.cues) (hx : x ∈ s.splice.cues)
    (ha : x.avail ≠ e.avail) : x ∈ (passedEntry s e).splice.cues := by
  unfold passedEntry
  split
  · exact mem_removeCue hx ha
  · exact mem_removeCue hx ha
  · split
    case h_1 n hn =>
      split
      case h_1 c hc =>
        obtain ⟨-, y, hy, hya, -⟩ := entry_channel (h.2.1 e he) hn
        obtain rfl : y = c := Option.some.inj (hy.symm.trans hc)
        exact mem_removeCue hx (by rw [hya]; exact ha)
      case h_2 => exact mem_removeCue hx ha
    case h_2 => exact mem_removeCue hx ha
  · exact hx

theorem keeps_spliceRunning (b : Seq) (s : State) : Keeps s (spliceRunning b s) := by
  have hpassed (p : CueEntry → Bool) : Keeps s (((orderedCues s).filter p).foldl passedEntry s) :=
    ⟨keepsRest_fold keepsRest_passedEntry _ _,
      fun h => cuesOk_foldOrdered (fun _ _ h he => cuesOk_passedEntry h he) passedEntry_other _ s h⟩
  have hfreed (t : State) (n : Four) : Keeps t (if (s.splice.channels.get n).isSome then arbitrate n t else t) := by
    split
    · exact keeps_arbitrate _ _
    · exact .refl t
  exact (hpassed _).trans (Keeps.fold hfreed _ _)

theorem keeps_alignOffsets (s : State) : Keeps s (alignOffsets s) := keeps_setSplice_same (by rfl)

end Sys2Proof.Machine
end

section
/-! PROOF, the invariants that every step keeps: services and plans (05), emission and the Frame Store (03, 04), Feed Intake (02), the
Site Clock's events (01), settings and the link (09), and the settling theorems O6 to O13. -/

namespace Sys2Proof.Machine
open Sys2Proof

/-! ## Services and plans (05) -/

theorem mem_putService_or {v x : Service} {vs : List Service} (h : x ∈ putService v vs) : x = v ∨ x ∈ vs := by
  induction vs with
  | nil => simpa [putService] using h
  | cons y vs ih =>
    unfold putService at h
    split at h
    · simpa using h
    · split at h
      · rcases List.mem_cons.mp h with h | h
        · exact .inl h
        · exact .inr (List.mem_cons_of_mem _ h)
      · rcases List.mem_cons.mp h with h | h
        · exact .inr (h ▸ List.mem_cons_self ..)
        · exact (ih h).imp id (List.mem_cons_of_mem _)

/-- A service put into the table keeps the ascending order of numbers. -/
theorem putService_sorted {v : Service} {vs : List Service} (h : vs.Pairwise (fun v w => v.number < w.number)) :
    (putService v vs).Pairwise (fun v w => v.number < w.number) := by
  induction vs with
  | nil => simp [putService]
  | cons y vs ih =>
    obtain ⟨hy, hvs⟩ := List.pairwise_cons.mp h
    unfold putService
    split
    case isTrue hlt =>
      refine List.pairwise_cons.mpr ⟨fun x hx => ?_, h⟩
      rcases List.mem_cons.mp hx with rfl | hx
      · exact hlt
      · exact hlt.trans (hy x hx)
    case isFalse hge =>
      split
      case isTrue heq => exact List.pairwise_cons.mpr ⟨fun x hx => heq ▸ hy x hx, hvs⟩
      case isFalse hne =>
        refine List.pairwise_cons.mpr ⟨fun x hx => ?_, ih hvs⟩
        rcases mem_putService_or hx with rfl | hx
        · omega
        · exact hy x hx

theorem putService_length (v : Service) (vs : List Service) : (putService v vs).length ≤ vs.length + 1 := by
  induction vs with
  | nil => simp [putService]
  | cons y vs ih =>
    unfold putService
    repeat' split
    · simp
    · simp
    · simpa using ih

/-- A service put in place of one with its number. -/
theorem putService_length_replaced {v x : Service} {vs : List Service} (hs : vs.Pairwise (fun v w => v.number < w.number)) (hx : x ∈ vs)
    (hn : x.number = v.number) : (putService v vs).length = vs.length := by
  induction vs with
  | nil => cases hx
  | cons y vs ih =>
    obtain ⟨hy, hvs⟩ := List.pairwise_cons.mp hs
    unfold putService
    split
    case isTrue hlt =>
      rcases List.mem_cons.mp hx with rfl | hx
      · omega
      · have := hy x hx; omega
    case isFalse =>
      split
      · simp
      case isFalse hne =>
        rcases List.mem_cons.mp hx with rfl | hx
        · exact absurd hn.symm hne
        · simp [ih hvs hx]

theorem keeps_setServices {s : State} {vs : List Service} (h : SizesOk s → TablesOk vs s.splice.plans) : Keeps s (setServices vs s) :=
  (keeps_setSplice_tables (x := { s.splice with services := vs }) rfl rfl h).trans (keeps_alignOffsets _)

/-- The service that a number finds has the number. -/
theorem serviceOf_some {s : State} {n : Nat} {v : Service} (h : serviceOf s n = some v) : v ∈ s.splice.services ∧ v.number = n := by
  unfold serviceOf at h
  exact ⟨List.mem_of_find?_eq_some h, by simpa using List.find?_some h⟩

theorem keeps_reqDefineService (number : BitVec 16) (eligible : Byte) (list : List (BitVec 16)) (s : State) :
    Keeps s (reqDefineService number eligible list s).state := by
  unfold reqDefineService
  dsimp only
  split
  · exact .refl s
  · split
    · exact .refl s
    · split
      · exact .refl s
      · split
        · exact .refl s
        · split
          · exact .refl s
          · split
            · exact .refl s
            case isFalse hroom =>
              refine keeps_setServices (fun h => ?_)
              obtain ⟨hlen, hsorted, hplans⟩ := h.2.2.2.1
              refine ⟨?_, putService_sorted hsorted, hplans⟩
              cases hv : serviceOf s number.toNat with
              | some v =>
                obtain ⟨hmem, hnum⟩ := serviceOf_some hv
                rw [putService_length_replaced hsorted hmem hnum]
                exact hlen
              | none =>
                refine (putService_length _ _).trans ?_
                simp only [hv, Option.isSome_none, Bool.not_false, Bool.true_and, decide_eq_true_eq] at hroom
                omega

theorem keeps_reqDeleteService (number : BitVec 16) (s : State) : Keeps s (reqDeleteService number s).state := by
  have hremoved : Keeps s (setServices (s.splice.services.filter (fun v => v.number ≠ number.toNat)) s) :=
    keeps_setServices (fun h => by
      obtain ⟨hlen, hsorted, hplans⟩ := h.2.2.2.1
      exact ⟨(List.length_filter_le _ _).trans hlen, hsorted.filter _, hplans⟩)
  unfold reqDeleteService
  dsimp only
  (repeat' split) <;> first
    | exact .refl s
    | exact hremoved

theorem putPlan_length (p : Plan) (ps : List Plan) : (putPlan p ps).length =
    if ps.any (fun q => q.key = p.key) then ps.length else ps.length + 1 := by
  unfold putPlan
  split <;> simp

theorem keeps_setPlans {s : State} {ps : List Plan} (h : s.splice.plans.length ≤ 32 → ps.length ≤ 32) :
    Keeps s (s.setSplice { s.splice with plans := ps }) :=
  keeps_setSplice_tables rfl rfl (fun hok => ⟨hok.2.2.2.1.1, hok.2.2.2.1.2.1, h hok.2.2.2.1.2.2⟩)

theorem keeps_reqPlanSet (keyKind : Byte) (avail service : BitVec 16) (clip harvest early : Byte) (map : List StreamPair) (s : State) :
    Keeps s (reqPlanSet keyKind avail service clip harvest early map s).state := by
  unfold reqPlanSet
  dsimp only
  split
  · exact .refl s
  case h_2 key _ =>
    split
    · exact .refl s
    · split
      · exact .refl s
      · split
        · exact .refl s
        · split
          · exact .refl s
          · split
            · exact .refl s
            case isFalse hroom =>
              refine keeps_setPlans (fun h => ?_)
              rw [putPlan_length]
              split
              · exact h
              case isFalse hnew =>
                simp only [Bool.and_eq_true, Bool.not_eq_true', decide_eq_true_eq, not_and, not_le] at hroom
                exact hroom (by simpa using hnew)

theorem keeps_reqPlanDelete (keyKind : Byte) (avail service : BitVec 16) (s : State) :
    Keeps s (reqPlanDelete keyKind avail service s).state := by
  unfold reqPlanDelete
  split
  · exact .refl s
  · split
    · exact keeps_setPlans (fun h => (List.length_filter_le _ _).trans h)
    · exact .refl s

/-! ## The Emission Scheduler's operations (04) -/

theorem keeps_countEmission (f : EmissionCounts → EmissionCounts) (s : State) : Keeps s (countEmission f s) := keeps_setEm _ _

theorem keeps_setMute (m : MuteSet) (s : State) : Keeps s (setMute m s) := by
  unfold setMute
  split
  · exact .refl s
  · exact (keeps_setEm _ _).trans (keeps_noteEmission _ _)

theorem keeps_leaveRunning (s : State) : Keeps s (leaveRunning s) := by
  unfold leaveRunning
  split
  · split
    · exact keeps_setEm _ _
    · exact (keeps_setEm s _).trans (keeps_countEmission _ _)
  · exact .refl s

theorem keeps_dropAnchor (s : State) : Keeps s (dropAnchor s) :=
  (((keeps_leaveRunning s).trans (keeps_emptyStore _)).trans (keeps_setEm _ _)).trans (keeps_setMute _ _)

theorem keeps_enterOff (s : State) : Keeps s (enterOff s) := by
  unfold enterOff
  exact ((((keeps_dropAnchor s).trans (keeps_noteEmission _ _)).trans (keeps_setEm _ _)).trans (keeps_spliceOff _)).trans
    (keeps_setDirectivePower _ _)

theorem keeps_enterAnchoring (o : Nat) (s : State) : Keeps s (enterAnchoring o s) := by
  have hentered (x : EmissionState) : Keeps s ((noteEmission o (dropAnchor s)).setEm x) :=
    ((keeps_dropAnchor s).trans (keeps_noteEmission _ _)).trans (keeps_setEm _ _)
  unfold enterAnchoring
  dsimp only
  refine Keeps.trans ?_ (keeps_spliceAnchoring _)
  split
  · exact hentered _
  · exact (hentered _).trans (keeps_countEmission _ _)

theorem keeps_reAnchorUnlessOff (o : Nat) (s : State) : Keeps s (reAnchorUnlessOff o s) := by
  unfold reAnchorUnlessOff
  split
  · exact .refl s
  · exact keeps_enterAnchoring _ _

theorem keeps_judgeFit (s : State) : Keeps s (judgeFit s) := by
  unfold judgeFit
  split
  · exact .refl s
  · split
    · split
      · exact (((keeps_emptyStore s).trans (keeps_setEm _ _)).trans (keeps_countEmission _ _)).trans (keeps_noteEmission _ _)
      · exact .refl s
    · exact keeps_setMute _ _
    · exact .refl s

/-! ## The Frame Store's operations (03) -/

theorem keeps_countOffer (p : PortId) (f : AdmissionCounts → AdmissionCounts) (s : State) : Keeps s (countOffer p f s) :=
  keeps_setStore_same (by rfl)

theorem keeps_writePackets (s : State) (a : Nat) (ps : List Packet) : Keeps s (writePackets s a ps) :=
  keeps_setMem (fun h => Memory.write_wf h _ _)

theorem keeps_placeCopy (o : Offer) (i : Int) (s : State) : Keeps s (placeCopy o i s) := by
  unfold placeCopy
  exact (((keeps_writePackets s _ _).trans (keeps_setSlot (.inr rfl) _)).trans (keeps_networkCues _ _ _)).trans (keeps_setEm _ _)

theorem keeps_admitCopy (o : Offer) (i : Int) (s : State) : Keeps s (admitCopy o i s) :=
  (keeps_placeCopy o i s).trans (keeps_countOffer _ _ _)

theorem keeps_takeAnchor (o : Offer) (s : State) : Keeps s (takeAnchor o s) := by
  unfold takeAnchor
  exact (((((keeps_setEm s _).trans (keeps_setBase _ _)).trans (keeps_admitCopy _ _ _)).trans (keeps_setStore_same (by rfl))).trans
    (keeps_countEmission _ _)).trans (keeps_noteEmission _ _)

theorem keeps_judgeCandidate (o : Offer) (s : State) : Keeps s (judgeCandidate o s) := by
  unfold judgeCandidate
  dsimp only
  split
  · exact keeps_countOffer _ _ _
  · split
    · exact .refl s
    · split
      · exact .refl s
      · split
        · exact (keeps_countEmission _ _).trans (keeps_occur _ _)
        · split
          · exact .refl s
          · exact keeps_takeAnchor _ _

theorem keeps_jumpStep (o : Offer) (s : State) : Keeps s (jumpStep o s) := by
  unfold jumpStep
  split
  · split
    · exact (Keeps.trans (keeps_setStore_same (by rfl)) (keeps_occur 15 _)).trans (keeps_reAnchorUnlessOff _ _)
    · exact keeps_setStore_same (by rfl)
  · exact .refl s

theorem keeps_mismatchStep (s : State) : Keeps s (mismatchStep s) := by
  unfold mismatchStep
  split
  · exact (Keeps.trans (keeps_setStore_same (by rfl)) (keeps_occur 14 _)).trans (keeps_reAnchorUnlessOff _ _)
  · exact keeps_setStore_same (by rfl)

theorem keeps_compareCopy (o : Offer) (i : Int) (h : Held) (s : State) : Keeps s (compareCopy o i h s) := by
  unfold compareCopy
  split
  · split
    · exact keeps_countOffer _ _ _
    · exact (keeps_countOffer _ _ _).trans (keeps_occur _ _)
  · exact keeps_countOffer _ _ _
  · exact (keeps_placeCopy _ _ _).trans (keeps_countOffer _ _ _)
  · exact keeps_countOffer _ _ _

theorem keeps_settleOffer (o : Offer) (i : Int) (s : State) : Keeps s (settleOffer o i s) := by
  unfold settleOffer
  dsimp only
  split
  · exact Keeps.trans (keeps_setStore_same (by rfl)) (keeps_compareCopy _ _ _ _)
  · exact Keeps.trans (keeps_setStore_same (by rfl)) (keeps_admitCopy _ _ _)

theorem keeps_judgeWindow (o : Offer) (a : Anchor) (b : Seq) (s : State) : Keeps s (judgeWindow o a b s) := by
  have hstale : Keeps s (staleOffer o s) := (keeps_countOffer _ _ _).trans (keeps_jumpStep _ _)
  have hahead : Keeps s (aheadOffer o s) := (keeps_countOffer _ _ _).trans (keeps_jumpStep _ _)
  unfold judgeWindow
  dsimp only
  split
  · exact hstale
  · split
    · exact hahead
    · split
      · exact hstale
      · split
        · exact keeps_countOffer _ _ _
        · split
          · exact (keeps_countOffer _ _ _).trans (keeps_mismatchStep _)
          · exact keeps_settleOffer _ _ _

theorem keeps_takeOffer (o : Offer) (s : State) : Keeps s (takeOffer o s) := by
  unfold takeOffer
  split
  · exact .refl s
  · split
    · exact keeps_setStore_same (by rfl)
    · split
      · exact keeps_judgeWindow _ _ _ _
      · exact keeps_judgeCandidate _ _

theorem keeps_rebase (s : State) : Keeps s (rebase s) := by
  unfold rebase
  split
  · split
    · exact keeps_setEm _ _
    · exact .refl s
  · exact .refl s

theorem keeps_endFrame (s : State) : Keeps s (endFrame s) := by
  unfold endFrame
  split
  · exact ((keeps_setSlot (.inl rfl) s).trans (keeps_setBase _ _)).trans (keeps_setEm _ _)
  · exact .refl s

/-! ## The Emission Scheduler's commands (04) -/

theorem keeps_sendPacket (i : Int) (p : Packet) (s : State) : Keeps s (sendPacket i p s) := keeps_setEm _ _

theorem keeps_gapAccounting (real : Bool) (s : State) : Keeps s (gapAccounting real s) := by
  unfold gapAccounting
  dsimp only
  split
  · generalize (if s.em.mute.feed = true then sat 15 (s.em.resumeRun + 1) else 0) = k
    split
    · exact (keeps_setEm _ _).trans (keeps_setMute _ _)
    · exact keeps_setEm _ _
  · split
    · exact ((keeps_setEm s _).trans (keeps_setMute _ _)).trans (keeps_occur _ _)
    · exact keeps_setEm _ _

theorem keeps_actDirective (s : State) (d : Directive) : Keeps s (actDirective s d) := by
  unfold actDirective
  split
  · split
    · exact (keeps_setMute _ _).trans (keeps_countEmission _ _)
    · split
      · exact (keeps_setMute _ _).trans (keeps_countEmission _ _)
      · split
        · exact (keeps_setDirectivePower _ _).trans (keeps_countEmission _ _)
        · split
          · exact Keeps.trans (keeps_setEm s _) (keeps_countEmission _ _)
          · exact keeps_countEmission _ _
  · exact keeps_countEmission _ _

theorem keeps_startFrame (a : Anchor) (k : Nat) (s : State) : Keeps s (startFrame a k s) := by
  have hstarted (f : EmissionCounts → EmissionCounts) (p : Packet) (i : Int) (real : Bool) (g : State → EmissionState) :
      Keeps s (gapAccounting real (spliceFrameStart (frameSeq a k) (countEmission f ((sendPacket i p s).setEm (g (sendPacket i p s)))))) :=
    ((((keeps_sendPacket i p s).trans (keeps_setEm _ _)).trans (keeps_countEmission _ _)).trans (keeps_spliceFrameStart _ _)).trans
      (keeps_gapAccounting _ _)
  unfold startFrame
  dsimp only
  have h := hstarted
    (fun c => if (frameContent s (frameSeq a k)).isSome then { c with real := sat32 (c.real + 1) } else { c with null := sat32 (c.null + 1) })
    (timingPacket s a k) (frameInstant s a k) (frameContent s (frameSeq a k)).isSome
    (fun t => { t.em with lastCount := continuityOf (timingPacket s a k), runFrame := k, runPacket := 1 })
  split
  · exact h.trans (Keeps.fold keeps_actDirective _ _)
  · exact h

theorem keeps_finishFrame (s : State) : Keeps s (finishFrame s) := by
  unfold finishFrame
  exact (((keeps_setEm s _).trans (keeps_endFrame _)).trans (keeps_rebase _)).trans (keeps_spliceFrameEnd _)

theorem keeps_departPacket (a : Anchor) (k j : Nat) (s : State) : Keeps s (departPacket a k j s) := by
  have hsent : Keeps s (sendPacket (gridInstant s a k j) (substitute (framePacket s a k j) s).1 (substitute (framePacket s a k j) s).2) :=
    (keeps_substitute _ s).trans (keeps_sendPacket _ _ _)
  unfold departPacket
  dsimp only
  split
  · exact hsent.trans (keeps_finishFrame _)
  · exact hsent.trans (keeps_setEm _ _)

theorem keeps_takeEffect (s : State) : Keeps s (takeEffect s) := by
  unfold takeEffect
  split
  · split
    · exact (keeps_takeSlot _ s).trans (keeps_setEm _ _)
    · exact .refl s
  · exact .refl s

theorem keeps_anchorReachedEffect (s : State) : Keeps s (anchorReachedEffect s) := by
  unfold anchorReachedEffect
  split
  · split
    · exact (((((keeps_setMute _ s).trans (keeps_noteEmission _ _)).trans (keeps_setEm _ _)).trans (keeps_spliceRunning _ _)).trans
        (keeps_judgeFit _)).trans (keeps_startFrame _ _ _)
    · exact .refl s
  · exact .refl s

theorem keeps_departureEffect (s : State) : Keeps s (departureEffect s) := by
  unfold departureEffect
  split
  · split
    · split
      · exact keeps_startFrame _ _ _
      · exact keeps_departPacket _ _ _ _
    · exact .refl s
  · exact .refl s

theorem keeps_freeGridEffect (s : State) : Keeps s (freeGridEffect s) := by
  unfold freeGridEffect
  dsimp only
  split
  · split <;> split <;> exact keeps_setEm _ _
  · exact .refl s

/-! ## Feed Intake (02) -/

theorem keeps_setPort (p : PortId) (x : PortRec) (s : State) : Keeps s (setPort p x s) := keeps_setFeed _ _

theorem keeps_countPort (p : PortId) (f : PortCounts → PortCounts) (s : State) : Keeps s (countPort p f s) := keeps_setFeed _ _

theorem keeps_setPortMode (p : PortId) (m : PortMode) (s : State) : Keeps s (setPortMode p m s) := by
  unfold setPortMode
  dsimp only
  split
  · exact .refl s
  · exact (keeps_setPort p _ s).trans (keeps_setEv _ _)

theorem keeps_loseAlignment (p : PortId) (s : State) : Keeps s (loseAlignment p s) := keeps_setPort _ _ _

theorem keeps_alignContinuity (p : PortId) (s : State) : Keeps s (alignContinuity p s) := keeps_setPort _ _ _

theorem keeps_enterHunting (p : PortId) (s : State) : Keeps s (enterHunting p s) :=
  (keeps_setPort p _ s).trans (keeps_alignContinuity _ _)

theorem keeps_enterImpaired (p : PortId) (s : State) : Keeps s (enterImpaired p s) := (keeps_setPortMode _ _ _).trans (keeps_occur _ _)

theorem keeps_enterFailed (p : PortId) (s : State) : Keeps s (enterFailed p s) := (keeps_setPortMode _ _ _).trans (keeps_occur _ _)

theorem keeps_judgeHealth (p : PortId) (s : State) : Keeps s (judgeHealth p s) := by
  unfold judgeHealth
  dsimp only
  (repeat' split) <;> first
    | exact .refl s
    | exact keeps_setPort _ _ _
    | exact (keeps_setPort _ _ _).trans (keeps_enterImpaired _ _)
    | exact (keeps_setPort _ _ _).trans (keeps_enterFailed _ _)
    | exact (keeps_setPort _ _ _).trans (keeps_setPortMode _ _ _)

theorem keeps_giveVerdict (p : PortId) (v : Verdict) (s : State) : Keeps s (giveVerdict p v s) :=
  (keeps_setPort p _ s).trans (keeps_judgeHealth _ _)

theorem keeps_offerFrame (p : PortId) (f : Assembly) (q : Quality) (s : State) : Keeps s (offerFrame p f q s) := by
  unfold offerFrame
  split
  · split
    · exact keeps_countPort _ _ _
    · exact (keeps_countPort _ _ _).trans (keeps_takeOffer _ _)
  · exact .refl s

theorem keeps_completeFrame (p : PortId) (f : Assembly) (s : State) : Keeps s (completeFrame p f s) := by
  unfold completeFrame
  exact ((keeps_setPort p _ s).trans (keeps_giveVerdict _ _ _)).trans (keeps_offerFrame _ _ _ _)

theorem keeps_addPacket (p : PortId) (f : Assembly) (k : Packet) (b : Bool) (s : State) : Keeps s (addPacket p f k b s) := by
  have hclose (g : Assembly) (x : PortRec) (t : State) (ht : Keeps s t) :
      Keeps s (if g.count = perFrame (setPort p x t) then completeFrame p g (setPort p x t) else setPort p x t) := by
    split
    · exact (ht.trans (keeps_setPort _ _ _)).trans (keeps_completeFrame _ _ _)
    · exact ht.trans (keeps_setPort _ _ _)
  refine hclose _ _ _ ?_
  split
  · exact keeps_countPort _ _ _
  · exact .refl s

theorem keeps_alignmentError (p : PortId) (s : State) : Keeps s (alignmentError p s) :=
  (keeps_countPort _ _ _).trans (keeps_enterHunting _ _)

theorem keeps_damagedPacket (p : PortId) (s : State) : Keeps s (damagedPacket p s) := by
  unfold damagedPacket
  split
  · exact keeps_addPacket _ _ _ _ _
  · split
    · exact keeps_alignmentError _ _
    · exact .refl s

theorem keeps_ordinaryPacket (p : PortId) (k : Packet) (s : State) : Keeps s (ordinaryPacket p k s) := by
  unfold ordinaryPacket
  dsimp only
  split
  · exact (keeps_setPort p _ s).trans (keeps_addPacket _ _ _ _ _)
  · split
    · exact (keeps_setPort p _ s).trans (keeps_alignmentError _ _)
    · exact keeps_setPort p _ s

theorem keeps_openFrame (p : PortId) (t : Int) (k : Packet) (s : State) : Keeps s (openFrame p t k s) :=
  (keeps_alignContinuity p s).trans (keeps_setPort _ _ _)

theorem keeps_timingCandidate (p : PortId) (t : Int) (k : Packet) (s : State) : Keeps s (timingCandidate p t k s) := by
  have hrest (u : State) : Keeps u (if !validTiming k then giveVerdict p .badTiming (enterHunting p u)
      else if !inFormat u (readTiming k) then giveVerdict p .format (enterHunting p u) else openFrame p t k u) := by
    split
    · exact (keeps_enterHunting _ _).trans (keeps_giveVerdict _ _ _)
    · split
      · exact (keeps_enterHunting _ _).trans (keeps_giveVerdict _ _ _)
      · exact keeps_openFrame _ _ _ _
  unfold timingCandidate
  refine Keeps.trans (t := if (portRec s p).opened.isSome then
    giveVerdict p .short (setPort p { portRec s p with opened := none } s) else s) ?_ (hrest _)
  split
  · exact (keeps_setPort p _ s).trans (keeps_giveVerdict _ _ _)
  · exact .refl s

theorem keeps_loseSync (p : PortId) (s : State) : Keeps s (loseSync p s) := by
  unfold loseSync
  exact (((keeps_countPort p _ s).trans (keeps_loseAlignment _ _)).trans (keeps_setPortMode _ _ _)).trans (keeps_occur _ _)

theorem keeps_alignedPacket (p : PortId) (t : Int) (k : Packet) (s : State) : Keeps s (alignedPacket p t k s) := by
  unfold alignedPacket
  dsimp only
  split
  · split
    · exact (keeps_setPort p _ s).trans (keeps_timingCandidate _ _ _ _)
    · exact (keeps_setPort p _ s).trans (keeps_ordinaryPacket _ _ _)
  · split
    · exact (keeps_setPort p _ s).trans (keeps_loseSync _ _)
    · exact (keeps_setPort p _ s).trans (keeps_damagedPacket _ _)

theorem keeps_findAlignment (p : PortId) (n : Nat) (s : State) : Keeps s (findAlignment p n s) := by
  unfold findAlignment
  exact ((((keeps_setPort p _ s).trans (keeps_setPortMode _ _ _)).trans (keeps_setPort _ _ _)).trans
    (keeps_alignContinuity _ _)).trans (keeps_occur _ _)

theorem keeps_huntByte (p : PortId) (b : Byte) (s : State) : Keeps s (huntByte p b s) := by
  have h (c : Prop) [Decidable c] (x : PortRec) (n : Nat) :
      Keeps s (if c then findAlignment p n (setPort p x s) else setPort p x s) := by
    split
    · exact (keeps_setPort _ _ _).trans (keeps_findAlignment _ _ _)
    · exact keeps_setPort _ _ _
  exact h _ _ _

theorem keeps_feedByteEffect (p : PortId) (b : Byte) (s : State) : Keeps s (feedByteEffect p b s) := by
  have hrest (t : State) (x : PortRec) : Keeps t (if isAligned x.mode then setPort p { portRec t p with firstByte := some (arrivalStamp t p) } t
      else huntByte p b t) := by
    split
    · exact keeps_setPort _ _ _
    · exact keeps_huntByte _ _ _
  unfold feedByteEffect
  dsimp only
  split
  · exact .refl s
  · refine Keeps.trans ?_ (hrest _ _)
    split
    · exact (keeps_setPort p _ s).trans (keeps_setPortMode _ _ _)
    · exact keeps_setPort p _ s

theorem keeps_feedPacketEffect (p : PortId) (k : Packet) (s : State) : Keeps s (feedPacketEffect p k s) := by
  unfold feedPacketEffect
  split
  · exact (keeps_setPort p _ s).trans (keeps_alignedPacket _ _ _ _)
  · exact .refl s

theorem keeps_lineActivityEffect (p : PortId) (s : State) : Keeps s (lineActivityEffect p s) := by
  have hdark : Keeps s (setPortMode p .dark (loseAlignment p s)) := (keeps_loseAlignment _ _).trans (keeps_setPortMode _ _ _)
  unfold lineActivityEffect
  dsimp only
  split
  · split
    · exact (hdark.trans (keeps_countPort _ _ _)).trans (keeps_occur _ _)
    · exact hdark
  · exact .refl s

theorem keeps_silenceEffect (p : PortId) (s : State) : Keeps s (silenceEffect p s) := by
  unfold silenceEffect
  dsimp only
  split
  · split
    · split
      · exact keeps_giveVerdict _ _ _
      · exact keeps_giveVerdict _ _ _
      · exact keeps_setPort _ _ _
      · exact .refl s
    · exact .refl s
  · exact .refl s

theorem keeps_portEnabledWrite (p : PortId) (on : Bool) (s : State) : Keeps s (portEnabledWrite p on s) := by
  unfold portEnabledWrite
  dsimp only
  split
  · exact ((keeps_setLive s _).trans (keeps_setPort p _ _)).trans (keeps_setPortMode _ _ _)
  · exact ((keeps_setLive s _).trans (keeps_loseAlignment p _)).trans (keeps_setPortMode _ _ _)

theorem keeps_formatWriteAt (p : PortId) (s : State) : Keeps s (formatWriteAt p s) := by
  unfold formatWriteAt
  split
  · exact (keeps_enterHunting p s).trans (keeps_setPort p _ _)
  · exact .refl s

theorem keeps_formatWrite (s : State) : Keeps s (formatWrite s) := (keeps_formatWriteAt _ _).trans (keeps_formatWriteAt _ _)

/-! ## The Site Clock's events (01) -/

theorem keeps_regovernFit (s : State) : Keeps s (regovernFit s) := (keeps_regovern s).trans (keeps_judgeFit _)

theorem keeps_stepEvent (d : Int) (s : State) : Keeps s (stepEvent d s) := by
  unfold stepEvent stepEmission
  exact (((((((keeps_setEv s _).trans (keeps_occur 3 _)).trans (keeps_moveClock d _)).trans (keeps_setFeed _ _)).trans
    (keeps_moveStoreTimes _ _)).trans (keeps_setEm _ _)).trans (keeps_reAnchorUnlessOff _ _)).trans (keeps_moveDriveTimes _ _)

theorem keeps_setSecondCount (k : Option Nat) (s : State) : Keeps s (setSecondCount k s) := by
  unfold setSecondCount
  split
  · split
    · dsimp only
      have hset : Keeps s (s.setClock { s.clock with secondsSet := true }) := keeps_setClock_same (by rfl)
      split
      · exact hset
      · exact hset.trans (keeps_stepEvent _ _)
    · exact .refl s
  · exact .refl s

theorem keeps_stepClock (n : InputId) (e : Int) (k : Option Nat) (s : State) : Keeps s (stepClock n e k s) := by
  have hset (x : PerInput InputRec) : Keeps s (dropSlew (s.setClock { s.clock with inputs := x, lockCount := 0, secondsSet := true })) :=
    Keeps.trans (t := s.setClock { s.clock with inputs := x, lockCount := 0, secondsSet := true }) (keeps_setClock_same (by rfl)) (keeps_setClock_same (by rfl))
  unfold stepClock
  exact (hset _).trans (keeps_stepEvent _ _)

theorem keeps_governPulse (n : InputId) (e : Int) (k : Option Nat) (s : State) : Keeps s (governPulse n e k s) := by
  have hrest (t : State) : Keeps t (if t.clock.mode = .acquiring ∨ t.clock.mode = .locked then slewClock n t else t) := by
    split
    · exact keeps_slewClock _ _
    · exact .refl t
  have hlock (t : State) : Keeps t (judgeFit (if t.clock.mode = .acquiring then countLock n t else t)) := by
    refine Keeps.trans ?_ (keeps_judgeFit _)
    split
    case isTrue hm => exact keeps_countLock n hm
    case isFalse => exact .refl t
  unfold governPulse
  dsimp only
  split
  · split
    · exact ((keeps_regovern s).trans (keeps_judgeFit _)).trans (keeps_stepClock _ _ _ _)
    · exact (((keeps_regovern s).trans (hlock _)).trans (keeps_setSecondCount _ _)).trans (hrest _)
  · exact (keeps_regovern s).trans (keeps_judgeFit _)

theorem keeps_pulseEffect (n : InputId) (s : State) : Keeps s (pulseEffect n s) := by
  have hcross (b : Bool) (t : State) : Keeps t (if b then crossCheck n t else t) := by
    split
    · exact keeps_crossCheck _ _
    · exact .refl t
  unfold pulseEffect
  split
  · exact (((keeps_countPulse n _ _ s).trans (keeps_filterPulse _ _ _)).trans (keeps_pulseTransition _ _ _ _)).trans
      (((hcross _ _).trans (keeps_governPulse _ _ _ _)).trans (keeps_recordPulse _ _ _ _ _))
  · exact .refl s

theorem keeps_missingEffect (n : InputId) (s : State) : Keeps s (missingEffect n s) := by
  unfold missingEffect
  split
  · exact ((keeps_setInput n _ s).trans (keeps_missingTransition _ _)).trans (keeps_regovernFit _)
  · exact .refl s

theorem keeps_suspectTimeoutEffect (n : InputId) (s : State) : Keeps s (suspectTimeoutEffect n s) := by
  unfold suspectTimeoutEffect
  dsimp only
  split
  · exact (keeps_enterDisqualified _ _).trans (keeps_regovernFit _)
  · exact .refl s

theorem keeps_secondBoundaryEffect (s : State) : Keeps s (secondBoundaryEffect s) := by
  unfold secondBoundaryEffect
  split
  · split
    case isTrue hm => exact ((keeps_growth hm _ _).trans (keeps_judgeGuard _)).trans (keeps_judgeFit _)
    case isFalse => exact keeps_setClock_same (by rfl)
  · exact .refl s

theorem keeps_setClockParams (p : ClockParams) (s : State) : Keeps s (setClockParams p s) := keeps_setLive _ _

theorem keeps_inputEnabledWrite (n : InputId) (on : Bool) (s : State) : Keeps s (inputEnabledWrite n on s) := by
  unfold inputEnabledWrite
  dsimp only
  refine Keeps.trans ?_ (keeps_regovernFit _)
  refine Keeps.trans ?_ (keeps_setInputMode _ _ _)
  split
  · exact keeps_setClockParams _ s
  · exact (keeps_setClockParams _ s).trans (keeps_setInput _ _ _)

theorem keeps_guardWrite (g : Nat) (s : State) : Keeps s (guardWrite g s) :=
  ((keeps_setClockParams _ s).trans (keeps_judgeGuard _)).trans (keeps_judgeFit _)

/-! ## Settings (09) -/

theorem keeps_rateWrite (s : State) : Keeps s (rateWrite s) := keeps_setLink_same (by rfl)

theorem keeps_priorityWrite (i : InputId) (v : Nat) (s : State) : Keeps s (priorityWrite i v s) :=
  (keeps_setClockParams _ s).trans (keeps_regovernFit _)

theorem keeps_writeSetting (group index : Nat) (x : Setting) (v : Int) (s : State) : Keeps s (writeSetting group index x v s) := by
  have plain : Keeps s (s.setLive (x.put s.live v)) := keeps_setLive _ _
  have grid : Keeps s (restartGrid (s.setLive (x.put s.live v))) := plain.trans (keeps_setEm _ _)
  unfold writeSetting
  dsimp only
  split
  · exact (keeps_setClockParams _ s).trans (keeps_regovernFit _)
  · exact keeps_guardWrite _ _
  · exact keeps_inputEnabledWrite _ _ _
  · exact keeps_inputEnabledWrite _ _ _
  · exact keeps_inputEnabledWrite _ _ _
  · exact keeps_priorityWrite _ _ _
  · exact keeps_priorityWrite _ _ _
  · exact keeps_priorityWrite _ _ _
  · exact keeps_portEnabledWrite _ _ _
  · exact keeps_portEnabledWrite _ _ _
  · exact plain.trans (keeps_formatWrite _)
  · exact grid.trans (keeps_formatWrite _)
  · exact grid.trans (keeps_formatWrite _)
  · exact keeps_installedWrite _ _
  · exact plain.trans (keeps_rateWrite _)
  · exact plain

theorem keeps_revertOne (held : Params) (group : Nat) (r : Reverted) (index : Nat) : Keeps r.state (revertOne held group r index).state := by
  unfold revertOne
  split
  · exact .refl _
  · split
    · exact .refl _
    · split
      · exact .refl _
      · exact keeps_writeSetting _ _ _ _ _

theorem keeps_revertGroup (held : Params) (group : Nat) (is : List Nat) (r : Reverted) :
    Keeps r.state (revertGroup held group is r).state := by
  unfold revertGroup
  induction is generalizing r with
  | nil => exact .refl _
  | cons i is ih => exact (keeps_revertOne held group r i).trans (ih _)

theorem keeps_revertPriorities (held : Params) (r : Reverted) : Keeps r.state (revertPriorities held r).state := by
  unfold revertPriorities
  dsimp only
  split
  · exact .refl _
  · exact (keeps_setClockParams _ _).trans (keeps_regovernFit _)

theorem keeps_revertAll (held : Params) (s : State) : Keeps s (revertAll held s).state := by
  unfold revertAll
  exact (((((((keeps_revertGroup held 1 _ { state := s }).trans (keeps_revertPriorities _ _)).trans (keeps_revertGroup _ _ _ _)).trans
    (keeps_revertGroup _ _ _ _)).trans (keeps_revertGroup _ _ _ _)).trans (keeps_revertGroup _ _ _ _)).trans
    (keeps_revertGroup _ _ _ _)).trans (keeps_revertGroup _ _ _ _)

theorem keeps_reqSetSetting (id : BitVec 16) (value : BitVec 32) (s : State) : Keeps s (reqSetSetting id value s).state := by
  unfold reqSetSetting
  dsimp only
  split
  · exact .refl s
  · split
    · exact .refl s
    · split
      · exact .refl s
      · unfold writeIfNew
        split
        · exact .refl s
        · exact keeps_writeSetting _ _ _ _ _

theorem keeps_reqCommitSettings (s : State) : Keeps s (reqCommitSettings s).state := by
  unfold reqCommitSettings
  split
  · exact .refl s
  · refine keeps_setLink (fun h => h.1) (fun h => ⟨h.2.2.2.2.2.2.2.1, h.2.2.2.2.2.2.2.2.1, fun c hc => ?_⟩)
    obtain rfl : snapshot s = c := by simpa using hc
    exact h.2.2.2.1

theorem keeps_completionEffect (s : State) : Keeps s (completionEffect s) := by
  unfold completionEffect
  split
  case h_1 c hc =>
    refine Keeps.trans (t := s.setLink { s.link with stored := some c, held := c, busy := none }) ?_ (keeps_setEv _ _)
    refine keeps_setLink (fun h => h.1) (fun h => ?_)
    have hok : ContentsOk c := h.2.2.2.2.2.2.2.2.2 c hc
    refine ⟨hok, fun d hd => ?_, fun d hd => by simp at hd⟩
    obtain rfl : c = d := by simpa using hd
    exact hok
  case h_2 => exact .refl s

theorem keeps_reqRevertSettings (s : State) : Keeps s (reqRevertSettings s).state := by
  have h := keeps_revertAll s.link.held.params s
  unfold reqRevertSettings
  generalize revertAll s.link.held.params s = r at h
  split
  · exact .refl s
  · exact h

/-! ## Requests of the blocks -/

theorem keeps_reportAndClear (clear : Byte) (body : List Byte) {cleared : State → State} {s : State} (h : Keeps s (cleared s)) :
    Keeps s (reportAndClear clear body cleared s).state := by
  unfold reportAndClear
  split
  · exact .refl s
  · split
    · exact h
    · exact .refl s

theorem keeps_reqSelectReference (n : Byte) (s : State) : Keeps s (reqSelectReference n s).state := by
  have hforced (f : Option InputId) : Keeps s (s.setClock { s.clock with forced := f }) := keeps_setClock_same (by rfl)
  unfold reqSelectReference
  split
  · exact (hforced _).trans (keeps_regovernFit _)
  · split
    · split
      · exact (hforced _).trans (keeps_regovernFit _)
      · exact .refl s
    · exact .refl s

theorem keeps_reqReseedReference (n : Byte) (s : State) : Keeps s (reqReseedReference n s).state := by
  unfold reqReseedReference
  split
  · split
    · exact ((keeps_setInput _ _ s).trans (keeps_setInputMode _ _ _)).trans (keeps_regovernFit _)
    · exact .refl s
  · exact .refl s

theorem keeps_reqFeedStatus (port clear : Byte) (s : State) : Keeps s (reqFeedStatus port clear s).state := by
  unfold reqFeedStatus
  split
  · exact keeps_reportAndClear _ _ (keeps_countPort _ _ _)
  · exact .refl s

theorem keeps_reqFeedHold (selection : Byte) (s : State) : Keeps s (reqFeedHold selection s).state := by
  unfold reqFeedHold
  (repeat' split) <;> first
    | exact .refl s
    | exact keeps_setFeed _ _

theorem keeps_reqStartEmission (s : State) : Keeps s (reqStartEmission s).state := by
  unfold reqStartEmission
  split
  · exact keeps_enterAnchoring _ _
  · exact .refl s

theorem keeps_reqStopEmission (s : State) : Keeps s (reqStopEmission s).state := by
  unfold reqStopEmission
  split
  · exact .refl s
  · exact keeps_enterOff _

theorem keeps_reqReAnchor (s : State) : Keeps s (reqReAnchor s).state := by
  unfold reqReAnchor
  split
  · exact .refl s
  · exact keeps_enterAnchoring _ _

theorem keeps_reqClipStatus (n : Byte) (s : State) : Keeps s (reqClipStatus n s).state := by
  unfold reqClipStatus
  split <;> exact .refl s

theorem keeps_reqPlanList (start : Byte) (s : State) : Keeps s (reqPlanList start s).state := by
  unfold reqPlanList
  split <;> exact .refl s

theorem keeps_reqGetSetting (id : BitVec 16) (s : State) : Keeps s (reqGetSetting id s).state := by
  unfold reqGetSetting
  split <;> exact .refl s

theorem keeps_reqCue (d : CueData) (s : State) : Keeps s (reqCue d s).state := by
  unfold reqCue
  split
  · exact .refl s
  · split
    · exact keeps_judgeCue _ _ _ _
    · exact .refl s

theorem keeps_reqChannelStatus (n : Byte) (s : State) : Keeps s (reqChannelStatus n s).state := by
  unfold reqChannelStatus
  split <;> exact .refl s

theorem keeps_reqAbortSplice (n : Byte) (s : State) : Keeps s (reqAbortSplice n s).state := by
  unfold reqAbortSplice
  split
  · exact .refl s
  · split
    · exact .refl s
    case h_2 c hc =>
      split
      · exact keeps_setChannel hc (by rfl) (by rfl) (by rfl)
      · exact (keeps_disarm hc).trans (keeps_arbitrate _ _)

theorem keeps_reqClearTrips (s : State) : Keeps s (reqClearTrips s).state := by
  have hcleared (c : DriveCounts) : Keeps s (recomputeCeiling (Four.all.foldl reEnable (s.setDrive { s.drive with counts := c }))) :=
    (Keeps.trans (keeps_setDrive_same (by rfl)) (Keeps.fold keeps_reEnable Four.all _)).trans (keeps_recomputeCeiling _)
  unfold reqClearTrips
  dsimp only
  split
  · split
    · exact (hcleared _).trans (keeps_setDrive_same (by rfl))
    · exact (hcleared _).trans (keeps_releaseTrips _)
  · exact (hcleared _).trans (keeps_releaseTrips _)
  · exact hcleared _

theorem keeps_reqSetPower (p : BitVec 16) (s : State) : Keeps s (reqSetPower p s).state :=
  Keeps.trans (keeps_setDrive_same (by rfl)) (keeps_recomputeCeiling _)

theorem keeps_reqModuleStatus (n : Byte) (s : State) : Keeps s (reqModuleStatus n s).state := by
  unfold reqModuleStatus
  split <;> exact .refl s

theorem keeps_reqAlarmClear (er : BitVec 32) (set : BitVec 40) (s : State) : Keeps s (reqAlarmClear er set s).state := by
  unfold reqAlarmClear
  split
  · exact .refl s
  · split
    · exact .refl s
    · exact keeps_clearItems er (itemsOf set) (s, [])

theorem keeps_reqRestart (s : State) : Keeps s (reqRestart s).state := by
  unfold reqRestart
  split
  · exact .refl s
  · exact keeps_setLink_same (by rfl)

/-! ## Serving a request, the receiver and the transmitter (09) -/

theorem keeps_fixed {length : Nat} {body : List Byte} {op : State → Answer} {s : State} (h : Keeps s (op s).state) :
    Keeps s (fixed length body op s).state := by
  unfold fixed
  split
  · exact h
  · exact .refl s

theorem keeps_counted {place base each : Nat} {body : List Byte} {op : Nat → State → Answer} {s : State}
    (h : ∀ k, Keeps s (op k s).state) : Keeps s (counted place base each body op s).state := by
  unfold counted
  dsimp only
  split
  · exact h _
  · exact .refl s

theorem keeps_serveLow (kind : Nat) (b : List Byte) (s : State) : Keeps s (serveLow kind b s).state := by
  unfold serveLow
  split
  · exact keeps_fixed (.refl s)
  · exact keeps_fixed (.refl s)
  · exact keeps_fixed (keeps_setLink_same (by rfl))
  · exact keeps_fixed (keeps_reqRestart s)
  · exact keeps_fixed (keeps_reqGetSetting _ s)
  · exact keeps_fixed (keeps_reqSetSetting _ _ s)
  · exact keeps_fixed (keeps_reqCommitSettings s)
  · exact keeps_fixed (keeps_reqRevertSettings s)
  · exact keeps_fixed (.refl s)
  · exact keeps_fixed (.refl s)
  · exact keeps_fixed (keeps_reqSelectReference _ s)
  · exact keeps_fixed (keeps_reqReseedReference _ s)
  · exact keeps_fixed (keeps_reqFeedStatus _ _ s)
  · exact keeps_fixed (keeps_reqFeedHold _ s)
  · exact keeps_fixed (keeps_reportAndClear _ _ (keeps_setStore_same (by rfl)))
  · exact keeps_fixed (.refl s)
  · exact .refl s

theorem keeps_serveMiddle (kind : Nat) (b : List Byte) (s : State) : Keeps s (serveMiddle kind b s).state := by
  unfold serveMiddle
  split
  · exact keeps_fixed (keeps_reqStartEmission s)
  · exact keeps_fixed (keeps_reqStopEmission s)
  · exact keeps_fixed (keeps_reqReAnchor s)
  · exact keeps_fixed (keeps_setMute _ s)
  · exact keeps_fixed (keeps_setMute _ s)
  · exact keeps_fixed (keeps_setEm s _)
  · exact keeps_fixed (keeps_reportAndClear _ _ (keeps_countEmission _ s))
  · exact keeps_counted (fun _ => keeps_reqDefineService _ _ _ s)
  · exact keeps_fixed (keeps_reqDeleteService _ s)
  · exact keeps_fixed (.refl s)
  · exact keeps_fixed (keeps_reqClipOpen _ _ _ _ s)
  · exact keeps_counted (fun _ => keeps_reqClipData _ _ s)
  · exact keeps_fixed (keeps_reqClipSeek _ _ s)
  · exact keeps_fixed (keeps_reqClipClose _ s)
  · exact keeps_fixed (keeps_reqClipDelete _ s)
  · exact keeps_fixed (keeps_reqClipStatus _ s)
  · exact .refl s

theorem keeps_serveHigh (kind : Nat) (b : List Byte) (s : State) : Keeps s (serveHigh kind b s).state := by
  unfold serveHigh
  split
  · exact keeps_counted (fun _ => keeps_reqPlanSet _ _ _ _ _ _ _ s)
  · exact keeps_fixed (keeps_reqPlanDelete _ _ _ s)
  · exact keeps_fixed (keeps_reqPlanList _ s)
  · exact keeps_fixed (keeps_reqCue _ s)
  · exact keeps_fixed (keeps_reportAndClear _ _ (keeps_countCue _ s))
  · exact keeps_fixed (keeps_reqChannelStatus _ s)
  · exact keeps_fixed (keeps_reqAbortSplice _ s)
  · exact keeps_fixed (keeps_setDrive_same (by rfl))
  · exact keeps_fixed (keeps_setDrive_same (by rfl))
  · exact keeps_fixed (keeps_reqSetPower _ s)
  · exact keeps_fixed (keeps_reqClearTrips s)
  · exact keeps_fixed (keeps_reportAndClear _ _ (keeps_setDrive_same (by rfl)))
  · exact keeps_fixed (keeps_reqModuleStatus _ s)
  · exact keeps_fixed (.refl s)
  · exact keeps_fixed (keeps_reqAlarmClear _ _ s)
  · exact .refl s

/-- Every owner keeps the invariants, whatever the request. -/
theorem keeps_serve (kind : Byte) (body : List Byte) (s : State) : Keeps s (serve kind body s).state := by
  unfold serve
  split
  · exact keeps_serveLow _ _ _
  · split
    · exact keeps_serveMiddle _ _ _
    · exact keeps_serveHigh _ _ _

theorem keeps_formReply (kind tag : Byte) {a : Answer} {s : State} (h : Keeps s a.state) : Keeps s (formReply kind tag a) := by
  unfold formReply
  dsimp only
  have hreply (t : State) (f : List Byte) : Keeps t (t.setLink { t.link with reply := some f, protocolError := false }) := keeps_setLink_same (by rfl)
  have hlost (t : State) : Keeps t (t.setAlarms { t.alarms with lost := false }) := keeps_setAlarms_same (by rfl) (by rfl)
  exact ((h.trans (keeps_closeEvent _)).trans (hlost _)).trans (hreply _ _)

theorem keeps_submit (kind tag : Byte) (body : List Byte) {op : State → Answer} {s : State} (h : Keeps s (op s).state) :
    Keeps s (submit kind tag body op s) := by
  unfold submit
  split
  · exact keeps_formReply _ _ h
  · split
    case isTrue hl => exact keeps_setLink (fun _ => by simpa using Nat.succ_le_of_lt hl) (fun h => h.2.2.2.2.2.2.2)
    case isFalse => exact keeps_setLink_same (by rfl)

theorem keeps_receiveByte (s : State) (b : Byte) : Keeps s (receiveByte s b) := by
  have hsubmit (content : List Byte) (t : State) : Keeps t (completeRequest content t) :=
    Keeps.trans (t := setRx .hunt t) (keeps_setLink_same (by rfl)) (keeps_submit _ _ _ (keeps_serve _ _ _))
  have herror (t : State) : Keeps t (frameError t) := keeps_setLink_same (by rfl)
  have hrx (r : Receiver) (t : State) : Keeps t (setRx r t) := keeps_setLink_same (by rfl)
  refine Keeps.trans (t := s.setLink { s.link with rxLast := s.clock.cycles }) (keeps_setLink_same (by rfl)) ?_
  unfold receiveByte
  generalize s.setLink { s.link with rxLast := s.clock.cycles } = t
  unfold receiveInPhase judgeLength judgeCrc
  (repeat' split) <;> first
    | exact .refl t
    | exact hrx _ _
    | exact herror _
    | exact hsubmit _ _

theorem keeps_dispatchHead (s : State) : Keeps s (dispatchHead s) := by
  unfold dispatchHead
  split
  · exact .refl s
  case h_2 r rest hq =>
    split
    · refine keeps_formReply _ _ (Keeps.trans (t := s.setLink { s.link with queue := rest }) ?_ (keeps_serve _ _ _))
      refine keeps_setLink (fun h => ?_) (fun h => h.2.2.2.2.2.2.2)
      have := h.1
      rw [hq] at this
      exact (Nat.le_succ _).trans this
    · exact .refl s

theorem keeps_transmitCompleteEffect (s : State) : Keeps s (transmitCompleteEffect s) := by
  unfold transmitCompleteEffect
  split
  · exact .refl s
  · refine Keeps.trans (Keeps.trans (t := s.setLink { s.link with tx := none }) (keeps_setLink_same (by rfl)) ?_) (keeps_dispatchHead _)
    split
    · exact keeps_setLink_same (by rfl)
    · exact .refl _

theorem keeps_rateEffect (s : State) : Keeps s (rateEffect s) := by
  unfold rateEffect
  split
  · exact Keeps.trans (keeps_setLink_same (by rfl)) (keeps_dispatchHead _)
  · exact .refl s

theorem keeps_gapEffect (s : State) : Keeps s (gapEffect s) := by
  unfold gapEffect
  split
  · exact keeps_setLink_same (by rfl)
  · exact .refl s

theorem keeps_transmit (s : State) : Keeps s (transmit s) := by
  have hnotice (n : Notice) (rest : List Notice) (h : s.alarms.notices = n :: rest) : Keeps s (sendNotice s n rest) :=
    Keeps.trans (t := s.setAlarms { s.alarms with notices := rest }) (keeps_setAlarms_same (by simp [h]) (by rfl)) (keeps_setLink_same (by rfl))
  have hreply (f : List Byte) : Keeps s (sendReply s f) := keeps_setLink_same (by rfl)
  unfold transmit
  split
  · exact .refl s
  · split
    case h_1 => exact .refl s
    case h_2 => exact hreply _
    case h_3 h => exact hnotice _ _ h
    case h_4 h =>
      split
      · exact hnotice _ _ h
      · exact hreply _

/-! ## Starts and power (09) -/

theorem loaded_contentsOk {stored : Option Contents} (h : ∀ c ∈ stored, ContentsOk c) : ContentsOk (loaded stored).1 := by
  cases stored with
  | none => exact ⟨by decide, List.Pairwise.nil, by decide⟩
  | some c => exact h c rfl

/-- The start values of every block meet the invariants, as far as the stored contents do. -/
theorem keeps_startBlocks (cause : StartCause) (s : State) :
    let t := startBlocks cause s
    Keeps s (t.setDrive { t.drive with ceiling := ceilingOf t }) := by
  refine ⟨⟨fun _ => rfl, fun _ => ⟨by simp [TimeOk, startBlocks, startClock], by simp [ClockOk, startBlocks, startClock, maxUncertainty]⟩,
    fun _ => by simp [LevelOk, startBlocks, startDrive], fun _ r hr hl => ?_, fun h => ?_, fun _ i x q hi hq => ?_, fun _ => ?_⟩,
    fun _ => ?_⟩
  · obtain rfl := List.eq_of_mem_replicate hr
    cases hl
  · have hload := loaded_contentsOk h.2.2.2.2.2.2.2.2.1
    exact ⟨Nat.zero_le _, Nat.zero_le _, Nat.zero_le _, hload, rfl, rfl, rfl, hload, h.2.2.2.2.2.2.2.2.1, fun _ hc => by cases hc⟩
  · rw [List.eq_of_mem_replicate (List.mem_of_getElem? (show (List.replicate 64 Slot.free)[i]? = some x from hi))] at hq
    cases hq
  · have hrec : ∀ n, clipRec ((startBlocks cause s).setDrive { (startBlocks cause s).drive with ceiling := ceilingOf (startBlocks cause s) }) n =
        {} := by
      intro n
      change (List.replicate 32 ({} : Clip)).getD n {} = {}
      rw [List.getD_eq_getElem?_getD, List.getElem?_replicate]
      split <;> rfl
    refine ⟨⟨rfl, ⟨fun n hn => ?_, fun m n _ hm => ?_⟩, List.nodup_nil, fun n hn => by cases hn⟩, fun n => ?_⟩
    · rw [hrec] at hn; exact absurd rfl hn
    · rw [hrec] at hm; exact absurd rfl hm
    · rw [hrec]; exact ⟨rfl, fun h => absurd h (lt_irrefl 0)⟩
  · refine ⟨List.nodup_nil, fun e he => absurd he List.not_mem_nil, fun n c hc => ?_, fun m n c d hc => ?_⟩
    · cases n <;> cases hc
    · cases m <;> cases hc

theorem keeps_startLost (s : State) : Keeps s (startLost s) := by
  unfold startLost
  split
  · exact keeps_occur _ _
  · exact .refl s

theorem keeps_autoStart (s : State) : Keeps s (autoStart s) := by
  unfold autoStart
  split
  · exact keeps_enterAnchoring _ _
  · exact .refl s

theorem keeps_startState (cause : StartCause) (s : State) : Keeps s (startState cause s) :=
  ((keeps_startBlocks cause s).trans (keeps_startLost _)).trans (keeps_autoStart _)

theorem keeps_losePower (s : State) : Keeps s (losePower s) := by
  refine ⟨⟨id, id, id, id, fun h => ?_, id, id⟩, id⟩
  obtain ⟨hq, hn, hc, ht, hs, hcl, hr, hheld, hst, -⟩ := h
  refine ⟨hq, hn, hc, ht, hs, hcl, hr, hheld, fun c hc => ?_, fun c hc => by cases hc⟩
  change c ∈ (if s.link.busy.isSome then none else s.link.stored) at hc
  split at hc
  · cases hc
  · exact hst c hc

theorem keeps_restartEffect (s : State) : Keeps s (restartEffect s) := by
  unfold restartEffect
  split
  · exact keeps_startState _ _
  · exact .refl s

/-! ## A command, and a step -/

/-- What a command can leave: the state as it is, a part that has lost its power, or the end of a command whose effect has kept the
invariants. -/
inductive Leaves (s t : State) : Prop
  | unchanged (h : t = s)
  | powerLost (h : t = losePower s)
  | ended (u : State) (h : Keeps s u) (ht : t = transmit (closeEvent u))

theorem event_leaves {f : State → State} {s t : State} (hf : ∀ u, Keeps u (f u)) (h : event f s = .next t) : Leaves s t := by
  unfold event at h
  split at h
  · exact .ended _ ((keeps_setEv s {}).trans (hf _)) (Host.Outcome.next.inj h).symm
  · exact .unchanged (Host.Outcome.next.inj h).symm

theorem request_leaves {kind tag : Byte} {body : List Byte} {op : State → Answer} {s t : State} (hop : ∀ u, Keeps u (op u).state)
    (h : request kind tag body op s = .next t) : Leaves s t :=
  event_leaves (fun u => keeps_submit _ _ _ (hop u)) h

/-- Every command. -/
theorem exec_leaves (i : Instr) {s t : State} (h : exec i s = .next t) : Leaves s t := by
  cases i with
  | powerOn => exact .ended _ ((keeps_losePower s).trans (keeps_startState _ _)) (Host.Outcome.next.inj h).symm
  | powerFail => exact .powerLost (Host.Outcome.next.inj h).symm
  | restartStart => exact event_leaves keeps_restartEffect h
  | requestFrame bytes => exact event_leaves (fun u => Keeps.fold keeps_receiveByte bytes u) h
  | gapExpiry => exact event_leaves keeps_gapEffect h
  | transmitComplete => exact event_leaves keeps_transmitCompleteEffect h
  | lineRateApply => exact event_leaves keeps_rateEffect h
  | unknownKind kind tag body => exact request_leaves (keeps_serve _ _) h
  | identify tag => exact request_leaves (op := reqIdentify) .refl h
  | status tag => exact request_leaves (op := reqStatus) .refl h
  | ackStart tag => exact request_leaves (op := reqAckStart) (fun _ => (keeps_setLink_same (by rfl))) h
  | restart tag => exact request_leaves keeps_reqRestart h
  | getSetting tag id => exact request_leaves (keeps_reqGetSetting id) h
  | setSetting tag id value => exact request_leaves (keeps_reqSetSetting id value) h
  | commitSettings tag => exact request_leaves keeps_reqCommitSettings h
  | commitCompletion => exact event_leaves keeps_completionEffect h
  | revertSettings tag => exact request_leaves keeps_reqRevertSettings h
  | clockStatus tag => exact request_leaves (op := reqClockStatus) .refl h
  | referenceStatus tag => exact request_leaves (op := reqReferenceStatus) .refl h
  | selectReference tag n => exact request_leaves (keeps_reqSelectReference n) h
  | reseedReference tag n => exact request_leaves (keeps_reqReseedReference n) h
  | feedStatus tag port clear => exact request_leaves (keeps_reqFeedStatus port clear) h
  | feedHold tag selection => exact request_leaves (keeps_reqFeedHold selection) h
  | feedCounts tag clear => exact request_leaves (op := reqFeedCounts clear) (fun _ => keeps_reportAndClear _ _ (keeps_setStore_same (by rfl))) h
  | storeStatus tag => exact request_leaves (op := reqStoreStatus) .refl h
  | startEmission tag => exact request_leaves keeps_reqStartEmission h
  | stopEmission tag => exact request_leaves keeps_reqStopEmission h
  | reAnchor tag => exact request_leaves keeps_reqReAnchor h
  | mute tag => exact request_leaves (op := reqMute) (fun u => keeps_setMute _ u) h
  | unmute tag => exact request_leaves (op := reqUnmute) (fun u => keeps_setMute _ u) h
  | setOffset tag o => exact request_leaves (op := reqSetOffset o) (fun u => keeps_setEm u _) h
  | emissionStatus tag clear =>
    exact request_leaves (op := reqEmissionStatus clear) (fun u => keeps_reportAndClear _ _ (keeps_countEmission _ u)) h
  | defineService tag number eligible streams => exact request_leaves (keeps_reqDefineService number eligible streams) h
  | deleteService tag number => exact request_leaves (keeps_reqDeleteService number) h
  | serviceList tag => exact request_leaves (op := reqServiceList) .refl h
  | clipOpen tag n f k crc => exact request_leaves (keeps_reqClipOpen n f k crc) h
  | clipData tag n packets => exact request_leaves (keeps_reqClipData n packets) h
  | clipSeek tag n position => exact request_leaves (keeps_reqClipSeek n position) h
  | clipClose tag n => exact request_leaves (keeps_reqClipClose n) h
  | clipDelete tag n => exact request_leaves (keeps_reqClipDelete n) h
  | clipStatus tag n => exact request_leaves (keeps_reqClipStatus n) h
  | verificationStepEnd => exact event_leaves keeps_verificationEffect h
  | planSet tag keyKind avail service clip harvest early map =>
    exact request_leaves (keeps_reqPlanSet keyKind avail service clip harvest early map) h
  | planDelete tag keyKind avail service => exact request_leaves (keeps_reqPlanDelete keyKind avail service) h
  | planList tag start => exact request_leaves (keeps_reqPlanList start) h
  | cue tag entry => exact request_leaves (keeps_reqCue entry) h
  | cueList tag clear => exact request_leaves (op := reqCueList clear) (fun u => keeps_reportAndClear _ _ (keeps_countCue _ u)) h
  | channelStatus tag n => exact request_leaves (keeps_reqChannelStatus n) h
  | abortSplice tag n => exact request_leaves (keeps_reqAbortSplice n) h
  | rfEnable tag => exact request_leaves (op := reqRfEnable) (fun _ => (keeps_setDrive_same (by rfl))) h
  | rfDisable tag => exact request_leaves (op := reqRfDisable) (fun _ => (keeps_setDrive_same (by rfl))) h
  | setPower tag p => exact request_leaves (keeps_reqSetPower p) h
  | clearTrips tag => exact request_leaves keeps_reqClearTrips h
  | rfStatus tag clear => exact request_leaves (op := reqRfStatus clear) (fun _ => keeps_reportAndClear _ _ (keeps_setDrive_same (by rfl))) h
  | moduleStatus tag n => exact request_leaves (keeps_reqModuleStatus n) h
  | alarmRead tag => exact request_leaves (op := reqAlarmRead) .refl h
  | alarmClear tag epoch items => exact request_leaves (keeps_reqAlarmClear epoch items) h
  | oscillatorSecond => exact event_leaves keeps_oscillatorSecondEffect h
  | secondNumberReceived n number => exact event_leaves (f := secondNumberEffect n number) (fun u => keeps_setInput n _ u) h
  | timePulse n => exact event_leaves (keeps_pulseEffect n) h
  | missingPulse n => exact event_leaves (keeps_missingEffect n) h
  | suspectTimeout n => exact event_leaves (keeps_suspectTimeoutEffect n) h
  | holdOffExpiry n => exact event_leaves (keeps_holdOffEffect n) h
  | secondBoundary => exact event_leaves keeps_secondBoundaryEffect h
  | feedByte p byte => exact event_leaves (keeps_feedByteEffect p byte) h
  | feedPacket p sync rest => exact event_leaves (keeps_feedPacketEffect p (sync :: rest)) h
  | lineActivityExpiry p => exact event_leaves (keeps_lineActivityEffect p) h
  | silenceDeadline p => exact event_leaves (keeps_silenceEffect p) h
  | take => exact event_leaves keeps_takeEffect h
  | anchorReached => exact event_leaves keeps_anchorReachedEffect h
  | packetDeparture => exact event_leaves keeps_departureEffect h
  | freeGridPacket => exact event_leaves keeps_freeGridEffect h
  | monitoringSample samples => exact event_leaves (keeps_sampleEffect samples) h
  | rampTick => exact event_leaves keeps_rampTickEffect h
  | retryEnd => exact event_leaves keeps_retryEndEffect h
  | steadyPeriodExpiry => exact event_leaves keeps_steadyEffect h

theorem Leaves.keeps {s t : State} (h : Leaves s t) : Keeps s t := by
  cases h with
  | unchanged h => exact h ▸ .refl s
  | powerLost h => exact h ▸ keeps_losePower s
  | ended u h ht => exact ht ▸ ((h.trans (keeps_closeEvent _)).trans (keeps_transmit _))

/-- The queue of commands bears on no invariant. -/
theorem keeps_pending (s : State) (rest : List Instr) : Keeps s { s with pending := rest } := ⟨⟨id, id, id, id, id, id, id⟩, id⟩

theorem keeps_idle (s : State) : Keeps s (idle s) := by
  unfold idle
  split
  · exact keeps_oscillatorCycle s
  · exact .refl s

/-- A step is the idle cycle, or the front command on the state with the rest of the queue. -/
theorem step_cases {s t : State} (h : Machine.step s = .next t) :
    t = idle s ∨ ∃ rest, Leaves { s with pending := rest } t := by
  unfold Machine.step at h
  split at h
  · exact .inl (Host.Outcome.next.inj h).symm
  case h_2 c rest _ => exact .inr ⟨rest, exec_leaves c h⟩

theorem step_keeps {s t : State} (h : Machine.step s = .next t) : Keeps s t := by
  rcases step_cases h with rfl | ⟨rest, hl⟩
  · exact keeps_idle s
  · exact (keeps_pending s rest).trans hl.keeps

/-! ## What the end of a command brings -/

/-- A property that the idle cycle, the queue, the loss of power and the transmitter keep, and that the end of a command brings. -/
theorem step_brings {P : State → Prop} {s t : State} (hs : P s) (hidle : P s → P (idle s))
    (hpending : ∀ rest, P s → P { s with pending := rest }) (hpower : ∀ u, P u → P (losePower u)) (htransmit : ∀ u, P u → P (transmit u))
    (hclose : ∀ u, Keeps s u → P (closeEvent u)) (h : Machine.step s = .next t) : P t := by
  rcases step_cases h with rfl | ⟨rest, hl⟩
  · exact hidle hs
  · cases hl with
    | unchanged h => exact h ▸ hpending rest hs
    | powerLost h => exact h ▸ hpower _ (hpending rest hs)
    | ended u h ht => exact ht ▸ htransmit _ (hclose u ((keeps_pending s rest).trans h))

theorem idle_only (s : State) : ∃ x : ClockState, idle s = s.setClock x ∧ x.mode = s.clock.mode := by
  unfold idle
  split
  · exact ⟨_, rfl, rfl⟩
  · exact ⟨s.clock, rfl, rfl⟩

theorem linesOk_transmit {u : State} (h : LinesOk u) : LinesOk (transmit u) := by
  rw [transmit_eq]
  exact h

theorem driveOk_transmit {u : State} (h : DriveOk u) : DriveOk (transmit u) := by
  rw [transmit_eq]
  exact h

end Sys2Proof.Machine
end

section
open Sys2Proof Sys2Proof.Machine

/-- Settles O6: memory is only written by whole blocks, and a write keeps the canonical form. -/
theorem stepKeepsMemoryCanonical : Obligations.StepKeepsMemoryCanonical := fun _ _ hs h => (step_keeps h).memory hs

/-- Settles O7: every move of site time comes out in 64 bits, and the clock acts at once on each change of its governing input. -/
theorem stepKeepsClockTable : Obligations.StepKeepsClockTable := fun _ _ hs h => (step_keeps h).clock hs

/-- Settles O8: every operation of the drive leaves a level that fits the drive state, and permission is judged at the end of each
command. -/
theorem stepKeepsDriveSafe : Obligations.StepKeepsDriveSafe := by
  intro s t hs h
  refine step_brings hs (fun hs => ?_) (fun _ => id) (fun _ => id) (fun _ => driveOk_transmit)
    (fun u hu => closeEvent_driveOk (hu.level hs.1)) h
  obtain ⟨x, hx, -⟩ := idle_only s
  rw [hx]
  exact hs

/-- Settles O9: the lines are judged at the end of each command, and every latch that is set ages the others. -/
theorem stepKeepsAlarmLines : Obligations.StepKeepsAlarmLines := by
  intro s t ⟨hlines, hepochs⟩ h
  refine ⟨step_brings hlines (fun hs => ?_) (fun _ => id) (fun _ => id) (fun _ => linesOk_transmit) (fun u _ => closeEvent_linesOk u) h,
    (step_keeps h).epochs hepochs⟩
  obtain ⟨x, hx, hm⟩ := idle_only s
  rw [hx]
  refine ⟨hs.1, hs.2.trans ?_⟩
  simp only [indication, State.setClock_live, State.setClock_clock, hm]
  rfl

/-- Settles O10: what joins a queue or a table is turned away where it is full. -/
theorem stepKeepsTableSizes : Obligations.StepKeepsTableSizes := fun _ _ hs h => (step_keeps h).sizes hs

/-- Settles O11: a copy is placed, and taken, in the slot that its sequence selects. -/
theorem stepKeepsSlotIndex : Obligations.StepKeepsSlotIndex := fun _ _ hs h => (step_keeps h).slots hs

/-- Settles O12: an extent is opened in a free run, and a use count moves with the channel that is bound or freed. -/
theorem stepKeepsClipsAndUseCounts : Obligations.StepKeepsClipsAndUseCounts := fun _ _ hs h => (step_keeps h).clips hs

/-- Settles O13: an entry and its channel are bound, changed and removed together. -/
theorem stepKeepsCueTable : Obligations.StepKeepsCueTable := fun _ _ hs h => (step_keeps h).cues hs

end

section
/-! PROOF of the queue, time, power and the plain link statements (O1, O2, O4, O5, O16, O18, O30, O41), with the form that every
command's meaning has. -/

namespace Sys2Proof.Machine
open Sys2Proof

/-! ## The forms of a command -/

/-- Every command but the two of power is an effect closed by the end of a command. -/
theorem exec_eq_event {c : Instr} (hon : c ≠ .powerOn) (hfail : c ≠ .powerFail) (s : State) : ∃ f, exec c s = event f s := by
  cases c
  case powerOn => exact absurd rfl hon
  case powerFail => exact absurd rfl hfail
  all_goals exact ⟨_, rfl⟩

/-- A request command is the request that it stands for, answered by its owner. -/
theorem exec_eq_request {i : Instr} {r : Request} (h : requestOf i = some r) (s : State) :
    ∃ op, exec i s = request r.kind r.tag r.body op s := by
  cases i <;> cases h <;> exact ⟨_, rfl⟩

/-- Settles O1: a step takes the front command off the queue. -/
theorem frontCommandRuns : Obligations.FrontCommandRuns := by
  intro s c rest h
  unfold step
  rw [h]

/-! ## The idle cycle -/

theorem correctionStep_bounds (s : State) : -1 ≤ correctionStep s ∧ correctionStep s ≤ 1 := by
  unfold correctionStep
  have := Int.sign_trichotomy s.clock.quotient
  split <;> omega

/-- The slew withholds nothing while the correction withholds an STU. -/
theorem slewStep_bounds (s : State) : -1 ≤ slewStep s + correctionStep s ∧ slewStep s ≤ 1 := by
  have hc := correctionStep_bounds s
  unfold slewStep
  dsimp only
  split
  · omega
  · split
    · have hs := Int.sign_trichotomy s.clock.slew
      split
      · omega
      case isFalse h =>
        rcases lt_or_ge s.clock.slew 0 with hneg | hpos
        · have : ¬ correctionStep s < 0 := by simpa [hneg] using h
          omega
        · have := Int.sign_nonneg_iff.mpr hpos
          omega
    · omega

theorem step_idle {s : State} (hp : Powered s) (h : s.pending = []) : step s = .next (oscillatorCycle s) := by
  unfold step idle
  rw [h]
  exact congrArg _ (if_pos hp)

/-- Settles O2: the two adjustments of a cycle add up to −1 at the least, and the 64 bits do not wrap below the bound. -/
theorem idleCycleNeverTurnsTimeBack : Obligations.IdleCycleNeverTurnsTimeBack := by
  intro s hp hq hok htop
  obtain ⟨h0, -⟩ := hok
  obtain ⟨hlow, hslew⟩ := slewStep_bounds s
  have hcorr := correctionStep_bounds s
  refine ⟨correctionStep s + slewStep s, if s.clock.slewLeft = 0 then s.clock.slewPos else s.clock.slewPos + 1,
    s.clock.slewLeft - (slewStep s).natAbs, by omega, by omega, Nat.sub_le _ _, ?_⟩
  rw [step_idle hp hq]
  unfold oscillatorCycle State.setClock
  dsimp only
  rw [show (s.clock.time + 1 + correctionStep s + slewStep s) % 18446744073709551616 =
    s.clock.time + 1 + (correctionStep s + slewStep s) by omega]

/-! ## Power -/

/-- Settles O4: the cut write is what losing power leaves, and without power a command and the idle cycle do nothing. -/
theorem powerLossStopsEverything : Obligations.PowerLossStopsEverything := by
  refine ⟨fun s => rfl, fun s c hp hon hfail => ?_, fun s hp hq => ?_⟩
  · obtain ⟨f, hf⟩ := exec_eq_event hon hfail s
    rw [hf, event_dead f hp]
  · unfold step idle
    rw [hq, hp]
    rfl

/-! ## The request queue -/

/-- A request that finds the link taken joins the queue while it has room. -/
theorem submit_joins {s : State} (hfree : linkFree s = false) (hroom : s.link.queue.length < 4) (kind tag : Byte) (body : List Byte)
    (op : State → Answer) :
    submit kind tag body op s = s.setLink { s.link with queue := s.link.queue ++ [⟨kind, tag, body⟩] } := by
  simp [submit, hfree, hroom]

/-- A request that finds the queue full is discarded with the protocol-error flag. -/
theorem submit_discarded {s : State} (hfree : linkFree s = false) (hfull : 4 ≤ s.link.queue.length) (kind tag : Byte)
    (body : List Byte) (op : State → Answer) :
    submit kind tag body op s = s.setLink { s.link with protocolError := true } := by
  simp [submit, hfree, Nat.not_lt.mpr hfull]

/-- Settles O16: the owner does not act, so that only the queue, or only the flag, is touched. -/
theorem requestQueueHoldsFour : Obligations.RequestQueueHoldsFour := by
  intro s i r hr hp hfree
  obtain ⟨op, hop⟩ := exec_eq_request hr s
  have hfree' : linkFree (s.setEv {}) = false := by simpa using hfree
  rw [hop]
  refine ⟨fun hroom => ?_, fun hfull => ?_⟩
  · exact afterEvent_intro hp (submit_joins hfree' hroom r.kind r.tag r.body op) rfl (.inr rfl)
  · exact afterEvent_intro hp (submit_discarded hfree' hfull r.kind r.tag r.body op) rfl (.inr rfl)

/-! ## Frames -/

theorem be_one (n : Nat) : be 1 n = [BitVec.ofNat 8 n] := by
  simp [be]

/-- Settles O18: the frames read off their definitions; the length counts kind, tag, result code and summary. -/
theorem replyAndNoticeFrames : Obligations.ReplyAndNoticeFrames := by
  refine ⟨fun s kind tag r body hr => ?_, fun s kind tag r body hok hadj => ?_, fun s n rest => rfl, by decide, by decide⟩
  · have hlen : 4 + (body.length : Int) + 1 + 2 = 7 + body.length := by omega
    simp [replyFrame, hr, linkFrame, be_one, hlen]
  · simp [replyFrame, hok, hadj, linkFrame, be_one]

/-! ## The oscillator second -/

theorem exec_oscillatorSecond (s : State) : exec .oscillatorSecond s = event oscillatorSecondEffect s := rfl

/-- Settles O30: the truncated quotient and its remainder. -/
theorem oscillatorSecondTakesTheCorrection : Obligations.OscillatorSecondTakesTheCorrection := by
  intro s hp hdue
  have hdiv : (s.clock.residue + s.clock.corr).tdiv 100000 * 100000 + (s.clock.residue + s.clock.corr).tmod 100000 =
      s.clock.residue + s.clock.corr := by
    rw [mul_comm]; exact Int.mul_tdiv_add_tmod _ _
  have hf : oscillatorSecondEffect (s.setEv {}) = (s.setClock { s.clock with
      residue := (s.clock.residue + s.clock.corr).tmod 100000
      quotient := (s.clock.residue + s.clock.corr).tdiv 100000
      secondsTaken := s.clock.secondsTaken + 1 }).setEv {} := by
    unfold oscillatorSecondEffect
    rw [if_pos (show (s.setEv {}).clock.secondsTaken * Config.second ≤ (s.setEv {}).clock.cycles from hdue)]
    simp only [State.setEv_clock]
    rw [show (s.clock.residue + s.clock.corr) - (s.clock.residue + s.clock.corr).tdiv 100000 * 100000 =
      (s.clock.residue + s.clock.corr).tmod 100000 by omega]
    rfl
  obtain ⟨t, hstep, hafter⟩ := afterEvent_intro hp hf rfl (.inr rfl)
  refine ⟨t, _, _, hdiv, ?_, fun h => Int.tmod_nonneg _ h, fun h => ?_, (exec_oscillatorSecond s).trans hstep, hafter⟩
  · rw [Int.natAbs_tmod]
    exact Nat.mod_lt _ (by decide)
  · have := Int.tmod_nonneg 100000 (Int.neg_nonneg.mpr h)
    rw [Int.neg_tmod] at this
    omega

/-! ## FEED HOLD -/

theorem exec_feedHold (tag x : Byte) (s : State) : exec (.feedHold tag x) s = request 0x19 tag [x] (reqFeedHold x) s := rfl

/-- A selection at a ready part: the reply is OK and only the hold changes. -/
theorem feedHold_selects {s : State} (hs : Ready s) (tag x : Byte) {hold : Option PortId}
    (hop : reqFeedHold x (s.setEv {}) = ok ((s.setEv {}).setFeed { s.feed with hold := hold })) :
    ∃ t, exec (.feedHold tag x) s = .next t ∧ Replied t 0x19 tag .ok [] ∧
      AfterRequest [] { s with feed := { s.feed with hold := hold } } t ∧
      ∀ p, heldOut t p = heldOut (s.setFeed { s.feed with hold := hold }) p := by
  obtain ⟨t, hstep, hreply, hafter⟩ :=
    afterRequest_intro (u := s.setFeed { s.feed with hold := hold }) 0x19 tag [x] hs hop rfl (.inr rfl)
  refine ⟨t, (exec_feedHold ..).trans hstep, hreply, hafter, fun p => ?_⟩
  unfold heldOut
  rw [hafter.1]

/-- Settles O41: each selection names the port that it holds out, and any other value none. -/
theorem feedHoldConfinesOffers : Obligations.FeedHoldConfinesOffers := by
  intro s tag hs
  refine ⟨?_, ?_, ?_, fun x hx => ?_⟩
  · obtain ⟨t, hstep, hreply, hafter, hheld⟩ := feedHold_selects hs tag 0 (hold := none) rfl
    exact ⟨t, hstep, hreply, hafter, hheld .a, hheld .b⟩
  · obtain ⟨t, hstep, hreply, hafter, hheld⟩ := feedHold_selects hs tag 1 (hold := some .a) rfl
    exact ⟨t, hstep, hreply, hafter, hheld .a, hheld .b⟩
  · obtain ⟨t, hstep, hreply, hafter, hheld⟩ := feedHold_selects hs tag 2 (hold := some .b) rfl
    exact ⟨t, hstep, hreply, hafter, hheld .a, hheld .b⟩
  · have hne (y : Byte) (hy : y.toNat ≤ 2) : x ≠ y := by rintro rfl; omega
    have h0 := hne 0 (by decide)
    have h1 := hne 1 (by decide)
    have h2 := hne 2 (by decide)
    rw [exec_feedHold]
    refine request_turnedDown 0x19 tag [x] hs ?_
    simp only [reqFeedHold, if_neg h0, if_neg h1, if_neg h2]

/-! ## Reset -/

theorem reset_alarmRecord {r : AlarmRec} (h : r ∈ State.reset.alarms.records) (hl : r.latched = true) : r.setEpoch = 1 := by
  rcases List.mem_append.mp h with h | h
  · obtain rfl := List.eq_of_mem_replicate h
    cases hl
  · obtain rfl := List.mem_singleton.mp h
    rfl

theorem reset_slot {i : Nat} {x : Slot} (h : State.reset.store.slots[i]? = some x) : x = .free :=
  List.eq_of_mem_replicate (List.mem_of_getElem? (show (List.replicate 64 Slot.free)[i]? = some x from h))

theorem reset_clip (n : Nat) : clipRec State.reset n = {} := by
  change (List.replicate 32 ({} : Clip)).getD n {} = {}
  rw [List.getD_eq_getElem?_getD, List.getElem?_replicate]
  split <;> rfl

/-- Settles O5: the reset state is a start with nothing stored; its tables are empty, and item 36 alone is latched. -/
theorem resetMeetsEveryInvariant : Obligations.ResetMeetsEveryInvariant := by
  refine ⟨rfl, by simp [TimeOk, State.reset], by simp [ClockOk, State.reset, maxUncertainty],
    by simp [DriveOk, LevelOk, State.reset], ⟨rfl, rfl⟩, fun r hr hl => ?_, ⟨Nat.zero_le _, Nat.zero_le _, Nat.zero_le _, ?_⟩,
    fun i x q hi hq => ?_, ⟨rfl, ⟨fun n hn => ?_, fun m n _ hm => ?_⟩, List.nodup_nil, fun n hn => absurd hn List.not_mem_nil⟩,
    fun n => ?_, ⟨List.nodup_nil, fun e he => absurd he List.not_mem_nil, fun n c hc => ?_, fun m n c d hc => ?_⟩⟩
  · rw [reset_alarmRecord hr hl]
    decide
  · have hempty : TablesOk [] [] := ⟨Nat.zero_le _, List.Pairwise.nil, Nat.zero_le _⟩
    exact ⟨hempty, rfl, rfl, rfl, hempty, fun c hc => (by cases hc), fun c hc => (by cases hc)⟩
  · rw [reset_slot hi] at hq
    cases hq
  · rw [reset_clip] at hn
    exact absurd rfl hn
  · rw [reset_clip] at hm
    exact absurd rfl hm
  · rw [reset_clip]
    exact ⟨rfl, fun h => absurd h (lt_irrefl 0)⟩
  · cases n <;> cases hc
  · cases m <;> cases hc

end Sys2Proof.Machine
end

section
/-! PROOF of the framing of requests (O14, O15, O17): what the receiver makes of the bytes of a frame, how the owners read a body, and
which bodies they turn down. -/

namespace Sys2Proof.Machine
open Sys2Proof

/-! ## Numbers in bytes -/

theorem fromBE_append (bs cs : List Byte) : fromBE (bs ++ cs) = fromBE bs * 256 ^ cs.length + fromBE cs := by
  unfold fromBE
  rw [List.foldl_append]
  generalize bs.foldl (fun acc b => acc * 256 + b.toNat) 0 = a
  induction cs generalizing a with
  | nil => simp
  | cons c cs ih =>
    rw [List.foldl_cons, ih, List.foldl_cons, ih (0 * 256 + c.toNat), List.length_cons, pow_succ]
    ring

/-- The bytes of a number give its low digits back. -/
theorem fromBE_be (n x : Nat) : fromBE (be n x) = x % 256 ^ n := by
  induction n generalizing x with
  | zero => simp [be, fromBE, Nat.mod_one]
  | succ n ih =>
    have hbyte : (BitVec.ofInt 8 ((x : Int) / 256 ^ n)).toNat = x / 256 ^ n % 256 := by
      rw [show (x : Int) / 256 ^ n = ((x / 256 ^ n : Nat) : Int) by push_cast; rfl, BitVec.ofInt_natCast, BitVec.toNat_ofNat]
    have hone (b : Byte) : fromBE [b] = b.toNat := by simp [fromBE]
    rw [be, ← List.singleton_append, fromBE_append, Laws.BodyFits.be_length, ih, hone, hbyte, Nat.pow_succ, Nat.mod_mul, add_comm,
      mul_comm]

theorem fromBE_word {n : Nat} {x : Nat} (h : x < 256 ^ n) : fromBE (be n x) = x := by
  rw [fromBE_be, Nat.mod_eq_of_lt h]

/-! ## Reading a body -/

/-- A piece of a body that stands after a head of known length. -/
theorem slice_middle {head rest : List Byte} {start : Nat} (h : head.length = start) (m : List Byte) :
    slice (head ++ (m ++ rest)) start m.length = m := by
  simp [slice, ← h]

theorem slice_two {head rest : List Byte} {start : Nat} (h : head.length = start) (x : Int) :
    slice (head ++ (be 2 x ++ rest)) start 2 = be 2 x := by
  simpa using slice_middle h (be 2 x) (rest := rest)

theorem slice_four {head rest : List Byte} {start : Nat} (h : head.length = start) (x : Int) :
    slice (head ++ (be 4 x ++ rest)) start 4 = be 4 x := by
  simpa using slice_middle h (be 4 x) (rest := rest)

theorem field16_middle {head rest : List Byte} {start : Nat} (h : head.length = start) (w : BitVec 16) :
    field16 (head ++ (word16Bytes w ++ rest)) start = w := by
  unfold field16 field word16Bytes
  rw [slice_two h, fromBE_word w.isLt, BitVec.ofNat_toNat, BitVec.setWidth_eq]

theorem field32_middle {head rest : List Byte} {start : Nat} (h : head.length = start) (w : BitVec 32) :
    field32 (head ++ (word32Bytes w ++ rest)) start = w := by
  unfold field32 field word32Bytes
  rw [slice_four h, fromBE_word w.isLt, BitVec.ofNat_toNat, BitVec.setWidth_eq]

theorem field16_first (w : BitVec 16) (rest : List Byte) : field16 (word16Bytes w ++ rest) 0 = w := field16_middle (head := []) rfl w
theorem field16_whole (w : BitVec 16) : field16 (word16Bytes w) 0 = w := by simpa using field16_first w []
theorem field32_whole (w : BitVec 32) : field32 (word32Bytes w) 0 = w := by simpa using field32_middle (head := []) rfl w (rest := [])

@[simp] theorem word16Bytes_length (w : BitVec 16) : (word16Bytes w).length = 2 := rfl
@[simp] theorem word32Bytes_length (w : BitVec 32) : (word32Bytes w).length = 4 := rfl
@[simp] theorem pairBytes_length (m : StreamPair) : (pairBytes m).length = 4 := rfl

/-- Piece i of a list of pieces that all have one length. -/
theorem drop_pieces {α : Type} {f : α → List Byte} {k : Nat} (hf : ∀ x, (f x).length = k) (xs : List α) (i : Nat) :
    (xs.flatMap f).drop (k * i) = (xs.drop i).flatMap f := by
  induction i generalizing xs with
  | zero => simp
  | succ i ih =>
    cases xs with
    | nil => simp
    | cons x xs =>
      rw [List.flatMap_cons, Nat.mul_succ, Nat.add_comm, ← List.drop_drop, List.drop_left' (hf x), ih, List.drop_succ_cons]

/-- The pieces of a body after a head, read off one by one. -/
theorem map_pieces {α : Type} {f : α → List Byte} {k start : Nat} {head : List Byte} (hhead : head.length = start)
    (hf : ∀ x, (f x).length = k) {read : Nat → α} (xs : List α)
    (hread : ∀ i (x : α) (rest : List Byte), (head ++ xs.flatMap f).drop (start + k * i) = f x ++ rest → read i = x) :
    (List.range xs.length).map read = xs := by
  refine List.ext_getElem (by simp) (fun i h _ => ?_)
  have hi : i < xs.length := by simpa using h
  rw [List.getElem_map, List.getElem_range]
  apply hread i xs[i] ((xs.drop (i + 1)).flatMap f)
  rw [← List.drop_drop, List.drop_left' hhead, drop_pieces hf, List.drop_eq_getElem_cons hi, List.flatMap_cons]

theorem field16_of_drop {bs rest : List Byte} {p : Nat} {w : BitVec 16} (h : bs.drop p = word16Bytes w ++ rest) : field16 bs p = w := by
  have := field16_first w rest
  unfold field16 field slice at this ⊢
  rwa [h]

theorem words16_pieces {head : List Byte} {start : Nat} (h : head.length = start) (xs : List (BitVec 16)) :
    words16 (head ++ xs.flatMap word16Bytes) start xs.length = xs :=
  map_pieces h word16Bytes_length xs (fun _ _ _ hx => field16_of_drop hx)

theorem pairsAt_pieces {head : List Byte} {start : Nat} (h : head.length = start) (xs : List StreamPair) :
    pairsAt (head ++ xs.flatMap pairBytes) start xs.length = xs := by
  refine map_pieces h pairBytes_length xs (fun i x rest hx => ?_)
  have hx1 : (head ++ xs.flatMap pairBytes).drop (start + 4 * i) = word16Bytes x.1 ++ (word16Bytes x.2 ++ rest) := by
    rw [hx]; exact List.append_assoc _ _ _
  have hx2 : (head ++ xs.flatMap pairBytes).drop (start + 4 * i + 2) = word16Bytes x.2 ++ rest := by
    rw [← List.drop_drop, hx1]; rfl
  exact Prod.ext (field16_of_drop hx1) (field16_of_drop hx2)

theorem packetsAt_pieces {head : List Byte} {start : Nat} (h : head.length = start) (ps : List Packet) (hw : ps.all Packet.whole = true) :
    packetsAt (head ++ ps.flatten) start ps.length = ps := by
  have hlen (x : Packet) (hx : x ∈ ps) : x.length = 188 := by simpa [Packet.whole] using List.all_eq_true.mp hw x hx
  unfold packetsAt
  refine List.ext_getElem (by simp) (fun i hi _ => ?_)
  have hi' : i < ps.length := by simpa using hi
  have hdrop : ∀ (qs : List Packet) (j : Nat), (∀ x ∈ qs, x.length = 188) → qs.flatten.drop (188 * j) = (qs.drop j).flatten := by
    intro qs j
    induction j generalizing qs with
    | zero => simp
    | succ j ih =>
      intro hq
      cases qs with
      | nil => simp
      | cons q qs =>
        rw [List.flatten_cons, Nat.mul_succ, Nat.add_comm, ← List.drop_drop, List.drop_left' (hq q (by simp)),
          ih qs (fun x hx => hq x (by simp [hx])), List.drop_succ_cons]
  rw [List.getElem_map, List.getElem_range]
  unfold slice
  rw [← List.drop_drop, List.drop_left' h, hdrop ps i hlen, List.drop_eq_getElem_cons hi', List.flatten_cons,
    List.take_left' (hlen _ (List.getElem_mem hi'))]

/-! ## Owners read the parameters that were sent -/

theorem fixed_fits {length : Nat} {body : List Byte} (h : body.length = length) (op : State → Answer) :
    fixed length body op = op := by
  funext s
  exact if_pos h

/-- A body with a count byte and as many pieces as it says. -/
theorem counted_fits {place base each count : Nat} {body : List Byte} (hplace : place < body.length)
    (hcount : (pbyte body place).toNat = count) (hlen : body.length = base + each * count) (op : Nat → State → Answer) :
    counted place base each body op = op count := by
  funext s
  unfold counted
  rw [hcount]
  exact if_pos ⟨hplace, hlen⟩

theorem byte_count {n : Nat} (h : n ≤ 255) : (BitVec.ofNat 8 n).toNat = n := by
  rw [BitVec.toNat_ofNat]
  omega

/-! ### The bodies of several parameters -/

theorem serve_getSetting (id : BitVec 16) : serve 0x05 (word16Bytes id) = reqGetSetting id := by
  have hserve (b : List Byte) : serve 0x05 b = fixed 2 b (reqGetSetting (field16 b 0)) := rfl
  rw [hserve, fixed_fits (by rfl), field16_whole]

theorem serve_setSetting (id : BitVec 16) (value : BitVec 32) :
    serve 0x06 (word16Bytes id ++ word32Bytes value) = reqSetSetting id value := by
  have hserve (b : List Byte) : serve 0x06 b = fixed 6 b (reqSetSetting (field16 b 0) (field32 b 2)) := rfl
  have hv : field32 (word16Bytes id ++ word32Bytes value) 2 = value := by
    simpa using field32_middle (head := word16Bytes id) rfl value (rest := [])
  rw [hserve, fixed_fits (by rfl), field16_first, hv]

theorem serve_setOffset (o : BitVec 32) : serve 0x25 (word32Bytes o) = reqSetOffset o := by
  have hserve (b : List Byte) : serve 0x25 b = fixed 4 b (reqSetOffset (field32 b 0)) := rfl
  rw [hserve, fixed_fits (by rfl), field32_whole]

theorem serve_defineService_counted (b : List Byte) : serve 0x28 b =
    counted 3 4 2 b (fun count => reqDefineService (field16 b 0) (pbyte b 2) (words16 b 4 count)) := rfl

theorem serve_clipData_counted (b : List Byte) :
    serve 0x31 b = counted 1 2 188 b (fun count => reqClipData (pbyte b 0) (packetsAt b 2 count)) := rfl

theorem serve_planSet_counted (b : List Byte) : serve 0x38 b = counted 8 9 4 b (fun count =>
    reqPlanSet (pbyte b 0) (field16 b 1) (field16 b 3) (pbyte b 5) (pbyte b 6) (pbyte b 7) (pairsAt b 9 count)) := rfl

theorem serve_defineService (number : BitVec 16) (eligible : Byte) {streams : List (BitVec 16)} (h : streams.length ≤ 255) :
    serve 0x28 (defineServiceBody number eligible streams) = reqDefineService number eligible streams := by
  have hlen : (defineServiceBody number eligible streams).length = 4 + 2 * streams.length := by
    simp [defineServiceBody, Laws.BodyFits.flatMap_length_const word16Bytes 2 word16Bytes_length]
    omega
  rw [serve_defineService_counted, counted_fits (count := streams.length) (by omega) (by exact byte_count h) hlen]
  have hn : field16 (defineServiceBody number eligible streams) 0 = number := by
    unfold defineServiceBody
    rw [List.append_assoc]
    exact field16_first _ _
  have hw : words16 (defineServiceBody number eligible streams) 4 streams.length = streams := words16_pieces rfl streams
  rw [hn, hw]
  rfl

theorem serve_deleteService (number : BitVec 16) : serve 0x29 (word16Bytes number) = reqDeleteService number := by
  have hserve (b : List Byte) : serve 0x29 b = fixed 2 b (reqDeleteService (field16 b 0)) := rfl
  rw [hserve, fixed_fits (by rfl), field16_whole]

theorem serve_clipOpen (n : Byte) (f k : BitVec 16) (crc : BitVec 32) :
    serve 0x30 (clipOpenBody n f k crc) = reqClipOpen n f k crc := by
  have hserve (b : List Byte) : serve 0x30 b = fixed 9 b (reqClipOpen (pbyte b 0) (field16 b 1) (field16 b 3) (field32 b 5)) := rfl
  have hf : field16 (clipOpenBody n f k crc) 1 = f := by
    unfold clipOpenBody
    rw [List.append_assoc, List.append_assoc]
    exact field16_middle (head := [n]) rfl f
  have hk : field16 (clipOpenBody n f k crc) 3 = k := by
    unfold clipOpenBody
    rw [List.append_assoc]
    exact field16_middle (head := [n] ++ word16Bytes f) rfl k
  have hc : field32 (clipOpenBody n f k crc) 5 = crc := by
    simpa [clipOpenBody] using field32_middle (head := [n] ++ word16Bytes f ++ word16Bytes k) rfl crc (rest := [])
  rw [hserve, fixed_fits (by rfl), hf, hk, hc]
  rfl

theorem serve_clipData (n : Byte) {packets : List Packet} (h : packets.length ≤ 5) (hw : packets.all Packet.whole = true) :
    serve 0x31 (clipDataBody n packets) = reqClipData n packets := by
  have hlen : (clipDataBody n packets).length = 2 + 188 * packets.length := by
    rw [clipDataBody, List.length_append, Laws.BodyFits.flatten_length_whole packets hw]
    rfl
  rw [serve_clipData_counted, counted_fits (count := packets.length) (by omega) (by exact byte_count (by omega)) hlen]
  have hp : packetsAt (clipDataBody n packets) 2 packets.length = packets := packetsAt_pieces rfl packets hw
  rw [hp]
  rfl

theorem serve_clipSeek (n : Byte) (position : BitVec 32) : serve 0x32 ([n] ++ word32Bytes position) = reqClipSeek n position := by
  have hserve (b : List Byte) : serve 0x32 b = fixed 5 b (reqClipSeek (pbyte b 0) (field32 b 1)) := rfl
  have hp : field32 ([n] ++ word32Bytes position) 1 = position := by
    simpa using field32_middle (head := [n]) rfl position (rest := [])
  rw [hserve, fixed_fits (by rfl), hp]
  rfl

theorem serve_planSet (keyKind : Byte) (avail service : BitVec 16) (clip harvest early : Byte) {map : List StreamPair}
    (h : map.length ≤ 253) :
    serve 0x38 (planSetBody keyKind avail service clip harvest early map) = reqPlanSet keyKind avail service clip harvest early map := by
  have hlen : (planSetBody keyKind avail service clip harvest early map).length = 9 + 4 * map.length := by
    simp [planSetBody, Laws.BodyFits.flatMap_length_const pairBytes 4 pairBytes_length]
    omega
  rw [serve_planSet_counted, counted_fits (count := map.length) (by omega) (by exact byte_count (by omega)) hlen]
  have ha : field16 (planSetBody keyKind avail service clip harvest early map) 1 = avail := by
    simpa [planSetBody] using field16_middle (head := [keyKind]) rfl avail
      (rest := word16Bytes service ++ ([clip, harvest, early, BitVec.ofNat 8 map.length] ++ map.flatMap pairBytes))
  have hs : field16 (planSetBody keyKind avail service clip harvest early map) 3 = service := by
    simpa [planSetBody] using field16_middle (head := [keyKind] ++ word16Bytes avail) rfl service
      (rest := [clip, harvest, early, BitVec.ofNat 8 map.length] ++ map.flatMap pairBytes)
  have hm : pairsAt (planSetBody keyKind avail service clip harvest early map) 9 map.length = map := pairsAt_pieces rfl map
  rw [ha, hs, hm]
  rfl

theorem serve_planDelete (keyKind : Byte) (avail service : BitVec 16) :
    serve 0x39 (planDeleteBody keyKind avail service) = reqPlanDelete keyKind avail service := by
  have hserve (b : List Byte) : serve 0x39 b = fixed 5 b (reqPlanDelete (pbyte b 0) (field16 b 1) (field16 b 3)) := rfl
  have ha : field16 (planDeleteBody keyKind avail service) 1 = avail := by
    simpa [planDeleteBody] using field16_middle (head := [keyKind]) rfl avail (rest := word16Bytes service)
  have hs : field16 (planDeleteBody keyKind avail service) 3 = service := by
    simpa [planDeleteBody] using field16_middle (head := [keyKind] ++ word16Bytes avail) rfl service (rest := [])
  rw [hserve, fixed_fits (by rfl), ha, hs]
  rfl

/-- The nine bytes of a cue entry read back. -/
theorem readCue_cueBytes (d : CueData) : readCue (cueBytes d) 0 = d := by
  have ha : field16 (cueBytes d) 1 = d.avail :=
    field16_of_drop (rest := be 2 d.service.toNat ++ be 2 d.seq.toNat ++ be 2 d.duration.toNat) rfl
  have hs : field16 (cueBytes d) 3 = d.service := field16_of_drop (rest := be 2 d.seq.toNat ++ be 2 d.duration.toNat) rfl
  have hq : field16 (cueBytes d) 5 = d.seq := field16_of_drop (rest := be 2 d.duration.toNat) rfl
  have hd : field16 (cueBytes d) 7 = d.duration := field16_of_drop (rest := []) rfl
  simp only [readCue, Nat.zero_add, ha, hs, hq, hd]
  rfl

theorem serve_cue (d : CueData) : serve 0x40 (cueBytes d) = reqCue d := by
  have hserve (b : List Byte) : serve 0x40 b = fixed 9 b (reqCue (readCue b 0)) := rfl
  rw [hserve, fixed_fits (by rfl), readCue_cueBytes]

theorem serve_setPower (p : BitVec 16) : serve 0x4A (word16Bytes p) = reqSetPower p := by
  have hserve (b : List Byte) : serve 0x4A b = fixed 2 b (reqSetPower (field16 b 0)) := rfl
  rw [hserve, fixed_fits (by rfl), field16_whole]

theorem serve_alarmClear (epoch : BitVec 32) (set : BitVec 40) :
    serve 0x51 (alarmClearBody epoch set) = reqAlarmClear epoch set := by
  have hserve (b : List Byte) : serve 0x51 b = fixed 9 b (reqAlarmClear (field32 b 0) (BitVec.ofNat 40 (field b 4 5))) := rfl
  have he : field32 (alarmClearBody epoch set) 0 = epoch := field32_middle (head := []) rfl epoch
  have hs : field (alarmClearBody epoch set) 4 5 = set.toNat :=
    fromBE_word (n := 5) (by have := set.isLt; omega)
  rw [hserve, fixed_fits (by rfl), he, hs, BitVec.ofNat_toNat, BitVec.setWidth_eq]

/-- A well-formed request command is its request, served by the kind and the body that it stands for. -/
theorem exec_eq_served {i : Instr} {r : Request} (hw : i.WellFormed = true) (h : requestOf i = some r) (s : State) :
    exec i s = request r.kind r.tag r.body (serve r.kind r.body) s := by
  have read {op : State → Answer} {kind tag : Byte} {body : List Byte} (hserve : serve kind body = op) :
      request kind tag body op s = request kind tag body (serve kind body) s := by rw [hserve]
  cases i <;> cases h
  case getSetting => exact read (serve_getSetting _)
  case setSetting => exact read (serve_setSetting _ _)
  case setOffset => exact read (serve_setOffset _)
  case defineService => exact read (serve_defineService _ _ (by simpa [Instr.WellFormed] using hw))
  case deleteService => exact read (serve_deleteService _)
  case clipOpen => exact read (serve_clipOpen _ _ _ _)
  case clipData =>
    obtain ⟨hlen, hwhole⟩ := Bool.and_eq_true _ _ ▸ hw
    exact read (serve_clipData _ (by simpa using hlen) hwhole)
  case clipSeek => exact read (serve_clipSeek _ _)
  case planSet => exact read (serve_planSet _ _ _ _ _ _ (by simpa [Instr.WellFormed] using hw))
  case planDelete => exact read (serve_planDelete _ _ _)
  case cue => exact read (serve_cue _)
  case setPower => exact read (serve_setPower _)
  case alarmClear => exact read (serve_alarmClear _ _)
  all_goals rfl

/-! ## The receiver -/

/-- The part with its receiver in this phase, and the gap interval restarted. -/
def listening (r : Receiver) (s : State) : State := s.setLink { s.link with rx := r, rxLast := s.clock.cycles }

/-- A receiver in HUNT that has just heard a byte differs in the gap interval alone. -/
theorem listening_hunt {s : State} (h : s.link.rx = .hunt) : listening .hunt s = s.setLink { s.link with rxLast := s.clock.cycles } := by
  unfold listening
  rw [← h]

theorem receiveByte_listening (r : Receiver) (s : State) (b : Byte) :
    receiveByte (listening r s) b = receiveInPhase b (listening r s) := rfl

theorem receiveByte_hunt {s : State} (h : s.link.rx = .hunt) (b : Byte) :
    receiveByte s b = if b = 0xA5 then listening (.length []) s else listening .hunt s := by
  rw [listening_hunt h]
  unfold receiveByte receiveInPhase
  rw [show (s.setLink { s.link with rxLast := s.clock.cycles }).link.rx = .hunt from h]
  rfl

/-- The start byte and the two bytes of the length. -/
theorem receive_length {s : State} (h : s.link.rx = .hunt) (high low : Byte) :
    [0xA5, high, low].foldl receiveByte s = judgeLength (fromBE [high, low]) (listening (.length [high]) s) := by
  rw [List.foldl_cons, receiveByte_hunt h, if_pos rfl]
  rfl

/-- A length out of range is a frame error. -/
theorem judgeLength_bad {n : Nat} (h : n < 2 ∨ 1026 < n) (s : State) : judgeLength n s = frameError s := if_pos h

theorem judgeLength_good {n : Nat} (h : 2 ≤ n) (h' : n ≤ 1026) (s : State) : judgeLength n s = setRx (.content n []) s :=
  if_neg (by omega)

/-- The bytes of the content, up to its last one. -/
theorem receive_content {length : Nat} {bs got : List Byte} (hne : bs ≠ []) (hlen : got.length + bs.length = length) (s : State) :
    bs.foldl receiveByte (listening (.content length got) s) = listening (.check length (got ++ bs) []) s := by
  induction bs generalizing got with
  | nil => exact absurd rfl hne
  | cons b bs ih =>
    have hbyte : receiveByte (listening (.content length got) s) b =
        if got.length + 1 < length then listening (.content length (got ++ [b])) s
        else listening (.check length (got ++ [b]) []) s := rfl
    simp only [List.length_cons] at hlen
    rw [List.foldl_cons, hbyte]
    rcases bs with _ | ⟨c, cs⟩
    · simp only [List.length_nil] at hlen
      rw [if_neg (by omega)]
      rfl
    · simp only [List.length_cons] at hlen
      rw [if_pos (by omega), ih (List.cons_ne_nil _ _) (by simp; omega), List.append_assoc]
      rfl

/-- The two bytes of a word. -/
theorem be_two (x : Int) : be 2 x = [(be 2 x).getD 0 0, (be 2 x).getD 1 0] := rfl

/-- The bytes of a frame, up to the judging of its CRC. -/
theorem receive_frame {s : State} (h : s.link.rx = .hunt) (kind tag : Byte) {body : List Byte} (hb : body.length ≤ 1024) (c d : Byte) :
    framesEffect ([0xA5] ++ be 2 (body.length + 2) ++ [kind, tag] ++ body ++ [c, d]) s =
      judgeCrc (body.length + 2) (kind :: tag :: body) [c, d] (listening (.check (body.length + 2) (kind :: tag :: body) [c]) s) := by
  have hlength : fromBE (be 2 (body.length + 2)) = body.length + 2 := fromBE_word (n := 2) (x := body.length + 2) (by omega)
  have hcontent := receive_content (got := []) (List.cons_ne_nil kind (tag :: body)) (by simp) s (length := body.length + 2)
  have hgroup (x y : Byte) : [0xA5] ++ [x, y] ++ [kind, tag] ++ body ++ [c, d] = [0xA5, x, y] ++ ((kind :: tag :: body) ++ [c, d]) := by
    simp
  rw [be_two] at hlength ⊢
  unfold framesEffect
  rw [hgroup, List.foldl_append, receive_length h, hlength, judgeLength_good (by omega) (by omega), List.foldl_append]
  change List.foldl _ (List.foldl _ (listening (.content (body.length + 2) []) s) _) _ = _
  rw [hcontent]
  rfl

/-- A CRC that fails is a frame error. -/
theorem judgeCrc_bad {length : Nat} {content crc : List Byte} (h : fromBE crc ≠ (crc16 (be 2 length ++ content)).toNat) (s : State) :
    judgeCrc length content crc s = frameError s := if_neg (Ne.symm h)

theorem judgeCrc_good {length : Nat} {content crc : List Byte} (h : fromBE crc = (crc16 (be 2 length ++ content)).toNat) (s : State) :
    judgeCrc length content crc s = completeRequest content s := if_pos h.symm

/-- A whole frame, received in HUNT, is a complete request. -/
theorem receive_linkFrame {s : State} (h : s.link.rx = .hunt) (kind tag : Byte) {body : List Byte} (hb : body.length ≤ 1024) :
    framesEffect (linkFrame kind tag body) s = submit kind tag body (serve kind body) (listening .hunt s) := by
  have hword (x : BitVec 16) : fromBE (be 2 x.toNat) = x.toNat := fromBE_word x.isLt
  have hframe : linkFrame kind tag body = [0xA5] ++ be 2 (body.length + 2) ++ [kind, tag] ++ body ++
      be 2 (crc16 (be 2 (body.length + 2) ++ [kind, tag] ++ body)).toNat := by simp [linkFrame]
  rw [hframe, be_two (crc16 _).toNat, receive_frame h kind tag hb, ← be_two]
  rw [judgeCrc_good (by rw [hword]; simp)]
  rfl

theorem exec_requestFrame (bytes : List Byte) (s : State) : exec (.requestFrame bytes) s = event (framesEffect bytes) s := rfl

/-- A whole frame is the request that it carries. -/
theorem exec_linkFrame {s : State} (hp : Powered s) (h : s.link.rx = .hunt) (kind tag : Byte) {body : List Byte}
    (hb : body.length ≤ 1024) :
    exec (.requestFrame (linkFrame kind tag body)) s =
      request kind tag body (serve kind body) { s with link := { s.link with rxLast := s.clock.cycles } } := by
  have hframe := receive_linkFrame (s := s.setEv {}) h kind tag hb
  rw [listening_hunt (s := s.setEv {}) h] at hframe
  unfold request
  rw [exec_requestFrame, event_next _ hp, hframe]
  exact (event_next (s := s.setLink { s.link with rxLast := s.clock.cycles }) _ hp).symm

/-- The body of a well-formed request fits a frame. -/
theorem requestBody_fits {i : Instr} {r : Request} (hw : i.WellFormed = true) (h : requestOf i = some r) : r.body.length ≤ 1024 := by
  cases i <;> cases h
  case unknownKind kind tag body => exact Laws.BodyFits.unknownKind kind tag body hw _ rfl
  case defineService tag number eligible streams => exact Laws.BodyFits.defineService tag number eligible streams hw _ rfl
  case clipData tag n packets => exact Laws.BodyFits.clipData tag n packets hw _ rfl
  case planSet tag keyKind avail service clip harvest early map =>
    exact Laws.BodyFits.planSet tag keyKind avail service clip harvest early map hw _ rfl
  all_goals exact Nat.le_of_ble_eq_true rfl

/-- Settles O14: the frame is the request, and the owner reads the parameters that were sent. -/
theorem framedRequestIsItsCommand : Obligations.FramedRequestIsItsCommand := by
  intro s i r hp hrx hw hr
  rw [exec_linkFrame hp hrx _ _ (requestBody_fits hw hr), exec_eq_served hw hr]

/-! ## Frame errors -/

theorem exec_gapExpiry (s : State) : exec .gapExpiry s = event gapEffect s := rfl

/-- Settles O15: each error ends in `frameError`, in HUNT and with the flag; a byte that is not the start byte restarts the gap alone. -/
theorem frameErrorsSetTheFlag : Obligations.FrameErrorsSetTheFlag := by
  intro s hp
  have herror (r : Receiver) (h : s.link.rx = .hunt) : frameError (listening r (s.setEv {})) =
      (s.setLink { s.link with rxLast := s.clock.cycles, protocolError := true }).setEv {} := by
    simp [frameError, listening, State.setLink, State.setEv, h]
  refine ⟨fun high low hrx hbad => ?_, fun kind tag body c d hrx hb hbad => ?_, fun hrx hgap => ?_, fun b hrx hne => ?_⟩
  · have hf : framesEffect [0xA5, high, low] (s.setEv {}) = _ := receive_length (s := s.setEv {}) hrx high low
    rw [judgeLength_bad hbad, herror _ hrx] at hf
    exact afterEvent_intro hp hf rfl (.inr rfl)
  · have hf : framesEffect ([0xA5] ++ be 2 (body.length + 2) ++ [kind, tag] ++ body ++ [c, d]) (s.setEv {}) = _ :=
      receive_frame (s := s.setEv {}) hrx kind tag hb c d
    rw [judgeCrc_bad (by simpa using hbad), herror _ hrx] at hf
    exact afterEvent_intro hp hf rfl (.inr rfl)
  · have hf : gapEffect (s.setEv {}) = (s.setLink { s.link with rx := .hunt, protocolError := true }).setEv {} := if_pos ⟨hrx, hgap⟩
    exact afterEvent_intro hp hf rfl (.inr rfl)
  · have hf : framesEffect [b] (s.setEv {}) = (s.setLink { s.link with rxLast := s.clock.cycles }).setEv {} := by
      unfold framesEffect
      rw [List.foldl_cons, receiveByte_hunt (s := s.setEv {}) hrx, if_neg hne, listening_hunt (s := s.setEv {}) hrx]
      rfl
    exact afterEvent_intro hp hf rfl (.inr rfl)

/-! ## Requests that no owner takes -/

theorem serveLow_unlisted {n : Nat} (h : n ∉ requestKinds) (b : List Byte) (s : State) : serveLow n b s = turnDown s .unknown := by
  unfold serveLow
  split
  case h_17 => rfl
  all_goals exact absurd (by decide) h

theorem serveMiddle_unlisted {n : Nat} (h : n ∉ requestKinds) (b : List Byte) (s : State) :
    serveMiddle n b s = turnDown s .unknown := by
  unfold serveMiddle
  split
  case h_17 => rfl
  all_goals exact absurd (by decide) h

theorem serveHigh_unlisted {n : Nat} (h : n ∉ requestKinds) (b : List Byte) (s : State) : serveHigh n b s = turnDown s .unknown := by
  unfold serveHigh
  split
  case h_16 => rfl
  all_goals exact absurd (by decide) h

/-- A kind that 10.4 does not list has no owner. -/
theorem serve_unlisted {kind : Byte} (h : kind.toNat ∉ requestKinds) (b : List Byte) (s : State) :
    serve kind b s = turnDown s .unknown := by
  unfold serve
  split
  · exact serveLow_unlisted h b s
  · split
    · exact serveMiddle_unlisted h b s
    · exact serveHigh_unlisted h b s

/-- The kinds with a fixed layout and the lengths of their bodies (10.4). -/
def fixedLayouts : List (Nat × Nat) :=
  [(0x01, 0), (0x02, 0), (0x03, 0), (0x04, 0), (0x05, 2), (0x06, 6), (0x07, 0), (0x08, 0), (0x10, 0), (0x11, 0), (0x12, 1), (0x13, 1),
   (0x18, 2), (0x19, 1), (0x1A, 1), (0x1B, 0), (0x20, 0), (0x21, 0), (0x22, 0), (0x23, 0), (0x24, 0), (0x25, 4), (0x26, 1), (0x29, 2),
   (0x2A, 0), (0x30, 9), (0x32, 5), (0x33, 1), (0x34, 1), (0x35, 1), (0x39, 5), (0x3A, 1), (0x40, 9), (0x41, 1), (0x42, 1), (0x43, 1),
   (0x48, 0), (0x49, 0), (0x4A, 2), (0x4B, 0), (0x4C, 1), (0x4D, 1), (0x50, 0), (0x51, 9)]

theorem serve_fixed {kind : Byte} {length : Nat} (h : (kind.toNat, length) ∈ fixedLayouts) (b : List Byte) :
    ∃ op, serve kind b = fixed length b op := by
  obtain ⟨n, hn⟩ : ∃ n, kind = BitVec.ofNat 8 n ∧ (n, length) ∈ fixedLayouts := ⟨kind.toNat, by simp, h⟩
  obtain ⟨rfl, hn⟩ := hn
  unfold fixedLayouts at hn
  fin_cases hn <;> exact ⟨_, rfl⟩

/-- A body that does not fit its layout, sent as a frame to a ready part. -/
theorem misfit_turnedDown {s : State} (hs : Ready s) {kind : Byte} (tag : Byte) {body : List Byte}
    (hserve : ∀ t, serve kind body t = turnDown t .badParameter) (hb : body.length ≤ 1024) (hrx : s.link.rx = .hunt) :
    ∃ t, exec (.requestFrame (linkFrame kind tag body)) s = .next t ∧ Replied t kind tag .badParameter [] ∧
      AfterRequest [] { s with link := { s.link with rxLast := s.clock.cycles } } t := by
  rw [exec_linkFrame hs.1 hrx kind tag hb]
  exact request_turnedDown kind tag body (s := { s with link := { s.link with rxLast := s.clock.cycles } }) hs (hserve _)

theorem counted_misfit {place base each : Nat} {body : List Byte}
    (h : body.length ≤ place ∨ body.length ≠ base + each * (body.getD place 0).toNat) (op : Nat → State → Answer) (s : State) :
    counted place base each body op s = turnDown s .badParameter := by
  unfold counted
  refine if_neg (fun ⟨hplace, hlen⟩ => ?_)
  rcases h with h | h
  · omega
  · exact h hlen

theorem exec_unknownKind (kind tag : Byte) (body : List Byte) (s : State) :
    exec (.unknownKind kind tag body) s = request kind tag body (serve kind body) s := rfl

/-- Settles O17: the kind finds no owner, or its layout does not fit the body. -/
theorem unknownAndMisfitRequests : Obligations.UnknownAndMisfitRequests := by
  intro s kind tag body hs
  refine ⟨fun h => ?_, fun length h hlen hb hrx => ?_, fun h hbad hb hrx => ?_, fun h hbad hb hrx => ?_, fun h hbad hb hrx => ?_⟩
  · rw [exec_unknownKind]
    exact request_turnedDown kind tag body hs (serve_unlisted h body _)
  · obtain ⟨op, hop⟩ := serve_fixed h body
    exact misfit_turnedDown hs tag (fun t => by rw [hop]; exact if_neg hlen) hb hrx
  · subst h
    exact misfit_turnedDown hs tag (fun t => by rw [serve_defineService_counted]; exact counted_misfit hbad _ t) hb hrx
  · subst h
    exact misfit_turnedDown hs tag (fun t => by rw [serve_clipData_counted]; exact counted_misfit hbad _ t) hb hrx
  · subst h
    exact misfit_turnedDown hs tag (fun t => by rw [serve_planSet_counted]; exact counted_misfit hbad _ t) hb hrx

end Sys2Proof.Machine
end

section
/-! PROOF of O3, the starts: the start values, what the end of a start makes of them from stored contents, and with nothing stored. -/

namespace Sys2Proof.Machine
open Sys2Proof

/-- The start values of every block, the ceiling with them. -/
def startValues (cause : StartCause) (s : State) : State :=
  let t := startBlocks cause s
  t.setDrive { t.drive with ceiling := ceilingOf t }

theorem startState_eq (cause : StartCause) (s : State) : startState cause s = autoStart (startLost (startValues cause s)) := rfl

/-- A drive that no sample has judged is not permitted, and STANDBY holds it still. -/
theorem judgePermission_standby {s : State} (hm : s.drive.mode = .standby) (hs : s.drive.supply = .unjudged) : judgePermission s = s := by
  have hp : permitted s = false := by simp [permitted, driveConditions, hs]
  unfold judgePermission
  rw [hm]
  simp [hp]

/-- The ceiling of the factory settings is the full scale. -/
theorem ceilingOf_factory {s : State} (hl : s.live = {}) (hd : s.drive = {}) : ceilingOf s = 4095 := by
  have hh (n : Four) : moduleHealthy s n = true := by simp [moduleHealthy, moduleInstalled, hl, hd]; cases n <;> decide
  have hi (n : Four) : moduleInstalled s n = true := by simp [moduleInstalled, hl]; cases n <;> decide
  unfold ceilingOf healthyCount installedCount
  rw [List.filter_eq_self.mpr (fun n _ => hh n), List.filter_eq_self.mpr (fun n _ => hi n), hd]
  rfl

/-- With nothing stored the start values are those of the reset, with SETTINGS LOST to come. -/
theorem startValues_blank {s : State} (cause : StartCause) (h : s.link.stored = none) :
    startValues cause s = { State.reset with
      alarms := {}, link := { State.reset.link with cause := cause }, starts := s.starts + 1, pending := s.pending } := by
  have hb : startBlocks cause s = { State.reset with
      alarms := {}, link := { State.reset.link with cause := cause }, starts := s.starts + 1, pending := s.pending } := by
    unfold startBlocks startLink loaded
    rw [h]
    rfl
  unfold startValues
  rw [hb]
  dsimp only
  rw [ceilingOf_factory rfl rfl]
  rfl

/-- SETTINGS LOST is the one item of the reset state. -/
theorem latchItem_settingsLost {s : State} (ha : s.alarms = {}) (hl : s.live = {}) :
    latchItem s 36 = s.setAlarms { epoch := 1, records := State.reset.alarms.records } := by
  have hr : (alarmRec s 36).latched = false := by rw [alarmRec, ha]; rfl
  have hoff (a : AlarmState) (body : List Byte) : offerNotice 0 body (s.setAlarms a) = s.setAlarms a :=
    offerNotice_off (by rw [noticeEnabled, State.setAlarms_live, hl]; rfl) body
  unfold latchItem setLatch
  dsimp only
  rw [hr, ha, hoff]
  simp only [Bool.false_eq_true, if_false, ite_self]
  rfl

/-- A command that has reported nothing but alarm items queues no other notice. -/
theorem noticesOf_items {s : State} {is : List Nat} (h : s.ev = { items := is }) : noticesOf s = [] := by
  have h1 : clockNotices s = [] := by simp [clockNotices, h, InputId.all, PerInput.get]
  have h2 : ∀ p, feedNotice s p = [] := by intro p; cases p <;> simp [feedNotice, h, PerPort.get]
  simp [noticesOf, h1, h2, emissionNotice, spliceNotices, driveNotice, settingsNotice, h]

theorem closeEvent_settingsLost {s : State} (hc : s.clock = {}) (hd : s.drive = {}) (ha : s.alarms = {}) (hl : s.live = {})
    (he : s.ev = { items := [36] }) : closeEvent s = (s.setAlarms State.reset.alarms).setEv {} := by
  have ho : occurrences s = [36] := by
    unfold occurrences items
    rw [he]
    rfl
  have hal : alertOf (s.setAlarms { epoch := 1, records := State.reset.alarms.records }) = true := by
    unfold alertOf reportEnabled alarmRec
    simp only [State.setAlarms_live, hl]
    rfl
  have hpins : (s.live.alarm.lines.map fun l =>
      pinOf l (indication (s.setAlarms { epoch := 1, records := State.reset.alarms.records }) true l)) =
      ⟨.high, .low, .low, .low⟩ := by
    rw [hl]
    simp only [PerFour.map, indication, State.setAlarms_drive, State.setAlarms_clock, hd, hc, alarmRec]
    rfl
  have hn (a : AlarmState) : noticesOf (s.setAlarms a) = [] := noticesOf_items (is := [36]) he
  unfold closeEvent
  rw [judgePermission_standby (by rw [hd]) (by rw [hd]), latchAll, ho, List.foldl_cons, List.foldl_nil, latchItem_settingsLost ha hl,
    queueNotices, hn, List.foldl_nil]
  unfold judgeLines
  rw [hal]
  dsimp only
  rw [State.setAlarms_live, hpins]
  rfl

/-- A start with nothing stored is the reset, but for its cause (R182). -/
theorem start_blank {s : State} (cause : StartCause) (h : s.link.stored = none) :
    transmit (closeEvent (startState cause s)) = { State.reset with
      link := { State.reset.link with cause := cause }, starts := s.starts + 1, pending := s.pending } := by
  have hlost : startState cause s = occur 36 (startValues cause s) := by
    rw [startState_eq, startValues_blank cause h]
    rfl
  rw [hlost, startValues_blank cause h, closeEvent_settingsLost rfl rfl rfl rfl rfl]
  rfl

/-! ## A start from stored contents -/

/-- The part with the start values of stored contents, and emission in the state that AUTO START asks for. -/
def startedFrom (cause : StartCause) (c : Contents) (s : State) : State :=
  let t := startValues cause s
  t.setEm { t.em with mode := if c.params.em.autoStart then .anchoring else .off }

theorem startBlocks_stored {s : State} {c : Contents} (cause : StartCause) (h : s.link.stored = some c) :
    startBlocks cause s =
      { powered := true, starts := s.starts + 1, clock := startClock c, feed := startFeed c, em := startEm c, splice := startSplice c,
        drive := startDrive c, link := startLink cause (some c), live := c.params, pending := s.pending } := by
  unfold startBlocks
  rw [h]
  rfl

/-- What AUTO START reports. -/
def startReport (c : Contents) : Report := if c.params.em.autoStart then { emission := [2] } else {}

/-- The Emission Scheduler, the store and Splicing as a start leaves them. -/
structure Fresh (s : State) : Prop where
  em : ∃ host offset, s.em = { mute := { host := host }, offset := offset }
  store : s.store = {}
  channels : s.splice.channels = ⟨none, none, none, none⟩
  lastStarted : s.splice.lastStarted = none
  offsets : s.splice.offsets.map (fun r => { r with last := none, offset := 0, resync := false }) = s.splice.offsets
  ev : s.ev = {}

theorem Fresh.dropAnchor {s : State} (h : Fresh s) : dropAnchor s = s := by
  obtain ⟨host, offset, hem⟩ := h.em
  have hleave : leaveRunning s = s := by
    unfold leaveRunning
    rw [hem]
  have hempty : emptyStore s = s := by
    unfold emptyStore setBase
    rw [h.store]
    exact congrArg s.setStore h.store.symm
  have hanchor : s.setEm { s.em with anchor := none, gapRun := 0, resumeRun := 0 } = s := by
    rw [hem]
    exact congrArg s.setEm hem.symm
  unfold Machine.dropAnchor
  rw [hleave, hempty]
  dsimp only
  rw [hanchor]
  unfold setMute
  rw [if_pos (by rw [hem])]

theorem Fresh.spliceAnchoring {s : State} (h : Fresh s) (e : EmissionState) (v : Report) :
    spliceAnchoring ((s.setEm e).setEv v) = (s.setEm e).setEv v := by
  have hch (n : Four) : reAnchorChannel ((s.setEm e).setEv v) n = (s.setEm e).setEv v := by
    unfold reAnchorChannel
    rw [show ((s.setEm e).setEv v).splice.channels.get n = none by
      simp only [State.setEv_splice, State.setEm_splice, h.channels]
      cases n <;> rfl]
  unfold Machine.spliceAnchoring
  simp only [Four.all, List.foldl_cons, List.foldl_nil, hch]
  unfold clearOffsets
  simp only [State.setEv_splice, State.setEm_splice, h.offsets, ← h.lastStarted]
  rfl

theorem enterAnchoring_fresh {s : State} (h : Fresh s) :
    enterAnchoring 2 s = (s.setEm { s.em with mode := .anchoring }).setEv { emission := [2] } := by
  obtain ⟨host, offset, hem⟩ := h.em
  have hnote : noteEmission 2 s = s.setEv { emission := [2] } := by
    unfold noteEmission
    rw [h.ev]
    rfl
  unfold enterAnchoring
  rw [h.dropAnchor, hnote]
  dsimp only
  rw [show (s.em.mode == .off) = true by rw [hem]; rfl, if_pos rfl]
  have := h.spliceAnchoring { s.em with mode := .anchoring } { emission := [2] }
  rw [← this]
  congr 1
  simp only [State.setEv_em, hem]
  rfl

theorem startValues_fresh {s : State} {c : Contents} (cause : StartCause) (h : s.link.stored = some c) : Fresh (startValues cause s) := by
  refine ⟨⟨c.hostMute, c.siteOffset, ?_⟩, rfl, rfl, rfl, ?_, rfl⟩
  · simp [startValues, startBlocks, startEm, loaded, h]
  · simp [startValues, startBlocks, startSplice]

theorem startState_stored {s : State} {c : Contents} (cause : StartCause) (h : s.link.stored = some c) :
    startState cause s = (startedFrom cause c s).setEv (startReport c) := by
  have hlost : startLost (startValues cause s) = startValues cause s := by
    unfold startLost
    refine if_neg ?_
    simp [startValues, startBlocks, startLink, loaded, h]
  have hlive : (startValues cause s).live = c.params := by simp [startValues, startBlocks, loaded, h]
  rw [startState_eq, hlost]
  unfold autoStart startedFrom startReport
  rw [hlive]
  split
  · rw [enterAnchoring_fresh (startValues_fresh cause h)]
  · rfl

/-- Of what a start queues, AUTO START's EMISSION notice alone, the transmitter takes it at once. -/
theorem noticesOf_start {s : State} (c : Contents) : ∃ ns, noticesOf (s.setEv (startReport c)) = ns ∧ ns.length ≤ 1 := by
  refine ⟨_, rfl, ?_⟩
  unfold startReport
  split
  · have h1 : clockNotices (s.setEv { emission := [2] }) = [] := by simp [clockNotices, InputId.all, PerInput.get]
    have h2 : ∀ p, feedNotice (s.setEv { emission := [2] }) p = [] := by
      intro p; cases p <;> simp [feedNotice, PerPort.get]
    simp [noticesOf, h1, h2, spliceNotices, driveNotice, settingsNotice, emissionNotice]
  · rw [noticesOf_items (is := []) rfl]
    exact Nat.zero_le _

/-- At most one notice joins an empty queue. -/
theorem queueNotices_start {s : State} (hn : (noticesOf s).length ≤ 1) (hq : s.alarms = {}) :
    ∃ ns, ns.length ≤ 1 ∧ queueNotices s = s.setAlarms { notices := ns } := by
  have hs : s = s.setAlarms {} := congrArg s.setAlarms hq
  unfold queueNotices
  match hns : noticesOf s, hn with
  | [], _ => exact ⟨[], Nat.zero_le _, hs⟩
  | [n], _ =>
    rw [List.foldl_cons, List.foldl_nil]
    unfold offerNotice
    split
    · rw [if_pos (by rw [hq]; decide), hq]
      exact ⟨_, le_refl 1, rfl⟩
    · exact ⟨[], Nat.zero_le _, hs⟩

/-- With no latch set the alert line is clear. -/
theorem alertOf_clear {s : State} (h : s.alarms.records = List.replicate 36 {}) : alertOf s = false := by
  unfold alertOf
  rw [List.any_eq_false]
  intro i _
  have hr : alarmRec s i = {} := by
    unfold alarmRec
    rw [h, List.getD_eq_getElem?_getD, List.getElem?_replicate]
    split <;> rfl
  rw [hr]
  exact Bool.false_ne_true

/-- A free transmitter leaves no notice of a queue of one. -/
theorem transmit_last {s : State} (hn : s.alarms.notices.length ≤ 1) (ht : s.link.tx = none) (hr : s.link.reply = none)
    (hs : s.link.restart = .none) (hd : s.link.rateDue = none) : (transmit s).alarms = { s.alarms with notices := [] } := by
  unfold transmit
  rw [if_neg (by simp [ht, hs, hd]), hr]
  match h : s.alarms.notices, hn with
  | [], _ => exact congrArg (fun ns => { s.alarms with notices := ns }) h
  | [n], _ => rfl

/-- What the end of a start leaves of the Alarm Unit: the one notice it may queue is sent at once. -/
theorem transmit_closeEvent_start {s : State} (hj : judgePermission s = s) (hi : s.ev.items = []) (hn : (noticesOf s).length ≤ 1)
    (hq : s.alarms = {}) (ht : s.link.tx = none) (hr : s.link.reply = none) (hs : s.link.restart = .none) (hd : s.link.rateDue = none) :
    (transmit (closeEvent s)).alarms = { pins := s.live.alarm.lines.map (fun l => pinOf l (indication s false l)) } := by
  have hl : latchAll s = s := by
    have ho : occurrences s = [] := by simp [occurrences, hi]
    rw [latchAll, ho, List.foldl_nil]
  obtain ⟨ns, hlen, hns⟩ := queueNotices_start hn hq
  have hc : closeEvent s = (judgeLines (s.setAlarms { notices := ns })).setEv {} := by rw [closeEvent, hj, hl, hns]
  have hal : alertOf (s.setAlarms { notices := ns }) = false := alertOf_clear rfl
  have hind (l : LineParams) : indication (s.setAlarms { notices := ns }) false l = indication s false l := by
    unfold indication alarmRec
    rw [hq]
    rfl
  rw [transmit_last (by rw [hc]; exact hlen) (by rw [closeEvent_link]; exact ht) (by rw [closeEvent_link]; exact hr)
    (by rw [closeEvent_link]; exact hs) (by rw [closeEvent_link]; exact hd), hc]
  unfold judgeLines
  simp only [hal, hind]
  rfl

/-- At a start no alarm source is live but the direct one: every other indication is clear. -/
theorem indication_start (cause : StartCause) (c : Contents) (s : State) (e : Report) (l : LineParams) :
    indication ((startedFrom cause c s).setEv e) false l = (l.source == 0 && l.direct) := by
  have hch (n : Four) : channelActive ((startedFrom cause c s).setEv e) n = false := by cases n <;> rfl
  have hrec (i : Nat) : (alarmRec ((startedFrom cause c s).setEv e) i).latched = false := by
    change ((List.replicate 36 ({} : AlarmRec)).getD (i - 1) {}).latched = false
    rw [List.getD_eq_getElem?_getD, List.getElem?_replicate]
    split <;> rfl
  unfold indication
  split
  case h_1 h => rw [h]; rfl
  case h_9 h0 _ _ _ _ _ _ _ => rw [hrec, Bool.and_false, (beq_eq_false_iff_ne).mpr h0, Bool.false_and]
  all_goals rename_i h; simp only [h, hch]; rfl

/-- The end of a command and the transmitter touch the drive, as permission leaves it, the Alarm Unit, the transmitter and the report. -/
theorem transmit_closeEvent_eq (s : State) :
    let t := transmit (closeEvent s)
    t = { s with drive := (judgePermission s).drive, alarms := t.alarms,
                 link := { s.link with tx := t.link.tx, lastSent := t.link.lastSent }, ev := {} } := by
  dsimp only
  rw [transmit_eq, closeEvent_eq]

/-- What a start from stored contents leaves, once its one notice is sent. -/
theorem start_stored {s : State} {c : Contents} (cause : StartCause) (h : s.link.stored = some c) :
    let u := startedFrom cause c s
    let t := transmit (closeEvent (startState cause s))
    t = { u with
      alarms := { pins := c.params.alarm.lines.map (fun l => pinOf l (l.source == 0 && l.direct)) }
      link := { u.link with tx := t.link.tx, lastSent := t.link.lastSent } } := by
  intro u t
  have hs : startState cause s = u.setEv (startReport c) := startState_stored cause h
  have hj : judgePermission (u.setEv (startReport c)) = u.setEv (startReport c) := judgePermission_standby rfl rfl
  have hi : (u.setEv (startReport c)).ev.items = [] := by
    simp only [State.setEv_ev, startReport]
    split <;> rfl
  obtain ⟨ns, hn, hlen⟩ := noticesOf_start (s := u) c
  have hlive : u.live = c.params := by simp [u, startedFrom, startValues, startBlocks, loaded, h]
  have ht : t = transmit (closeEvent (u.setEv (startReport c))) := by rw [← hs]
  have ha : t.alarms = { pins := c.params.alarm.lines.map (fun l => pinOf l (l.source == 0 && l.direct)) } := by
    rw [ht, transmit_closeEvent_start hj hi (by rw [hn]; exact hlen) rfl rfl rfl rfl rfl]
    simp only [u, indication_start, State.setEv_live]
    rw [show (startedFrom cause c s).live = c.params from hlive]
  have heq := transmit_closeEvent_eq (u.setEv (startReport c))
  dsimp only at heq
  rw [← ht, hj, ha] at heq
  exact heq


theorem losePower_stored (s : State) : (losePower s).link.stored = if s.link.busy.isSome then none else s.link.stored := rfl

/-- Settles O3: the start values of every block, judged once at the end of the start; SETTINGS LOST alone latches where nothing was
stored, and AUTO START's notice leaves at once. -/
theorem startLoadsTheStore : Obligations.StartLoadsTheStore := by
  refine ⟨fun s c hstored => ?_, fun s hnone => ?_, fun s hp hdue hnone => ?_⟩
  · intro started
    have hstart (cause : StartCause) (s' t : State) (h : s'.link.stored = some c) (hq : s'.pending = s.pending)
        (ht : t = transmit (closeEvent (startState cause s'))) : started cause t := by
      have heq := start_stored cause h
      dsimp only at heq
      rw [← ht] at heq
      unfold startedFrom startValues at heq
      rw [startBlocks_stored cause h] at heq
      refine ⟨?_, ?_, ?_, ?_, ?_, ?_, ?_, ?_, ?_, fun n => ?_, ?_, ?_, ?_, ?_⟩
      case refine_14 => rw [heq]; exact hq
      case refine_10 => rw [heq]; cases n <;> rfl
      all_goals (rw [heq] <;> rfl)
    refine ⟨fun hbusy => ⟨_, exec_powerOn s, hstart .powerOn (losePower s) _ ?_ rfl rfl⟩, fun hp hdue => ?_⟩
    · rw [losePower_stored, hbusy]
      exact hstored
    · refine ⟨_, (exec_restartStart s).trans (event_next restartEffect hp), hstart .restart (s.setEv {}) _ hstored rfl ?_⟩
      rw [restartEffect_due (s := s.setEv {}) hdue]
  · rw [exec_powerOn, start_blank .powerOn]
    · rfl
    · rw [losePower_stored]
      rcases hnone with h | h
      · rw [h, ite_self]
      · rw [if_pos h]
  · rw [exec_restartStart, event_next restartEffect hp, restartEffect_due (s := s.setEv {}) hdue,
      start_blank (s := s.setEv {}) .restart hnone]
    rfl

end Sys2Proof.Machine
end

section
/-! PROOF of the transmitter's turns, of RESTART and the line rate, and of COMMIT SETTINGS (O19, O21, O22): what the end of a command
adds to the notice queue when it reported little, and the end of a transmission. -/

namespace Sys2Proof.Machine
open Sys2Proof

/-! ## What the end of a command queues -/

/-- Permission reports occasions of the DRIVE notice alone. -/
theorem judgePermission_ev (s : State) : ∃ os, (judgePermission s).ev = { s.ev with drive := os } := by
  have hramp (o : Nat) : ∃ os, (enterRamping o s).ev = { s.ev with drive := os } := by
    unfold enterRamping steadyAtCeiling
    dsimp only
    split <;> split <;> exact ⟨_, rfl⟩
  unfold judgePermission
  split
  · split
    · exact hramp _
    · exact ⟨_, rfl⟩
  · split
    · exact ⟨_, rfl⟩
    · exact ⟨_, rfl⟩
  · split
    · exact ⟨_, rfl⟩
    · exact ⟨_, rfl⟩
  · exact ⟨_, rfl⟩

/-- The notices of a command but for the DRIVE notice. -/
def noticesButDrive (s : State) : List (Nat × List Byte) :=
  (clockNotices s).map (1, ·) ++ (feedNotice s .a ++ feedNotice s .b).map (2, ·) ++ (emissionNotice s).map (3, ·) ++
  (spliceNotices s).map (4, ·) ++ (s.ev.clips.map clipNotice).map (5, ·)

theorem noticesOf_eq (s : State) :
    noticesOf s = noticesButDrive s ++ (driveNotice s).map (6, ·) ++ (settingsNotice s).map (7, ·) := rfl

/-- Permission bears on the DRIVE notice alone. -/
theorem noticesOf_judgePermission (s : State) :
    noticesOf (judgePermission s) =
      noticesButDrive s ++ (driveNotice (judgePermission s)).map (6, ·) ++ (settingsNotice s).map (7, ·) := by
  obtain ⟨d, e, h⟩ := judgePermission_only s
  obtain ⟨os, hev⟩ := judgePermission_ev s
  rw [h] at hev ⊢
  rw [show e = _ from hev]
  rfl

/-- Permission queues nothing of a kind other than DRIVE. -/
theorem bodiesOf_judgePermission {kind : Nat} (h : kind ≠ 6) (s : State) :
    bodiesOf kind (noticesOf (judgePermission s)) = bodiesOf kind (noticesOf s) := by
  have hdrive (t : State) : bodiesOf kind ((driveNotice t).map (6, ·)) = [] := by
    unfold bodiesOf
    rw [List.filterMap_map, List.filterMap_eq_nil_iff]
    intro b _
    exact if_neg h.symm
  have happ (xs ys : List (Nat × List Byte)) : bodiesOf kind (xs ++ ys) = bodiesOf kind xs ++ bodiesOf kind ys :=
    List.filterMap_append
  rw [noticesOf_judgePermission, noticesOf_eq, happ, happ, happ, happ, hdrive, hdrive]

/-- Offers of a kind that is off change nothing. -/
theorem offer_off {kind : Nat} {s : State} (h : noticeEnabled s kind = false) (bodies : List (List Byte)) :
    (bodies.map (kind, ·)).foldl (fun s n => offerNotice n.1 n.2 s) s = s := by
  induction bodies with
  | nil => rfl
  | cons b bs ih => rw [List.map_cons, List.foldl_cons, offerNotice_off h, ih]

/-- An offer reads the Alarm Unit and the enables alone. -/
theorem offerNotice_alarms {s t : State} (ha : s.alarms = t.alarms) (hl : s.live = t.live) (kind : Nat) (body : List Byte) :
    (offerNotice kind body s).alarms = (offerNotice kind body t).alarms := by
  unfold offerNotice
  rw [noticeEnabled_congr hl, ha]
  split
  · split <;> rfl
  · exact ha

/-- The end of a command that reported at most a stored commit, with DRIVE notices off: the SETTINGS notice is the one offer. -/
theorem closeEvent_offers {s : State} {c : Option (BitVec 32)} (he : s.ev = { committed := c }) (h6 : noticeEnabled s 6 = false) :
    (closeEvent s).alarms.notices = ((settingsNotice s).foldl (fun s b => offerNotice 7 b s) s).alarms.notices ∧
    (closeEvent s).alarms.lost = ((settingsNotice s).foldl (fun s b => offerNotice 7 b s) s).alarms.lost := by
  have hbut : noticesButDrive s = [] := by
    have h1 : clockNotices s = [] := by simp [clockNotices, he, InputId.all, PerInput.get]
    have h2 : ∀ p, feedNotice s p = [] := by intro p; cases p <;> simp [feedNotice, he, PerPort.get]
    simp [noticesButDrive, h1, h2, emissionNotice, spliceNotices, he]
  have hlatch : latchAll (judgePermission s) = judgePermission s := by
    have ho : occurrences (judgePermission s) = [] := by simp [occurrences, he]
    rw [latchAll, ho, List.foldl_nil]
  have hq : queueNotices (judgePermission s) = (settingsNotice s).foldl (fun s b => offerNotice 7 b s) (judgePermission s) := by
    rw [queueNotices, noticesOf_judgePermission, hbut, List.nil_append, List.foldl_append,
      offer_off ((noticeEnabled_congr (judgePermission_live s) 6).trans h6), List.foldl_map]
  unfold closeEvent judgeLines
  rw [hlatch, hq]
  have hoffer (b : List Byte) : (offerNotice 7 b (judgePermission s)).alarms = (offerNotice 7 b s).alarms :=
    offerNotice_alarms (judgePermission_alarms s) (judgePermission_live s) 7 b
  unfold settingsNotice
  split
  · simp only [List.foldl_cons, List.foldl_nil, hoffer]
    exact ⟨rfl, rfl⟩
  · simp only [List.foldl_nil, judgePermission_alarms]
    exact ⟨rfl, rfl⟩

/-- A command that reported nothing queues nothing where DRIVE notices are off. -/
theorem closeEvent_quiet {s : State} (he : s.ev = {}) (h6 : noticeEnabled s 6 = false) :
    (closeEvent s).alarms.notices = s.alarms.notices := by
  have hs : settingsNotice s = [] := by rw [settingsNotice, he]
  have := (closeEvent_offers (c := none) he h6).1
  rwa [hs] at this

theorem offerNotice_prefix (kind : Nat) (body : List Byte) (s : State) : s.alarms.notices <+: (offerNotice kind body s).alarms.notices := by
  unfold offerNotice
  split
  · split
    · exact List.prefix_append _ _
    · exact List.prefix_rfl
  · exact List.prefix_rfl

theorem latchItem_prefix (s : State) (item : Nat) : s.alarms.notices <+: (latchItem s item).alarms.notices := by
  have hoffer (a : AlarmState) (ha : a.notices = s.alarms.notices) (body : List Byte) :
      s.alarms.notices <+: (offerNotice 0 body (s.setAlarms a)).alarms.notices := by
    have := offerNotice_prefix 0 body (s.setAlarms a)
    rwa [State.setAlarms_alarms, ha] at this
  unfold latchItem setLatch
  dsimp only
  split
  · exact List.prefix_rfl
  · split
    · exact hoffer _ (by rfl) _
    · exact List.prefix_rfl

theorem fold_prefix {α : Type} {f : State → α → State} (h : ∀ s x, s.alarms.notices <+: (f s x).alarms.notices) (xs : List α) (s : State) :
    s.alarms.notices <+: (xs.foldl f s).alarms.notices :=
  fold_frame (R := fun s t => s.alarms.notices <+: t.alarms.notices) (fun _ => List.prefix_rfl) List.IsPrefix.trans h xs s

theorem latchAll_prefix (s : State) : s.alarms.notices <+: (latchAll s).alarms.notices := by
  unfold latchAll
  exact fold_prefix latchItem_prefix _ s

theorem queueNotices_prefix (s : State) : s.alarms.notices <+: (queueNotices s).alarms.notices := by
  unfold queueNotices
  exact fold_prefix (fun s (n : Nat × List Byte) => offerNotice_prefix n.1 n.2 s) _ s

/-- The end of a command adds to the tail of the notice queue. -/
theorem closeEvent_prefix (s : State) : s.alarms.notices <+: (closeEvent s).alarms.notices := by
  have hlines (t : State) : ((judgeLines t).setEv {}).alarms.notices = t.alarms.notices := by
    unfold judgeLines
    rw [State.setEv_alarms, State.setAlarms_alarms]
  have h := (latchAll_prefix (judgePermission s)).trans (queueNotices_prefix _)
  rw [judgePermission_alarms] at h
  unfold closeEvent
  rwa [hlines]

/-! ## The end of a transmission -/

theorem exec_transmitComplete (s : State) : exec .transmitComplete s = event transmitCompleteEffect s := rfl

theorem dispatchHead_empty {s : State} (h : s.link.queue = []) : dispatchHead s = s := by
  unfold dispatchHead
  rw [h]

/-- The last byte of a notice has left, and no request waits. -/
theorem transmitComplete_notice {s : State} {sent : List Byte} (ht : s.link.tx = some ⟨false, sent⟩)
    (hd : dispatchHead (s.setLink { s.link with tx := none }) = s.setLink { s.link with tx := none }) :
    transmitCompleteEffect s = s.setLink { s.link with tx := none } := by
  unfold transmitCompleteEffect
  rw [ht]
  exact hd

/-- The last byte of a reply has left. -/
theorem transmitComplete_reply {s : State} {sent : List Byte} (ht : s.link.tx = some ⟨true, sent⟩) :
    transmitCompleteEffect s = dispatchHead (replyLeft (s.setLink { s.link with tx := none })) := by
  unfold transmitCompleteEffect
  rw [ht]
  rfl

/-- A reply that left with no rate written and no restart asked for frees the reply buffer alone. -/
theorem replyLeft_plain {s : State} (hn : s.link.rateNew = none) (hr : s.link.restart = .none) :
    replyLeft s = s.setLink { s.link with reply := none } := by
  unfold replyLeft
  congr 1
  simp [hn, hr]

/-! ## The free transmitter -/

/-- The transmitter is free to start a frame. -/
def Free (s : State) : Prop := s.link.tx = none ∧ s.link.restart = .none ∧ s.link.rateDue = none

theorem Free.closeEvent {s : State} (h : Free s) : Free (closeEvent s) := by
  unfold Free
  rw [closeEvent_link]
  exact h

theorem Free.not_held {s : State} (h : Free s) : ¬ (s.link.tx.isSome || s.link.restart == .due || s.link.rateDue.isSome) = true := by
  simp [h.1, h.2.1, h.2.2]

theorem transmit_idle {s : State} (h : Free s) (hr : s.link.reply = none) (hn : s.alarms.notices = []) : transmit s = s := by
  unfold transmit
  rw [if_neg h.not_held, hr, hn]

theorem transmit_sendsReply {s : State} {f : List Byte} (h : Free s) (hr : s.link.reply = some f)
    (hl : s.link.lastSent ≠ .reply ∨ s.alarms.notices = []) : transmit s = sendReply s f := by
  unfold transmit
  rw [if_neg h.not_held, hr]
  match hn : s.alarms.notices with
  | [] => rfl
  | n :: rest => exact if_neg (hl.resolve_right (by rw [hn]; exact List.cons_ne_nil _ _))

theorem transmit_sendsNotice {s : State} {n : Notice} {rest : List Notice} (h : Free s) (hn : s.alarms.notices = n :: rest)
    (hl : s.link.reply = none ∨ s.link.lastSent = .reply) : transmit s = sendNotice s n rest := by
  unfold transmit
  rw [if_neg h.not_held, hn]
  match hr : s.link.reply with
  | none => rfl
  | some f => exact if_pos (hl.resolve_left (by rw [hr]; exact Option.some_ne_none _))

/-! ## Events seen whole -/

/-- An event's result, whole, beside what `AfterEvent` says of it. -/
theorem event_whole {s u : State} {f : State → State} (hp : Powered s) (hf : f (s.setEv {}) = u.setEv {}) :
    event f s = .next (transmit (closeEvent (u.setEv {}))) ∧ AfterEvent [] u (transmit (closeEvent (u.setEv {}))) := by
  obtain ⟨t, hstep, hafter⟩ := afterEvent_intro hp hf rfl (.inr rfl)
  have ht := hstep.symm.trans (event_next f hp)
  rw [hf] at ht
  obtain rfl := Host.Outcome.next.inj ht
  exact ⟨hstep, hafter⟩

/-! ## O19 -/

/-- The notice that heads the queue before the end of a command heads it after. -/
theorem closeEvent_heads {s : State} {n : Notice} {rest : List Notice} (h : s.alarms.notices = n :: rest) :
    ∃ more, (closeEvent s).alarms.notices = n :: more := by
  obtain ⟨more, hm⟩ := closeEvent_prefix s
  exact ⟨rest ++ more, by rw [← hm, h, List.cons_append]⟩

theorem linkFree_iff {s : State} : linkFree s = true ↔
    s.link.reply = none ∧ s.link.queue = [] ∧ s.link.restart = .none ∧ s.link.rateDue = none := by
  simp [linkFree, lineSettled, and_assoc]

theorem exec_identify (tag : Byte) (s : State) : exec (.identify tag) s = request 0x01 tag [] reqIdentify s := rfl

/-- An IDENTIFY at the head of the queue is dispatched. -/
theorem dispatchHead_identify {s : State} {tag : Byte} {rest : List Request} (hq : s.link.queue = ⟨0x01, tag, []⟩ :: rest)
    (hr : s.link.reply = none) (hl : lineSettled s = true) :
    dispatchHead s = formReply 0x01 tag (ok (s.setLink { s.link with queue := rest }) identifyBody) := by
  have hserve : serve 0x01 [] = reqIdentify := rfl
  unfold dispatchHead
  rw [hq]
  dsimp only
  rw [if_pos (by rw [hr, hl]; rfl), hserve]
  rfl

/-- Without a request to dispatch, a notice or a reply that has left frees the transmitter. -/
theorem dispatchHead_held {s : State} {f : List Byte} (h : s.link.reply = some f) : dispatchHead s = s := by
  unfold dispatchHead
  split
  · rfl
  · exact if_neg (by simp [h])

/-- A reply that left with no rate written and no restart asked for. -/
theorem transmitComplete_replied {s : State} {sent : List Byte} (ht : s.link.tx = some ⟨true, sent⟩) (hrate : s.link.rateNew = none)
    (hres : s.link.restart = .none) :
    transmitCompleteEffect s = dispatchHead (s.setLink { s.link with tx := none, reply := none }) := by
  rw [transmitComplete_reply ht, replyLeft_plain (s := s.setLink { s.link with tx := none }) hrate hres]
  rfl

/-- What an IDENTIFY that is dispatched leaves, and the frame that starts; `u` is the state without the request. -/
theorem identify_dispatched {u : State} (tag : Byte) (hu : u.ev = {}) (hfree : Free u) :
    let t := transmit (closeEvent (formReply 0x01 tag (ok u identifyBody)))
    Replied t 0x01 tag .ok identifyBody ∧ t.link.queue = u.link.queue ∧
      (∀ (n : Notice) (others : List Notice), u.link.lastSent = .reply → u.alarms.notices = n :: others →
        t.link.tx = some ⟨false, linkFrame n.kind 0 n.body⟩ ∧ t.link.lastSent = .notice) ∧
      (u.alarms.notices = [] → noticeEnabled u 6 = false →
        ∃ reply, t.link.reply = some reply ∧ t.link.tx = some ⟨true, reply⟩ ∧ t.link.lastSent = .reply) := by
  have hw := formReply_link 0x01 tag (ok u identifyBody)
  have hnotices := formReply_notices 0x01 tag (ok u identifyBody)
  have hev := formReply_ev 0x01 tag (ok u identifyBody)
  have hlive := formReply_live 0x01 tag (ok u identifyBody)
  simp only [ok] at hw hnotices hlive hev ⊢
  generalize formReply 0x01 tag ⟨u, .ok, identifyBody⟩ = w at *
  have hc : (closeEvent w).link = w.link := closeEvent_link w
  have hfreew : Free (closeEvent w) := Free.closeEvent (by unfold Free; rw [hw]; exact hfree)
  have hreply : (closeEvent w).link.reply = some (replyFrame (closeEvent u) 0x01 tag .ok identifyBody) := by rw [hc, hw]
  refine ⟨replied_of_reply ((transmit_reply _).trans hreply), ?_, fun n others hlast hn => ?_, fun hn h6 => ?_⟩
  · rw [transmit_queue, hc, hw]
  · obtain ⟨more, hm⟩ := closeEvent_heads hn
    obtain ⟨more', hm'⟩ := closeEvent_heads (hnotices.trans hm)
    rw [transmit_sendsNotice hfreew hm' (.inr (by rw [hc, hw]; exact hlast))]
    exact ⟨rfl, rfl⟩
  · have hquiet : (closeEvent w).alarms.notices = [] := by
      rw [closeEvent_quiet hev ((noticeEnabled_congr hlive 6).trans h6), hnotices, closeEvent_quiet hu h6, hn]
    refine ⟨_, (transmit_reply _).trans hreply, ?_⟩
    rw [transmit_sendsReply hfreew hreply (.inr hquiet)]
    exact ⟨rfl, rfl⟩

/-- Settles O19: what each end of a transmission leaves in the link, and the frame that the free transmitter takes then. -/
theorem transmitterTakesTurns : Obligations.TransmitterTakesTurns := by
  intro s hp hres hdue
  have hfree (x : Option (List Byte)) : Free ((s.setLink { s.link with tx := none, reply := x }).setEv {}) := ⟨rfl, hres, hdue⟩
  refine ⟨fun sent reply ht hr hlast => ?_, fun sent n rest ht hlast hq hrate hn => ?_, fun sent tag rest ht hrate hq => ?_,
    fun sent n rest ht hr hq hn => ?_, fun sent isReply ht hr hq hrate hn h6 => ?_, fun tag hlink htx hn h6 => ?_⟩
  · obtain ⟨hstep, hafter⟩ := event_whole (u := s.setLink { s.link with tx := none }) hp
      (transmitComplete_notice (s := s.setEv {}) ht (dispatchHead_held hr))
    refine ⟨_, hstep, hafter, ?_⟩
    rw [transmit_sendsReply (Free.closeEvent (hfree s.link.reply)) (f := reply) (by rw [closeEvent_link]; exact hr)
      (.inl (by rw [closeEvent_link]; exact hlast ▸ by decide))]
    exact ⟨rfl, rfl⟩
  · obtain ⟨hstep, hafter⟩ := event_whole (u := s.setLink { s.link with tx := none, reply := none }) hp
      ((transmitComplete_replied (s := s.setEv {}) ht hrate hres).trans (dispatchHead_empty hq))
    obtain ⟨more, hm⟩ := closeEvent_heads (s := (s.setLink { s.link with tx := none, reply := none }).setEv {}) hn
    refine ⟨_, hstep, hafter, ?_⟩
    rw [transmit_sendsNotice (Free.closeEvent (hfree none)) hm (.inl (by rw [closeEvent_link]; rfl))]
    exact ⟨rfl, rfl⟩
  · have hd := (transmitComplete_replied (s := s.setEv {}) ht hrate hres).trans
      (dispatchHead_identify hq rfl (by simp [lineSettled, hres, hdue]))
    refine ⟨_, event_next _ hp, ?_⟩
    rw [hd]
    exact identify_dispatched tag rfl ⟨rfl, hres, hdue⟩
  · obtain ⟨hstep, hafter⟩ := event_whole (u := s.setLink { s.link with tx := none }) hp
      (transmitComplete_notice (s := s.setEv {}) ht (dispatchHead_empty hq))
    obtain ⟨more, hm⟩ := closeEvent_heads (s := (s.setLink { s.link with tx := none }).setEv {}) hn
    refine ⟨_, hstep, hafter, ?_⟩
    rw [transmit_sendsNotice (Free.closeEvent (hfree s.link.reply)) hm (.inl (by rw [closeEvent_link]; exact hr))]
    refine ⟨rfl, rfl, fun h6 => ?_⟩
    have hquiet := closeEvent_quiet (s := (s.setLink { s.link with tx := none }).setEv {}) rfl h6
    exact (List.cons.inj (hm.symm.trans (hquiet.trans hn))).2
  · have hd : transmitCompleteEffect (s.setEv {}) = (s.setLink { s.link with tx := none, reply := none }).setEv {} := by
      cases isReply with
      | true => exact (transmitComplete_replied (s := s.setEv {}) ht hrate hres).trans (dispatchHead_empty hq)
      | false =>
        have hr' : s.link.reply = none := hr.resolve_left Bool.false_ne_true
        rw [transmitComplete_notice (s := s.setEv {}) ht (dispatchHead_empty hq), ← hr']
        rfl
    obtain ⟨hstep, hafter⟩ := event_whole hp hd
    refine ⟨_, hstep, hafter, ?_⟩
    rw [transmit_idle (Free.closeEvent (hfree none)) (by rw [closeEvent_link]; rfl)
      ((closeEvent_quiet (s := (s.setLink { s.link with tx := none, reply := none }).setEv {}) rfl h6).trans hn), closeEvent_link]
    rfl
  · obtain ⟨hreply, hq, -, -⟩ := linkFree_iff.mp hlink
    obtain ⟨t, hstep, -, hafter⟩ := request_report 0x01 tag [] (s := s) (op := reqIdentify) ⟨hp, hlink⟩ rfl
    have ht := Host.Outcome.next.inj (hstep.symm.trans (request_ready ⟨hp, hlink⟩ 0x01 tag [] reqIdentify))
    have hid := identify_dispatched (u := s.setEv {}) tag rfl ⟨htx, hres, hdue⟩
    rw [show reqIdentify (s.setEv {}) = ok (s.setEv {}) identifyBody from rfl] at ht
    dsimp only at hid
    rw [← ht] at hid
    obtain ⟨-, -, -, hsent⟩ := hid
    obtain ⟨reply, h1, h2, h3⟩ := hsent hn h6
    exact ⟨t, reply, (exec_identify tag s).trans hstep, hafter, h1, h2, h3⟩

/-! ## O21 -/

theorem exec_restart (tag : Byte) (s : State) : exec (.restart tag) s = request 0x04 tag [] reqRestart s := rfl
theorem exec_setSetting (tag : Byte) (id : BitVec 16) (value : BitVec 32) (s : State) :
    exec (.setSetting tag id value) s = request 0x06 tag (word16Bytes id ++ word32Bytes value) (reqSetSetting id value) s := rfl
theorem exec_lineRateApply (s : State) : exec .lineRateApply s = event rateEffect s := rfl

theorem reqRestart_free {s : State} (h : s.link.busy = none) :
    reqRestart s = ok (s.setLink { s.link with restart := .afterReply }) := by
  unfold reqRestart
  rw [h]

theorem reqRestart_busy {s : State} (h : s.link.busy.isSome = true) : reqRestart s = turnDown s .busy := by
  obtain ⟨c, hc⟩ := Option.isSome_iff_exists.mp h
  unfold reqRestart
  rw [hc]

/-- Nothing is dispatched while the line is not settled. -/
theorem dispatchHead_unsettled {s : State} (h : lineSettled s = false) : dispatchHead s = s := by
  unfold dispatchHead
  split
  · rfl
  · exact if_neg (by simp [h])

/-- Nothing starts at the instant of a restart, nor before a new line rate is in use. -/
theorem transmit_stopped {s : State} (h : s.link.restart = .due ∨ s.link.rateDue.isSome = true) : transmit s = s := by
  unfold transmit
  rw [if_pos (by rcases h with h | h <;> simp [h])]

/-- A reply left after which the line is not settled. -/
theorem transmitComplete_unsettled {s u : State} {sent : List Byte} (hp : Powered s) (ht : s.link.tx = some ⟨true, sent⟩)
    (hu : replyLeft ((s.setEv {}).setLink { s.link with tx := none }) = u.setEv {})
    (hheld : u.link.restart = .due ∨ u.link.rateDue.isSome = true) (htx : u.link.tx = none) :
    ∃ t, exec .transmitComplete s = .next t ∧ AfterEvent [] u t ∧ t.link.tx = none := by
  have hsettled : lineSettled (u.setEv {}) = false := by
    unfold lineSettled
    simp only [State.setEv_link]
    rcases hheld with h | h
    · rw [h]; rfl
    · obtain ⟨r, hr⟩ := Option.isSome_iff_exists.mp h
      rw [hr]
      exact Bool.and_false _
  have hf : transmitCompleteEffect (s.setEv {}) = u.setEv {} := by
    rw [transmitComplete_reply (s := s.setEv {}) ht]
    rw [show (s.setEv {}).link = s.link from rfl, hu]
    exact dispatchHead_unsettled hsettled
  obtain ⟨hstep, hafter⟩ := event_whole hp hf
  refine ⟨_, hstep, hafter, ?_⟩
  rw [transmit_stopped (by rw [closeEvent_link]; exact hheld), closeEvent_link]
  exact htx

/-- A rate of R168 read from the 32 bits of a request. -/
theorem lineRate_toInt {rate : BitVec 32} (h : rate.toNat ∈ [9600, 19200, 57600, 115200, 230400, 460800, 921600]) :
    rate.toInt = rate.toNat ∧ lineRates.contains (rate.toNat : Int) = true := by
  have hlt : rate.toNat < 2147483648 := by
    simp only [List.mem_cons, List.not_mem_nil, or_false] at h
    omega
  refine ⟨by rw [BitVec.toInt_eq_toNat_of_lt (by omega)], ?_⟩
  rw [List.contains_iff_mem]
  exact List.mem_map_of_mem (f := fun n : Nat => (n : Int)) h

/-- The setting of the line rate (R178). -/
def lineRateSetting : Setting :=
  ⟨.enumerated lineRates, fun p => p.lineRate, fun p v => { p with lineRate := v.toNat }⟩

theorem settingOf_lineRate : settingOf (groupOf 0x0700) (indexOf 0x0700) = some lineRateSetting := rfl

/-- SET SETTING of another line rate: the setting takes it, and the rate in use waits for the reply (R168). -/
theorem reqSetSetting_lineRate {s : State} {rate : BitVec 32} (h : rate.toNat ∈ [9600, 19200, 57600, 115200, 230400, 460800, 921600])
    (hne : s.live.lineRate ≠ rate.toNat) :
    reqSetSetting 0x0700 rate s =
      ok ((s.setLive { s.live with lineRate := rate.toNat }).setLink { s.link with rateNew := some rate.toNat }) (be 4 rate.toNat) := by
  obtain ⟨hint, hmem⟩ := lineRate_toInt h
  have hjudge : judgeValue lineRateSetting.values rate.toInt = some (rate.toNat : Int) := by
    rw [hint]
    exact if_pos hmem
  have hwrite : writeIfNew (groupOf 0x0700) (indexOf 0x0700) lineRateSetting rate.toNat s =
      (s.setLive { s.live with lineRate := rate.toNat }).setLink { s.link with rateNew := some rate.toNat } := by
    refine (if_neg (fun he => hne (Int.ofNat.inj he))).trans ?_
    rfl
  unfold reqSetSetting
  dsimp only
  rw [settingOf_lineRate]
  dsimp only
  rw [hjudge]
  dsimp only
  rw [hwrite, if_pos hint.symm]
  rfl

theorem dispatchHead_status {s : State} {tag : Byte} {rest : List Request} (hq : s.link.queue = ⟨0x02, tag, []⟩ :: rest)
    (hr : s.link.reply = none) (hl : lineSettled s = true) :
    dispatchHead s = formReply 0x02 tag (reqStatus (s.setLink { s.link with queue := rest })) := by
  have hserve : serve 0x02 [] = reqStatus := rfl
  unfold dispatchHead
  rw [hq]
  dsimp only
  rw [if_pos (by rw [hr, hl]; rfl), hserve]

theorem be_one_causeCode (c : StartCause) : be 1 (causeCode c) = [if c = .restart then 1 else 0] := by cases c <;> rfl
theorem be_one_sourceCode (c : LoadSource) : be 1 (sourceCode c) = [if c = .factory then 1 else 0] := by cases c <;> rfl

/-- Settles O21: the restart and the rate are taken when the reply has left, and hold the line until their own commands. -/
theorem restartAndLineRateFollowTheReply : Obligations.RestartAndLineRateFollowTheReply := by
  intro s
  refine ⟨fun tag hs hb => ?_, fun tag hs hb => ?_, fun sent hp ht hres hrate => ?_, fun tag rate hs hmem hne => ?_,
    fun sent r hp ht hrate hres => ?_, fun r hp hdue => ⟨fun hq => ?_, fun tag rest hq hr hres => ?_⟩⟩
  · rw [exec_restart]
    exact afterRequest_intro (u := s.setLink { s.link with restart := .afterReply }) 0x04 tag [] hs
      (reqRestart_free (s := s.setEv {}) hb) rfl (.inr rfl)
  · rw [exec_restart]
    exact request_turnedDown 0x04 tag [] hs (reqRestart_busy (s := s.setEv {}) hb)
  · refine transmitComplete_unsettled (u := s.setLink { s.link with tx := none, reply := none, restart := .due }) hp ht ?_ (.inl rfl) rfl
    unfold replyLeft
    simp [hrate, hres, State.setLink, State.setEv]
  · obtain ⟨t, hstep, hreply, hafter⟩ := afterRequest_intro
      (u := (s.setLive { s.live with lineRate := rate.toNat }).setLink { s.link with rateNew := some rate.toNat })
      0x06 tag (word16Bytes 0x0700 ++ word32Bytes rate) hs (reqSetSetting_lineRate (s := s.setEv {}) hmem hne) rfl (.inr rfl)
    refine ⟨t, (exec_setSetting ..).trans hstep, hreply, hafter, ?_⟩
    rw [hafter.2.2]
    rfl
  · refine transmitComplete_unsettled (u := s.setLink { s.link with tx := none, reply := none, rateNew := none, rateDue := some r }) hp ht ?_
      (.inr rfl) rfl
    unfold replyLeft
    simp [hrate, hres, State.setLink, State.setEv]
  · have hf : rateEffect (s.setEv {}) = (s.setLink { s.link with rate := r, rateDue := none }).setEv {} := by
      unfold rateEffect
      rw [State.setEv_link, hdue]
      exact dispatchHead_empty hq
    exact afterEvent_intro hp hf rfl (.inr rfl)
  · have hf : rateEffect (s.setEv {}) =
        formReply 0x02 tag (reqStatus ((s.setEv {}).setLink { s.link with rate := r, rateDue := none, queue := rest })) := by
      unfold rateEffect
      rw [State.setEv_link, hdue]
      exact dispatchHead_status hq hr (by simp [lineSettled, hres])
    refine ⟨_, (exec_lineRateApply s).trans (event_next rateEffect hp), ?_⟩
    rw [hf]
    refine ⟨?_, ?_, ?_⟩
    · rw [transmit_queue, closeEvent_link, formReply_link]
      rfl
    · rw [transmit_rate, closeEvent_link, formReply_link]
      rfl
    · have hbody : statusBody ((s.setEv {}).setLink { s.link with rate := r, rateDue := none, queue := rest }) =
          be 5 (s.clock.time / 10000000) ++ be 4 (s.clock.time % 10000000) ++
            [if s.link.cause = .restart then 1 else 0, if s.link.source = .factory then 1 else 0] ++
            be 4 s.link.held.count.toNat ++ be 1 rest.length ++ be 1 s.alarms.notices.length ++ be 4 r ++
            be 4 s.alarms.epoch.toNat := by
        unfold statusBody
        rw [be_one_causeCode, be_one_sourceCode]
        simp [Config.second]
        exact ⟨rfl, rfl⟩
      have hreply (a : Answer) : (transmit (closeEvent (formReply 0x02 tag a))).link.reply =
          some (replyFrame (closeEvent a.state) 0x02 tag a.result a.body) := by
        rw [transmit_reply, closeEvent_link, formReply_reply]
      rw [← hbody]
      exact replied_of_reply (hreply _)

/-! ## O22 -/

theorem exec_commitSettings (tag : Byte) (s : State) : exec (.commitSettings tag) s = request 0x07 tag [] reqCommitSettings s := rfl
theorem exec_commitCompletion (s : State) : exec .commitCompletion s = event completionEffect s := rfl

theorem reqCommitSettings_free {s : State} (h : s.link.busy = none) :
    reqCommitSettings s = ok (s.setLink { s.link with busy := some (snapshot s) }) (be 4 (snapshot s).count.toNat) := by
  unfold reqCommitSettings
  rw [h]

theorem reqCommitSettings_busy {s : State} (h : s.link.busy.isSome = true) : reqCommitSettings s = turnDown s .busy := by
  obtain ⟨c, hc⟩ := Option.isSome_iff_exists.mp h
  unfold reqCommitSettings
  rw [hc]

theorem completionEffect_busy {s : State} {c : Contents} (h : s.link.busy = some c) :
    completionEffect s =
      (s.setLink { s.link with stored := some c, held := c, busy := none }).setEv { s.ev with committed := some c.count } := by
  unfold completionEffect
  rw [h]

/-- The end of a command that reported nothing, with permission settled, leaves the notices-lost flag. -/
theorem closeEvent_lost {s : State} (he : s.ev = {}) (hj : judgePermission s = s) : (closeEvent s).alarms.lost = s.alarms.lost := by
  have hl : latchAll s = s := by
    have ho : occurrences s = [] := by simp [occurrences, he]
    rw [latchAll, ho, List.foldl_nil]
  have hq : queueNotices s = s := by rw [queueNotices, noticesOf_quiet he, List.foldl_nil]
  unfold closeEvent judgeLines
  rw [hj, hl, hq]
  rfl

/-- After an answered request the notices-lost flag is clear (R164). -/
theorem request_lost {s t : State} {kind tag : Byte} {bytes : List Byte} {op : State → Answer} (hs : Ready s)
    (h : request kind tag bytes op s = .next t) : t.alarms.lost = false := by
  rw [request_ready hs] at h
  obtain rfl := Host.Outcome.next.inj h
  have hj : judgePermission (formReply kind tag (op (s.setEv {}))) = formReply kind tag (op (s.setEv {})) :=
    judgePermission_id (judgePermission_settled (s := (op (s.setEv {})).state) (formReply_drive ..) (formReply_em ..))
  rw [transmit_lost, closeEvent_lost (formReply_ev ..) hj, formReply_lost]

/-- Settles O22: the snapshot goes into the store when the completion comes, and the SETTINGS notice is the one offer. -/
theorem commitTakesASnapshot : Obligations.CommitTakesASnapshot := by
  intro s tag
  refine ⟨fun hs hb => ?_, fun hs hb => ?_, fun c hp hb => ?_⟩
  · intro taken
    obtain ⟨t, hstep, hreply, hafter⟩ := afterRequest_intro (u := s.setLink { s.link with busy := some taken }) 0x07 tag [] hs
      (reqCommitSettings_free (s := s.setEv {}) hb) rfl (.inr rfl)
    exact ⟨t, (exec_commitSettings ..).trans hstep, hreply, hafter, request_lost hs hstep⟩
  · rw [exec_commitSettings]
    exact request_turnedDown 0x07 tag [] hs (reqCommitSettings_busy (s := s.setEv {}) hb)
  · obtain ⟨t, hstep, hafter⟩ := afterEvent_intro (u := s.setLink { s.link with stored := some c, held := c, busy := none }) hp
      (completionEffect_busy (s := s.setEv {}) hb) rfl (.inr rfl)
    refine ⟨t, (exec_commitCompletion s).trans hstep, hafter, fun htx h6 => ?_⟩
    have ht := Host.Outcome.next.inj (hstep.symm.trans (event_next completionEffect hp))
    rw [completionEffect_busy (s := s.setEv {}) hb, transmit_taken (by rw [closeEvent_link]; exact htx)] at ht
    obtain ⟨hn, hl⟩ := closeEvent_offers (c := some c.count)
      (s := (s.setLink { s.link with stored := some c, held := c, busy := none }).setEv { committed := some c.count }) rfl h6
    have hoffer := offerNotice_alarms (t := s) (kind := 7) (body := be 4 c.count.toNat)
      (s := (s.setLink { s.link with stored := some c, held := c, busy := none }).setEv { committed := some c.count }) rfl rfl
    have hnotices : t.alarms.notices = (offerNotice 7 (be 4 c.count.toNat) s).alarms.notices := by
      rw [ht, ← hoffer]
      exact hn
    have hlost : t.alarms.lost = (offerNotice 7 (be 4 c.count.toNat) s).alarms.lost := by
      rw [ht, ← hoffer]
      exact hl
    rw [hnotices, hlost]
    unfold offerNotice
    refine ⟨fun hon hfits => ?_, fun hon hfull => ?_, fun hoff => ?_⟩
    · rw [if_pos hon, if_pos hfits]
      exact ⟨rfl, rfl⟩
    · rw [if_pos hon, if_neg hfull]
      exact ⟨rfl, rfl⟩
    · rw [if_neg (by rw [hoff]; decide)]
      exact ⟨rfl, rfl⟩

end Sys2Proof.Machine
end

section
/-! PROOF of O28, O29 and O31: the governing input and the start of qualifying; with what a command leaves of each block, and which
notices of each kind it queues. -/

namespace Sys2Proof.Machine
open Sys2Proof

/-! ## What a command leaves -/

/-- The end of a command that brought the part to `u`: everything but the drive, the Alarm Unit, the link and the report stands. -/
def Left (u t : State) : Prop := t = { u with drive := (judgePermission u).drive, alarms := t.alarms, link := t.link, ev := {} }

section
variable {u t : State}

theorem Left.clock (h : Left u t) : t.clock = u.clock := by rw [show t = _ from h]
theorem Left.feed (h : Left u t) : t.feed = u.feed := by rw [show t = _ from h]
theorem Left.store (h : Left u t) : t.store = u.store := by rw [show t = _ from h]
theorem Left.em (h : Left u t) : t.em = u.em := by rw [show t = _ from h]
theorem Left.clips (h : Left u t) : t.clips = u.clips := by rw [show t = _ from h]
theorem Left.splice (h : Left u t) : t.splice = u.splice := by rw [show t = _ from h]
theorem Left.drive (h : Left u t) : t.drive = (judgePermission u).drive := by rw [show t = _ from h]
theorem Left.live (h : Left u t) : t.live = u.live := by rw [show t = _ from h]
theorem Left.mem (h : Left u t) : t.mem = u.mem := by rw [show t = _ from h]

end

/-- What an event leaves. -/
theorem event_left {f : State → State} {s u : State} (hp : Powered s) (hf : f (s.setEv {}) = u) : ∃ t, event f s = .next t ∧ Left u t := by
  refine ⟨_, event_next f hp, ?_⟩
  rw [hf]
  unfold Left
  rw [transmit_eq, closeEvent_eq]

/-- What an answered request leaves, and its reply. -/
theorem request_left {op : State → Answer} {s : State} {a : Answer} (kind tag : Byte) (bytes : List Byte) (hs : Ready s)
    (hf : op (s.setEv {}) = a) : ∃ t, request kind tag bytes op s = .next t ∧
      Replied t kind tag a.result (if a.result = .ok ∨ a.result = .adjusted then a.body else []) ∧ Left a.state t := by
  refine ⟨_, request_ready hs kind tag bytes op, replied_of_reply (s := closeEvent a.state) (by simp [hf]), ?_⟩
  rw [hf]
  unfold Left
  rw [transmit_eq, closeEvent_eq, answered_drive]
  unfold formReply
  dsimp only
  rw [closeEvent_eq a.state]
  rfl

/-! ## The notices of one kind -/

theorem bodiesOf_append (kind : Nat) (xs ys : List (Nat × List Byte)) : bodiesOf kind (xs ++ ys) = bodiesOf kind xs ++ bodiesOf kind ys :=
  List.filterMap_append

theorem bodiesOf_map (kind other : Nat) (bs : List (List Byte)) : bodiesOf kind (bs.map (other, ·)) = if other = kind then bs else [] := by
  unfold bodiesOf
  rw [List.filterMap_map]
  split
  case isTrue h => simp [h]
  case isFalse h => simp [h]

section
variable (s : State)

theorem bodiesOf_clock : bodiesOf 1 (noticesOf s) = clockNotices s := by
  simp only [noticesOf, bodiesOf_append, bodiesOf_map]; simp
theorem bodiesOf_feed : bodiesOf 2 (noticesOf s) = feedNotice s .a ++ feedNotice s .b := by
  simp only [noticesOf, bodiesOf_append, bodiesOf_map]; simp
theorem bodiesOf_emission : bodiesOf 3 (noticesOf s) = emissionNotice s := by
  simp only [noticesOf, bodiesOf_append, bodiesOf_map]; simp
theorem bodiesOf_splice : bodiesOf 4 (noticesOf s) = spliceNotices s := by
  simp only [noticesOf, bodiesOf_append, bodiesOf_map]; simp
theorem bodiesOf_clip : bodiesOf 5 (noticesOf s) = s.ev.clips.map clipNotice := by
  simp only [noticesOf, bodiesOf_append, bodiesOf_map]; simp
theorem bodiesOf_drive : bodiesOf 6 (noticesOf s) = driveNotice s := by
  simp only [noticesOf, bodiesOf_append, bodiesOf_map]; simp

end

/-! ## The governing input (R12) -/

theorem isQualified_iff {s : State} {n : InputId} : isQualified s n = true ↔ (s.clock.inputs.get n).mode = .qualified := by
  simp [isQualified, inputRec]

/-- The clock's part of the state that the choice of the governing input does not move. -/
def SameInputs (s t : State) : Prop := t.clock = { s.clock with
  mode := t.clock.mode, governing := t.clock.governing, u := t.clock.u, lockCount := t.clock.lockCount, slew := t.clock.slew,
  slewPos := t.clock.slewPos, slewLeft := t.clock.slewLeft, boundary := t.clock.boundary }

theorem SameInputs.inputs {s t : State} (h : SameInputs s t) : t.clock.inputs = s.clock.inputs := by rw [show t.clock = _ from h]
theorem SameInputs.forced {s t : State} (h : SameInputs s t) : t.clock.forced = s.clock.forced := by rw [show t.clock = _ from h]
theorem SameInputs.time {s t : State} (h : SameInputs s t) : t.clock.time = s.clock.time := by rw [show t.clock = _ from h]

theorem enterClock_same (m : ClockMode) (s : State) :
    SameInputs s (enterClock m s) ∧ (enterClock m s).clock.governing = s.clock.governing ∧ (enterClock m s).clock.mode = m ∧
    (enterClock m s).ev.clockNote = true ∧ (enterClock m s).ev.inputNotes = s.ev.inputNotes ∧
    (enterClock m s).ev.stepped = s.ev.stepped := by
  cases m <;> exact ⟨rfl, rfl, rfl, rfl, rfl, rfl⟩

/-- The clock's act leaves the governing input, and reports nothing of the inputs. -/
theorem actOnGoverning_same (s : State) :
    SameInputs s (actOnGoverning s) ∧ (actOnGoverning s).clock.governing = s.clock.governing ∧
    (s.ev.clockNote = true → (actOnGoverning s).ev.clockNote = true) ∧ (actOnGoverning s).ev.inputNotes = s.ev.inputNotes ∧
    (actOnGoverning s).ev.stepped = s.ev.stepped := by
  have hkept : SameInputs s s ∧ s.clock.governing = s.clock.governing ∧ (s.ev.clockNote = true → s.ev.clockNote = true) ∧
      s.ev.inputNotes = s.ev.inputNotes ∧ s.ev.stepped = s.ev.stepped := ⟨rfl, rfl, id, rfl, rfl⟩
  have henter (m : ClockMode) : SameInputs s (enterClock m s) ∧ (enterClock m s).clock.governing = s.clock.governing ∧
      (s.ev.clockNote = true → (enterClock m s).ev.clockNote = true) ∧ (enterClock m s).ev.inputNotes = s.ev.inputNotes ∧
      (enterClock m s).ev.stepped = s.ev.stepped := by
    obtain ⟨hsame, hgov, -, hnote, hin, hst⟩ := enterClock_same m s
    exact ⟨hsame, hgov, fun _ => hnote, hin, hst⟩
  unfold actOnGoverning
  split
  case h_3 => exact ⟨rfl, rfl, id, rfl, rfl⟩
  all_goals try split
  all_goals first | exact hkept | exact henter _

/-- What the re-evaluation leaves: the governing input as chosen, and the report of a change of it. -/
theorem regovern_same (s : State) :
    SameInputs s (regovern s) ∧ (regovern s).clock.governing = chooseGoverning s ∧
    (chooseGoverning s ≠ s.clock.governing → (regovern s).ev.clockNote = true) ∧ (regovern s).ev.inputNotes = s.ev.inputNotes ∧
    (regovern s).ev.stepped = s.ev.stepped := by
  unfold regovern
  split
  case isTrue h => exact ⟨rfl, h.symm, fun hne => absurd h hne, rfl, rfl⟩
  case isFalse h =>
    obtain ⟨hsame, hgov, hnote, hin, hst⟩ := actOnGoverning_same (noteClock (s.setClock { s.clock with governing := chooseGoverning s }))
    refine ⟨?_, hgov, fun _ => hnote rfl, hin, hst⟩
    unfold SameInputs at hsame ⊢
    rw [hsame]
    rfl

@[simp] theorem judgeFit_clock (s : State) : (judgeFit s).clock = s.clock := by rw [show judgeFit s = _ from judgeFit_only s]

/-- The clock's fitness is no occasion of a CLOCK notice. -/
theorem judgeFit_clockNotes (s : State) : (judgeFit s).ev.inputNotes = s.ev.inputNotes ∧ (judgeFit s).ev.clockNote = s.ev.clockNote ∧
    (judgeFit s).ev.stepped = s.ev.stepped := by
  unfold judgeFit
  split
  · exact ⟨rfl, rfl, rfl⟩
  · split
    · split <;> exact ⟨rfl, rfl, rfl⟩
    · unfold setMute
      split <;> exact ⟨rfl, rfl, rfl⟩
    · exact ⟨rfl, rfl, rfl⟩

theorem judgeFit_clockNotices (s : State) : clockNotices (judgeFit s) = clockNotices s := by
  obtain ⟨hin, hnote, hst⟩ := judgeFit_clockNotes s
  unfold clockNotices clockNotice
  rw [hin, hnote, hst, judgeFit_clock]

theorem regovernFit_same (s : State) :
    SameInputs s (regovernFit s) ∧ (regovernFit s).clock.governing = chooseGoverning s ∧
    (chooseGoverning s ≠ s.clock.governing → (regovernFit s).ev.clockNote = true) ∧ (regovernFit s).ev.inputNotes = s.ev.inputNotes ∧
    (regovernFit s).ev.stepped = s.ev.stepped := by
  obtain ⟨hsame, hgov, hnote, hin, hst⟩ := regovern_same s
  obtain ⟨hin', hnote', hst'⟩ := judgeFit_clockNotes (regovern s)
  have hclock : (regovernFit s).clock = (regovern s).clock := judgeFit_clock _
  refine ⟨?_, by rw [hclock, hgov], fun hne => by rw [regovernFit, hnote', hnote hne], by rw [regovernFit, hin', hin],
    by rw [regovernFit, hst', hst]⟩
  unfold SameInputs at hsame ⊢
  rw [hclock, hsame]

/-- A forced input that is QUALIFIED governs. -/
theorem chooseGoverning_forced {s : State} {n : InputId} (hf : s.clock.forced = some n) (hq : (s.clock.inputs.get n).mode = .qualified) :
    chooseGoverning s = some n := by
  simp only [chooseGoverning, hf, Option.filter_some, isQualified_iff.mpr hq, if_true]

/-- Without a forced input that is QUALIFIED, the governing input is kept in non-revertive operation while it is QUALIFIED, and otherwise
the best priority decides. -/
theorem chooseGoverning_unforced {s : State} (hf : ∀ n, s.clock.forced = some n → (s.clock.inputs.get n).mode ≠ .qualified) :
    chooseGoverning s = ((s.clock.governing.filter fun g => s.live.clock.nonRevertive && isQualified s g).or (bestQualified s)) := by
  have hno : s.clock.forced.filter (isQualified s) = none := by
    rw [Option.filter_eq_none_iff]
    intro n hn hq
    exact hf n hn (isQualified_iff.mp hq)
  unfold chooseGoverning
  rw [hno]
  dsimp only
  split
  case h_1 g hg => rw [hg, Option.some_or]
  case h_2 hg => rw [hg, Option.none_or]

theorem mem_qualified {s : State} {n : InputId} : n ∈ InputId.all.filter (isQualified s) ↔ (s.clock.inputs.get n).mode = .qualified := by
  rw [List.mem_filter, isQualified_iff]
  exact and_iff_right (by cases n <;> decide)

theorem bestQualified_none {s : State} (h : ∀ n, (s.clock.inputs.get n).mode ≠ .qualified) : bestQualified s = none := by
  have hnil : InputId.all.filter (isQualified s) = [] := List.eq_nil_iff_forall_not_mem.mpr fun n hn => h n (mem_qualified.mp hn)
  rw [bestQualified, hnil, List.foldl_nil]

/-- Once an input that has a better priority than every other is the best, it stays so. -/
theorem betterInput_stays {s : State} {n : InputId} {ms : List InputId} (h : ∀ m ∈ ms, m ≠ n → inputPriority s n < inputPriority s m) :
    ms.foldl (betterInput s) (some n) = some n := by
  induction ms with
  | nil => rfl
  | cons m ms ih =>
    have hstep : betterInput s (some n) m = some n := by
      by_cases hm : m = n
      · simp [betterInput, hm]
      · exact if_neg (by have := h m (by simp) hm; omega)
    rw [List.foldl_cons, hstep]
    exact ih fun k hk => h k (by simp [hk])

/-- An input of the list that has a better priority than every other of the list, and than the best so far, is the best. -/
theorem betterInput_best {s : State} {n : InputId} {ms : List InputId} (hn : n ∈ ms)
    (h : ∀ m ∈ ms, m ≠ n → inputPriority s n < inputPriority s m) (best : Option InputId)
    (hb : ∀ m, best = some m → m ≠ n → inputPriority s n < inputPriority s m) : ms.foldl (betterInput s) best = some n := by
  induction ms generalizing best with
  | nil => simp at hn
  | cons m ms ih =>
    rw [List.foldl_cons]
    by_cases hm : m = n
    · subst hm
      have hstep : betterInput s best m = some m := by
        cases best with
        | none => rfl
        | some k =>
          by_cases hk : k = m
          · simp [betterInput, hk]
          · exact if_pos (hb k rfl hk)
      rw [hstep]
      exact betterInput_stays fun k hk => h k (by simp [hk])
    · have hmem : n ∈ ms := by simpa [Ne.symm hm] using hn
      refine ih hmem (fun k hk => h k (by simp [hk])) _ fun k hk hne => ?_
      have hcase : k = m ∨ best = some k := by
        cases best with
        | none => simp_all [betterInput]
        | some j =>
          simp only [betterInput] at hk
          split at hk <;> simp_all
      rcases hcase with rfl | hold
      · exact h k (by simp) hne
      · exact hb k hold hne

theorem bestQualified_some {s : State} {n : InputId} (hq : (s.clock.inputs.get n).mode = .qualified)
    (h : ∀ m, m ≠ n → (s.clock.inputs.get m).mode = .qualified → s.live.clock.priority.get n < s.live.clock.priority.get m) :
    bestQualified s = some n :=
  betterInput_best (mem_qualified.mpr hq) (fun m hm hne => h m hne (mem_qualified.mp hm)) none (by simp)

/-- What R12 chooses is none or an input that is QUALIFIED. -/
theorem bestQualified_qualified {s : State} {n : InputId} (h : bestQualified s = some n) : (s.clock.inputs.get n).mode = .qualified := by
  have hfold (ms : List InputId) (best : Option InputId) (h : ms.foldl (betterInput s) best = some n) : best = some n ∨ n ∈ ms := by
    induction ms generalizing best with
    | nil => exact .inl h
    | cons m ms ih =>
      rcases ih _ h with hstep | hmem
      · cases best with
        | none => simp_all [betterInput]
        | some j =>
          simp only [betterInput] at hstep
          split at hstep <;> simp_all
      · exact .inr (by simp [hmem])
  rcases hfold _ _ h with h | h
  · simp at h
  · exact mem_qualified.mp h

theorem chooseGoverning_qualified {s : State} {n : InputId} (h : chooseGoverning s = some n) : (s.clock.inputs.get n).mode = .qualified := by
  unfold chooseGoverning at h
  split at h
  case h_1 f hf =>
    obtain ⟨-, hq⟩ := Option.filter_eq_some_iff.mp hf
    obtain rfl := Option.some.inj h
    exact isQualified_iff.mp hq
  case h_2 =>
    split at h
    case h_1 g hg =>
      obtain ⟨-, hq⟩ := Option.filter_eq_some_iff.mp hg
      obtain rfl := Option.some.inj h
      exact isQualified_iff.mp (by simp_all)
    case h_2 => exact bestQualified_qualified h

/-! ## O28 -/

theorem exec_selectReference (tag n : Byte) (s : State) : exec (.selectReference tag n) s = request 0x12 tag [n] (reqSelectReference n) s := rfl

@[simp] theorem InputId.ofNum_num (n : InputId) : InputId.ofNum (BitVec.ofNat 8 n.num).toNat = some n := by cases n <;> rfl

theorem InputId.num_ne_zero (n : InputId) : BitVec.ofNat 8 n.num ≠ 0 := by cases n <;> decide

theorem InputId.ofNum_eq_none {k : Nat} (h : k = 0 ∨ 3 < k) : InputId.ofNum k = none := by
  unfold InputId.ofNum
  split <;> first | rfl | omega

/-- The CLOCK notices where no input's state changed. -/
theorem clockNotices_quiet {s : State} (hin : s.ev.inputNotes = ({} : Report).inputNotes) :
    clockNotices s = if s.ev.clockNote || s.ev.stepped then [clockNotice s none] else [] := by
  have hnone : InputId.all.filter s.ev.inputNotes.get = [] := by rw [hin]; rfl
  unfold clockNotices
  rw [hnone]

/-- Settles O28: the choice is `chooseGoverning`, whose four cases are its own lemmas. -/
theorem selectReferenceForces : Obligations.SelectReferenceForces := by
  intro s tag hs
  refine ⟨?_, fun n hq => ?_, fun n hq => ?_, fun n hn => ?_, fun n hf hq => chooseGoverning_forced hf hq, fun g hf hrev hg hq => ?_,
    fun n hf hrev hq hbest => ?_, fun hnone => ?_⟩
  · obtain ⟨t, hstep, hreply, hleft⟩ := request_left (op := reqSelectReference 0) 0x12 tag [0] hs rfl
    obtain ⟨hsame, hgov, -⟩ := regovernFit_same ((s.setEv {}).setClock { (s.setEv {}).clock with forced := none })
    exact ⟨t, hstep, hreply, by rw [hleft.clock]; exact hsame.forced, by rw [hleft.clock]; exact hgov, by rw [hleft.clock]; exact hsame.time,
      by rw [hleft.clock]; exact hsame.inputs⟩
  · generalize hu : (s.setEv {}).setClock { (s.setEv {}).clock with forced := some n } = u
    have hop : reqSelectReference (BitVec.ofNat 8 n.num) (s.setEv {}) = ok (regovernFit u) := by
      have hq' : isQualified (s.setEv {}) n = true := isQualified_iff.mpr hq
      simp only [reqSelectReference, if_neg (InputId.num_ne_zero n), InputId.ofNum_num, hq', if_true, hu]
    obtain ⟨t, hstep, hreply, hleft⟩ := request_left 0x12 tag [BitVec.ofNat 8 n.num] hs hop
    have hclock : u.clock = { s.clock with forced := some n } := by rw [← hu]; rfl
    have hev : u.ev = {} := by rw [← hu]; rfl
    have hch : chooseGoverning u = some n := chooseGoverning_forced (by rw [hclock]) (by rw [hclock]; exact hq)
    obtain ⟨hsame, hgov, hnote, hin, hst⟩ := regovernFit_same u
    rw [hch] at hgov hnote
    have hnotices := noticed_request (kind := 1) (by decide) 0x12 tag [BitVec.ofNat 8 n.num] hs hop
      (by rw [show (ok (regovernFit u)).state = _ from regovernFit_only u, ← hu]; rfl)
      (by rw [show (ok (regovernFit u)).state = _ from regovernFit_only u, ← hu]; rfl)
      (by rw [show (ok (regovernFit u)).state = _ from regovernFit_only u, ← hu]; rfl) hstep
    rw [bodiesOf_judgePermission (by decide), bodiesOf_clock] at hnotices
    have hbodies : clockNotices (ok (regovernFit u)).state =
        if s.clock.governing = some n then [] else [be 1 (clockCode t.clock.mode) ++ be 1 n.num ++ [0, 0, 0]] := by
      rw [show (ok (regovernFit u)).state = regovernFit u from rfl, clockNotices_quiet (by rw [hin, hev]), hst, hev, hleft.clock]
      by_cases hsome : s.clock.governing = some n
      case pos =>
        have hquiet : (regovernFit u).ev.clockNote = false := by
          have hstay : regovern u = u := if_pos (by rw [hch, hclock, hsome])
          rw [regovernFit, (judgeFit_clockNotes _).2.1, hstay, hev]
        rw [hquiet, if_pos hsome]
        rfl
      case neg =>
        rw [hnote (by rw [hclock]; exact fun h => hsome h.symm), if_neg hsome]
        simp only [Bool.true_or, if_true, clockNotice, hgov, hst, hev]
        rfl
    rw [hbodies] at hnotices
    exact ⟨t, hstep, hreply, by rw [hleft.clock]; exact hsame.forced.trans (by rw [hclock]), by rw [hleft.clock]; exact hgov,
      by rw [hleft.clock]; exact hsame.time.trans (by rw [hclock]), by rw [hleft.clock]; exact hsame.inputs.trans (by rw [hclock]), hnotices⟩
  · refine request_turnedDown 0x12 tag _ hs ?_
    have hq' : isQualified (s.setEv {}) n = false := by rw [Bool.eq_false_iff]; exact fun h => hq (isQualified_iff.mp h)
    simp only [reqSelectReference, if_neg (InputId.num_ne_zero n), InputId.ofNum_num, hq', Bool.false_eq_true, if_false]
  · refine request_turnedDown 0x12 tag _ hs ?_
    have h0 : n ≠ 0 := by rintro rfl; exact absurd hn (by decide)
    simp only [reqSelectReference, if_neg h0, InputId.ofNum_eq_none (.inr hn)]
  · rw [chooseGoverning_unforced hf, hg, Option.filter_some, if_pos (by simp [hrev, isQualified_iff.mpr hq]), Option.some_or]
  · have hno : (s.clock.governing.filter fun g => s.live.clock.nonRevertive && isQualified s g) = none := by
      rw [Option.filter_eq_none_iff]
      intro g hg
      rcases hrev with hrev | hrev
      · simp [hrev]
      · simp only [Bool.and_eq_true, not_and]
        exact fun _ h => hrev g hg (isQualified_iff.mp h)
    rw [chooseGoverning_unforced hf, hno, Option.none_or]
    exact bestQualified_some hq hbest
  · cases hch : chooseGoverning s with
    | none => rfl
    | some n => exact absurd (chooseGoverning_qualified hch) (hnone n)

/-! ## O29 -/

theorem exec_reseedReference (tag n : Byte) (s : State) :
    exec (.reseedReference tag n) s = request 0x13 tag [n] (reqReseedReference n) s := rfl

@[simp] theorem PerInput.get_set {α : Type} (x : PerInput α) (n : InputId) (a : α) : (x.set n a).get n = a := by cases n <;> rfl

theorem PerInput.get_set_ne {α : Type} (x : PerInput α) {n m : InputId} (h : m ≠ n) (a : α) : (x.set n a).get m = x.get m := by
  cases n <;> cases m <;> first | rfl | exact absurd rfl h

@[simp] theorem PerInput.set_set {α : Type} (x : PerInput α) (n : InputId) (a b : α) : (x.set n a).set n b = x.set n b := by
  cases n <;> rfl

@[simp] theorem PerInput.set_get {α : Type} (x : PerInput α) (n : InputId) : x.set n (x.get n) = x := by cases n <;> rfl

@[simp] theorem setInput_inputs (n : InputId) (r : InputRec) (s : State) : (setInput n r s).clock.inputs = s.clock.inputs.set n r := rfl
@[simp] theorem setInput_forced (n : InputId) (r : InputRec) (s : State) : (setInput n r s).clock.forced = s.clock.forced := rfl
@[simp] theorem setInput_time (n : InputId) (r : InputRec) (s : State) : (setInput n r s).clock.time = s.clock.time := rfl

/-- A change of an input's state. -/
theorem setInputMode_inputs (n : InputId) (m : InputMode) (s : State) :
    (setInputMode n m s).clock.inputs = s.clock.inputs.set n { s.clock.inputs.get n with mode := m } := by
  unfold setInputMode
  split
  case isTrue h =>
    rw [← h]
    exact (PerInput.set_get s.clock.inputs n).symm
  case isFalse =>
    dsimp only
    split <;> rfl

theorem setInputMode_time (n : InputId) (m : InputMode) (s : State) : (setInputMode n m s).clock.time = s.clock.time := by
  unfold setInputMode
  dsimp only
  split
  · rfl
  · split <;> rfl

/-- An input that leaves QUALIFIED is forced no more; otherwise the force stands. -/
theorem setInputMode_forced {n : InputId} {m : InputMode} {s : State} (hm : m ≠ .qualified) :
    (setInputMode n m s).clock.forced =
      if (s.clock.inputs.get n).mode ≠ m ∧ s.clock.forced = some n then none else s.clock.forced := by
  unfold setInputMode
  by_cases hsame : (s.clock.inputs.get n).mode = m
  · rw [if_pos (show (inputRec s n).mode = m from hsame), if_neg (by simp [hsame])]
  · rw [if_neg (show ¬ (inputRec s n).mode = m from hsame)]
    dsimp only
    by_cases hf : s.clock.forced = some n
    · rw [if_pos ⟨hm, hf⟩, if_pos ⟨hsame, hf⟩]
      rfl
    · rw [if_neg fun h => hf h.2, if_neg fun h => hf h.2]
      rfl

/-- Settles O29. -/
theorem reseedRestartsProving : Obligations.ReseedRestartsProving := by
  intro s tag hs
  refine ⟨fun n hon hforced => ?_, fun n hoff => ?_, fun n hn => ?_⟩
  · generalize hr : setInput n { inputRec (s.setEv {}) n with good := 0, missing := 0, disagree := 0, reseed := true } (s.setEv {}) = r
    have hop : reqReseedReference (BitVec.ofNat 8 n.num) (s.setEv {}) = ok (regovernFit (setInputMode n .qualifying r)) := by
      have hon' : inputEnabled (s.setEv {}) n = true := hon
      simp only [reqReseedReference, InputId.ofNum_num, hon', if_true, hr]
    obtain ⟨t, hstep, hreply, hleft⟩ := request_left 0x13 tag [BitVec.ofNat 8 n.num] hs hop
    obtain ⟨hsame, hgov, -⟩ := regovernFit_same (setInputMode n .qualifying r)
    have hinputs : (setInputMode n .qualifying r).clock.inputs = s.clock.inputs.set n { s.clock.inputs.get n with
        mode := .qualifying, good := 0, missing := 0, disagree := 0, reseed := true } := by
      rw [setInputMode_inputs, ← hr, setInput_inputs, PerInput.get_set, PerInput.set_set]
      rfl
    refine ⟨t, hstep, hreply, ?_, ?_, ?_, ?_⟩
    · rw [hleft.clock]
      exact hsame.inputs.trans hinputs
    · rw [hleft.clock]
      have hmode : (r.clock.inputs.get n).mode = (s.clock.inputs.get n).mode := by rw [← hr, setInput_inputs, PerInput.get_set]; rfl
      have hf : r.clock.forced = s.clock.forced := by rw [← hr]; rfl
      refine fun h => ?_
      have h := hsame.forced.symm.trans h
      rw [setInputMode_forced (by decide), hmode, hf] at h
      split at h
      · cases h
      · rename_i hc
        exact hc ⟨by rw [hforced h]; decide, h⟩
    · rw [hleft.clock]
      refine fun h => ?_
      have hq := chooseGoverning_qualified (hgov.symm.trans h)
      rw [hinputs, PerInput.get_set] at hq
      cases hq
    · rw [hleft.clock]
      refine hsame.time.trans ((setInputMode_time _ _ _).trans ?_)
      rw [← hr]
      rfl
  · refine request_turnedDown 0x13 tag _ hs ?_
    have hoff' : inputEnabled (s.setEv {}) n = false := hoff
    simp only [reqReseedReference, InputId.ofNum_num, hoff', Bool.false_eq_true, if_false]
  · refine request_turnedDown 0x13 tag _ hs ?_
    simp only [reqReseedReference, InputId.ofNum_eq_none hn]

/-! ## O31 -/

theorem exec_timePulse (n : InputId) (s : State) : exec (.timePulse n) s = event (pulseEffect n) s := rfl

theorem exec_secondNumberReceived (n : InputId) (k : BitVec 40) (s : State) :
    exec (.secondNumberReceived n k) s = event (secondNumberEffect n k) s := rfl

/-- A pulse whose input does not come to govern leaves the input records to its own record (R3). -/
theorem governPulse_elsewhere {n : InputId} {s : State} (h : (s.clock.inputs.get n).mode ≠ .qualified) (e : Int) (number : Option Nat) :
    governPulse n e number s = regovernFit s ∧ pulseWillStep n e s = false := by
  have hgov : (regovern s).clock.governing ≠ some n := fun hg =>
    h (chooseGoverning_qualified ((regovern_same s).2.1.symm.trans hg))
  refine ⟨if_neg hgov, ?_⟩
  simp only [pulseWillStep, Bool.and_eq_false_iff]
  exact .inl (beq_eq_false_iff_ne.mpr hgov)

/-- What the first pulse makes of its input before the governing input is judged. -/
theorem firstPulse_transition {s : State} {n : InputId} (hm : (s.clock.inputs.get n).mode = .absent) (e : Int) (out wrong : Bool) :
    ∃ u, pulseTransition n out wrong (filterPulse n e (countPulse n e false s)) = u ∧ u.clock.time = s.clock.time ∧
      u.clock.inputs = s.clock.inputs.set n { s.clock.inputs.get n with
        mode := .qualifying, eps := e * 256, good := 0, missing := 0, reseed := false, expiries := 0 } := by
  generalize hr : s.clock.inputs.get n = r at hm
  have hcount : countPulse n e false s = setInput n { r with missing := 0, expiries := 0 } s := by
    simp only [countPulse, inputRec, hr, hm]
  have hfilter : filterPulse n e (countPulse n e false s) =
      setInput n { r with missing := 0, expiries := 0, eps := e * 256, reseed := false } (countPulse n e false s) := by
    have hrec : inputRec (countPulse n e false s) n = { r with missing := 0, expiries := 0 } := by rw [hcount]; exact PerInput.get_set _ _ _
    simp only [filterPulse, hrec, pulseEnters, hm]
    rfl
  generalize hu : filterPulse n e (countPulse n e false s) = v at hfilter
  have hrec : inputRec v n = { r with missing := 0, expiries := 0, eps := e * 256, reseed := false } := by
    rw [hfilter]; exact PerInput.get_set _ _ _
  have hinputs : v.clock.inputs = s.clock.inputs.set n { r with missing := 0, expiries := 0, eps := e * 256, reseed := false } := by
    rw [hfilter, setInput_inputs, hcount, setInput_inputs, PerInput.set_set]
  have htime : v.clock.time = s.clock.time := by rw [hfilter, hcount]; rfl
  have hdone : pulseTransition n out wrong v =
      setInputMode n .qualifying (setInput n { r with missing := 0, expiries := 0, eps := e * 256, reseed := false, good := 0 } v) := by
    simp only [pulseTransition, hrec, hm]
  refine ⟨_, hdone, (setInputMode_time _ _ _).trans htime, ?_⟩
  rw [setInputMode_inputs, setInput_inputs, PerInput.get_set, PerInput.set_set, hinputs, PerInput.set_set]

/-- The first pulse of an ABSENT input, whole. -/
theorem firstPulse_effect {s : State} {n : InputId} (hon : s.live.clock.enabled.get n = true)
    (hm : (s.clock.inputs.get n).mode = .absent) :
    (pulseEffect n s).clock.time = s.clock.time ∧
    (pulseEffect n s).clock.inputs = s.clock.inputs.set n { s.clock.inputs.get n with
      mode := .qualifying, rawErr := pulseError s.clock.time, eps := pulseError s.clock.time * 256, good := 0, missing := 0, reseed := false,
      lastPulse := some s.clock.time, lastSecond := (s.clock.inputs.get n).received.or (s.clock.inputs.get n).lastSecond, received := none,
      expiries := 0 } := by
  have henters : pulseEnters (inputRec s n) = true := by rw [pulseEnters, inputRec, hm]; rfl
  have hon' : inputEnabled s n = true := hon
  obtain ⟨u, hu, htime, hinputs⟩ := firstPulse_transition hm (pulseError s.clock.time)
    (outOfBand s n (pulseError s.clock.time) && !meetsReseed (inputRec s n)) (wrongNumber s (inputRec s n).received)
  obtain ⟨hgovern, hwill⟩ := governPulse_elsewhere (n := n) (s := u) (by rw [hinputs, PerInput.get_set]; nofun)
    (pulseError s.clock.time) (inputRec s n).received
  obtain ⟨hsame, -⟩ := regovernFit_same u
  have heffect : pulseEffect n s = recordPulse n (pulseError s.clock.time) false (inputRec s n).received (regovernFit u) := by
    simp only [pulseEffect, hon', if_true, henters, Bool.not_true, Bool.false_and, Bool.false_eq_true, if_false, hu, hgovern, hwill]
  rw [heffect]
  refine ⟨hsame.time.trans htime, ?_⟩
  simp only [recordPulse, setInput_inputs, inputRec, hsame.inputs, hinputs, PerInput.get_set, PerInput.set_set, hsame.time, htime,
    Bool.false_eq_true, if_false]
  cases (s.clock.inputs.get n).received <;> rfl

/-- Settles O31. -/
theorem firstPulseBeginsQualifying : Obligations.FirstPulseBeginsQualifying := by
  intro s n hp
  refine ⟨fun hon hm _ => ?_, fun hoff => ?_, fun k => ?_⟩
  · obtain ⟨t, hstep, hleft⟩ := event_left hp (f := pulseEffect n) rfl
    obtain ⟨htime, hinputs⟩ := firstPulse_effect (s := s.setEv {}) (n := n) hon hm
    exact ⟨t, hstep, by rw [hleft.clock]; exact htime, by rw [hleft.clock]; exact hinputs⟩
  · refine afterEvent_intro (u := s) (is := []) (e := {}) hp ?_ rfl (.inr rfl)
    have hoff' : inputEnabled (s.setEv {}) n = false := hoff
    simp only [pulseEffect, hoff', Bool.false_eq_true, if_false]
  · exact afterEvent_intro (f := secondNumberEffect n k) (is := []) (e := {}) hp rfl rfl (.inr rfl)

end Sys2Proof.Machine
end

section
/-! PROOF of O25 and O26: the reports. What the part lists in order (plans, cues, extents), the free runs of the clip region, and each
body in the bytes of its rule. -/

namespace Sys2Proof.Machine
open Sys2Proof

/-! ## Listings in order -/

section
variable {α : Type} {lt le : α → α → Prop} [DecidableRel lt]

/-- An entry put before the first one that it is less than keeps a list in order. -/
theorem orderedInsert_pairwise (hlt : ∀ a b, lt a b → le a b) (hnot : ∀ a b, ¬ lt a b → le b a)
    (htrans : ∀ a b c, le a b → le b c → le a c) (a : α) {l : List α} (h : l.Pairwise le) : (l.orderedInsert lt a).Pairwise le := by
  induction l with
  | nil => simp
  | cons b l ih =>
    obtain ⟨hb, hl⟩ := List.pairwise_cons.mp h
    rw [List.orderedInsert_cons]
    split
    case isTrue hab =>
      refine List.pairwise_cons.mpr ⟨fun c hc => ?_, h⟩
      rcases List.mem_cons.mp hc with rfl | hc
      · exact hlt _ _ hab
      · exact htrans _ _ _ (hlt _ _ hab) (hb c hc)
    case isFalse hab =>
      refine List.pairwise_cons.mpr ⟨fun c hc => ?_, ih hl⟩
      rcases (List.mem_orderedInsert lt).mp hc with rfl | hc
      · exact hnot _ _ hab
      · exact hb c hc

theorem insertionSort_pairwise (hlt : ∀ a b, lt a b → le a b) (hnot : ∀ a b, ¬ lt a b → le b a)
    (htrans : ∀ a b c, le a b → le b c → le a c) (l : List α) : (l.insertionSort lt).Pairwise le := by
  induction l with
  | nil => exact .nil
  | cons a l ih => exact orderedInsert_pairwise hlt hnot htrans a ih

end

theorem insertPlan_eq (p : Plan) (ps : List Plan) :
    insertPlan p ps = ps.orderedInsert (fun p q => keyBefore p.key q.key = true) p := by
  induction ps with
  | nil => rfl
  | cons q ps ih => rw [insertPlan, List.orderedInsert_cons, ih]

theorem insertCue_eq (ref : Seq) (e : CueEntry) (es : List CueEntry) :
    insertCue ref e es = es.orderedInsert (fun d e => cueBefore ref d e = true) e := by
  induction es with
  | nil => rfl
  | cons d es ih => rw [insertCue, List.orderedInsert_cons, ih]

theorem insertExtent_eq (e : Nat × Nat) (es : List (Nat × Nat)) : insertExtent e es = es.orderedInsert (fun d e => d.1 < e.1) e := by
  induction es with
  | nil => rfl
  | cons d es ih => rw [insertExtent, List.orderedInsert_cons, ih]

theorem listedPlans_eq (s : State) : listedPlans s = s.splice.plans.insertionSort (fun p q => keyBefore p.key q.key = true) := by
  unfold listedPlans
  rw [show insertPlan = _ from funext₂ insertPlan_eq]
  rfl

theorem orderedCues_eq (s : State) :
    orderedCues s = s.splice.cues.insertionSort (fun d e => cueBefore s.splice.cueRef d e = true) := by
  unfold orderedCues
  rw [show insertCue s.splice.cueRef = _ from funext₂ (insertCue_eq s.splice.cueRef)]
  rfl

/-- The extents of the clips that are not EMPTY. -/
def clipExtents (s : State) : List (Nat × Nat) := (s.clips.clips.filter (fun c => c.mode ≠ .empty)).map (fun c => (c.base, c.length))

theorem extents_eq (s : State) : extents s = (clipExtents s).insertionSort (fun d e => d.1 < e.1) := by
  unfold extents
  rw [show insertExtent = _ from funext₂ insertExtent_eq]
  rfl

theorem extents_perm (s : State) : (extents s).Perm (clipExtents s) := by rw [extents_eq]; exact List.perm_insertionSort _ _

/-! ## Free runs (R97, R105) -/

/-- Two runs of positions, base and length, share no position. -/
def Apart (d e : Nat × Nat) : Prop := d.1 + d.2 ≤ e.1 ∨ e.1 + e.2 ≤ d.1

theorem Apart.symm {d e : Nat × Nat} (h : Apart d e) : Apart e d := Or.symm h

/-- A run of free positions from the start on lies in one of the runs listed. -/
theorem freeRunsFrom_holds {es : List (Nat × Nat)} (start : Nat) {q : Nat × Nat} (hstart : start ≤ q.1) (hpos : 0 < q.2)
    (hregion : q.1 + q.2 ≤ Config.clipPositions) (hfree : ∀ e ∈ es, Apart q e) :
    ∃ r ∈ freeRunsFrom start es, q.2 ≤ r.2 ∧ r.1 ≤ q.1 := by
  induction es generalizing start with
  | nil =>
    unfold freeRunsFrom
    rw [if_pos (by omega)]
    exact ⟨_, List.mem_singleton_self _, by simp only; omega, hstart⟩
  | cons e es ih =>
    have he := hfree e (by simp)
    have hes : ∀ d ∈ es, Apart q d := fun d hd => hfree d (by simp [hd])
    unfold freeRunsFrom
    split
    case isTrue hlt =>
      rcases he with he | he
      · exact ⟨_, List.mem_cons_self, by simp only; omega, hstart⟩
      · obtain ⟨r, hr, hle⟩ := ih (e.1 + e.2) he hes
        exact ⟨r, List.mem_cons_of_mem _ hr, hle⟩
    case isFalse hlt =>
      rcases he with he | he
      · omega
      · exact ih _ (by omega) hes

/-- The free positions and those of the extents make up the region. -/
theorem freeRunsFrom_total {es : List (Nat × Nat)} (hsorted : es.Pairwise (fun d e => d.1 ≤ e.1)) (hapart : es.Pairwise Apart)
    (hin : ∀ e ∈ es, e.1 + e.2 ≤ Config.clipPositions) (start : Nat) (hbound : start ≤ Config.clipPositions)
    (hstart : ∀ e ∈ es, e.2 = 0 ∨ start ≤ e.1) :
    ((freeRunsFrom start es).map Prod.snd).sum + (es.map Prod.snd).sum + start = Config.clipPositions := by
  induction es generalizing start with
  | nil =>
    unfold freeRunsFrom
    split <;> simp <;> omega
  | cons e es ih =>
    obtain ⟨hfirst, hrest⟩ := List.pairwise_cons.mp hsorted
    obtain ⟨hfrom, hothers⟩ := List.pairwise_cons.mp hapart
    have hein := hin e (by simp)
    have hes : ∀ d ∈ es, d.1 + d.2 ≤ Config.clipPositions := fun d hd => hin d (by simp [hd])
    have hnext (d : Nat × Nat) (hd : d ∈ es) : d.2 = 0 ∨ e.1 + e.2 ≤ d.1 := by
      have hle := hfirst d hd
      rcases hfrom d hd with h | h <;> omega
    unfold freeRunsFrom
    split
    case isTrue hlt =>
      have hsum := ih hrest hothers hes (e.1 + e.2) hein hnext
      simp only [List.map_cons, List.sum_cons]
      omega
    case isFalse hlt =>
      have hmax (d : Nat × Nat) (hd : d ∈ es) : d.2 = 0 ∨ max start (e.1 + e.2) ≤ d.1 := by
        rcases hnext d hd with h | h
        · exact .inl h
        · rcases hstart d (by simp [hd]) with h' | h'
          · exact .inl h'
          · exact .inr (by omega)
      have hsum := ih hrest hothers hes (max start (e.1 + e.2)) (by omega) hmax
      have he := hstart e (by simp)
      simp only [List.map_cons, List.sum_cons]
      omega

theorem foldl_max_mem (xs : List Nat) : xs.foldl Nat.max 0 = 0 ∨ xs.foldl Nat.max 0 ∈ xs := by
  have hgen (m : Nat) : xs.foldl Nat.max m = m ∨ xs.foldl Nat.max m ∈ xs := by
    induction xs generalizing m with
    | nil => exact .inl rfl
    | cons x xs ih =>
      rw [List.foldl_cons]
      rcases ih (Nat.max m x) with h | h
      · rcases Nat.le_total m x with hle | hle
        · exact .inr (by rw [h, show Nat.max m x = x from Nat.max_eq_right hle]; simp)
        · exact .inl (by rw [h, show Nat.max m x = m from Nat.max_eq_left hle])
      · exact .inr (List.mem_cons_of_mem _ h)
  exact hgen 0

theorem le_foldl_max {xs : List Nat} {x : Nat} (h : x ∈ xs) : x ≤ xs.foldl Nat.max 0 := by
  have hfrom (xs : List Nat) (m : Nat) : m ≤ xs.foldl Nat.max m := by
    induction xs generalizing m with
    | nil => exact le_refl _
    | cons x xs ih => exact le_trans (Nat.le_max_left m x) (ih _)
  have hgen (m : Nat) : x ≤ xs.foldl Nat.max m := by
    induction xs generalizing m with
    | nil => simp at h
    | cons y xs ih =>
      rcases List.mem_cons.mp h with rfl | h
      · exact le_trans (Nat.le_max_right m x) (hfrom xs _)
      · exact ih h _
  exact hgen 0

theorem clipExtents_apart {s : State} (h : ExtentsOk s) : (clipExtents s).Pairwise Apart := by
  unfold clipExtents
  rw [List.pairwise_map, List.pairwise_filter, List.pairwise_iff_getElem]
  intro i j hi hj hij hci hcj
  have hri : clipRec s i = s.clips.clips[i] := by simp [clipRec, hi]
  have hrj : clipRec s j = s.clips.clips[j] := by simp [clipRec, hj]
  have hap := h.2 i j (by omega) (by rw [hri]; simpa using hci) (by rw [hrj]; simpa using hcj)
  rw [hri, hrj] at hap
  exact hap

theorem sum_clipExtents (s : State) :
    ((clipExtents s).map Prod.snd).sum = (s.clips.clips.map (fun c => if c.mode = .empty then 0 else c.length)).sum := by
  unfold clipExtents
  induction s.clips.clips with
  | nil => rfl
  | cons c cs ih =>
    by_cases hc : c.mode = .empty
    · simp [hc] at ih ⊢
      exact ih
    · simp [hc] at ih ⊢
      exact ih

/-- The free positions that CLIP STATUS counts. -/
def freeTotal (s : State) : Nat := ((freeRuns s).map Prod.snd).sum

/-- The longest free run that CLIP STATUS counts. -/
def longestFree (s : State) : Nat := ((freeRuns s).map Prod.snd).foldl Nat.max 0

theorem freeCounts_eq (s : State) : freeCounts s = be 4 (freeTotal s) ++ be 4 (longestFree s) := by
  have hsum (xs : List Nat) : xs.foldl Nat.add 0 = xs.sum := List.sum_eq_foldl.symm
  simp only [freeCounts, hsum]
  rfl

theorem freeTotal_spec {s : State} (h : ExtentsOk s) :
    freeTotal s + (s.clips.clips.map (fun c => if c.mode = .empty then 0 else c.length)).sum = Config.clipPositions := by
  have hperm := extents_perm s
  have hin (e : Nat × Nat) (he : e ∈ extents s) : e.1 + e.2 ≤ Config.clipPositions := by
    obtain ⟨n, hm, rfl⟩ := mem_extents.mp he
    exact h.1 n hm
  have hapart : (extents s).Pairwise Apart := (hperm.symm.pairwise_iff Apart.symm).mp (clipExtents_apart h)
  have htotal := freeRunsFrom_total (extents_sorted s) hapart hin 0 (by decide) (fun _ _ => .inr (Nat.zero_le _))
  rw [(hperm.map Prod.snd).sum_eq, sum_clipExtents] at htotal
  exact htotal

/-- Positions that no clip holds. -/
def FreeAt (s : State) (p length : Nat) : Prop := p + length ≤ 1165704 ∧ ∀ m, (clipRec s m).mode ≠ .empty →
  p + length ≤ (clipRec s m).base ∨ (clipRec s m).base + (clipRec s m).length ≤ p

theorem freeAt_iff {s : State} {p length : Nat} :
    FreeAt s p length ↔ p + length ≤ Config.clipPositions ∧ ∀ e ∈ extents s, Apart (p, length) e := by
  refine and_congr_right fun _ => ⟨fun h e he => ?_, fun h m hm => h _ (mem_extents.mpr ⟨m, hm, rfl⟩)⟩
  obtain ⟨n, hm, rfl⟩ := mem_extents.mp he
  exact h n hm

theorem longestFree_free {s : State} (h : ExtentsOk s) : ∃ p, FreeAt s p (longestFree s) := by
  rcases foldl_max_mem ((freeRuns s).map Prod.snd) with h0 | hmem
  · exact ⟨0, by rw [longestFree, h0]; exact ⟨by decide, fun _ _ => .inl (Nat.zero_le _)⟩⟩
  · obtain ⟨r, hr, hlen⟩ := List.mem_map.mp hmem
    have hin (e : Nat × Nat) (he : e ∈ extents s) : e.1 + e.2 ≤ Config.clipPositions := by
      obtain ⟨n, hm, rfl⟩ := mem_extents.mp he
      exact h.1 n hm
    obtain ⟨-, hregion, hapart⟩ := freeRunsFrom_apart (extents_sorted s) hin hr
    refine ⟨r.1, freeAt_iff.mpr ?_⟩
    rw [longestFree, ← hlen]
    exact ⟨hregion, fun e he => (hapart e he).symm⟩

theorem longestFree_most (s : State) (p : Nat) : ¬ FreeAt s p (longestFree s + 1) := by
  intro hfree
  obtain ⟨hregion, hapart⟩ := freeAt_iff.mp hfree
  obtain ⟨r, hr, hle, -⟩ := freeRunsFrom_holds (q := (p, longestFree s + 1)) 0 (Nat.zero_le _) (Nat.succ_pos _) hregion hapart
  have hmax : r.2 ≤ longestFree s := le_foldl_max (List.mem_map_of_mem hr)
  simp only at hle
  omega

/-! ## PLAN LIST and CUE LIST -/

/-- The listing order of plans: exact keys before any-avail keys, each ascending (R108). -/
def PlanBefore (p q : Plan) : Prop :=
  match p.key, q.key with
  | .exact a, .exact b => a ≤ b
  | .exact _, .any _ => True
  | .any _, .exact _ => False
  | .any a, .any b => a ≤ b

theorem listedPlans_perm (s : State) : (listedPlans s).Perm s.splice.plans := by rw [listedPlans_eq]; exact List.perm_insertionSort _ _

theorem listedPlans_ordered (s : State) : (listedPlans s).Pairwise PlanBefore := by
  rw [listedPlans_eq]
  refine insertionSort_pairwise (fun p q h => ?_) (fun p q h => ?_) (fun p q r hpq hqr => ?_) _
  · unfold PlanBefore
    unfold keyBefore at h
    split at h <;> simp_all <;> omega
  · unfold PlanBefore
    unfold keyBefore at h
    split at h <;> simp_all
  · unfold PlanBefore at *
    split at hpq <;> split at hqr <;> simp_all <;> omega

/-- The place of a cue entry in its table (R110). -/
def cuePlace (s : State) (e : CueEntry) : Int := Seq.distance s.splice.cueRef e.start

theorem orderedCues_ordered (s : State) : (orderedCues s).Pairwise (fun d e =>
    cuePlace s d < cuePlace s e ∨ (cuePlace s d = cuePlace s e ∧ d.order.toNat ≤ e.order.toNat)) := by
  rw [orderedCues_eq]
  refine insertionSort_pairwise (fun d e h => ?_) (fun d e h => ?_) (fun d e f hde hef => ?_) _
  · simp only [cueBefore, Bool.or_eq_true, decide_eq_true_eq, Bool.and_eq_true, beq_iff_eq] at h
    exact h.imp id fun ⟨hd, ho⟩ => ⟨hd, le_of_lt ho⟩
  · simp only [cueBefore, Bool.or_eq_true, decide_eq_true_eq, Bool.and_eq_true, beq_iff_eq, not_or, not_and] at h
    unfold cuePlace
    omega
  · omega

/-! ## The bodies -/

theorem queuePlace_eq (s : State) (n : Nat) :
    queuePlace s n = (match s.clips.queue.idxOf? n with | some i => i + 1 | none => 0 : Nat) := by
  have hidx : s.clips.queue.findIdx? (fun q => q = n) = s.clips.queue.idxOf? n := by
    unfold List.idxOf?
    congr 1
  cases h : s.clips.queue.idxOf? n with
  | none => simp only [queuePlace, hidx, h]
  | some i => simp only [queuePlace, hidx, h]

/-- The status flags in one byte. -/
theorem flagBits_four (a b c d : Bool) : flagBits [a, b, c, d] =
    (if a then 1 else 0) + (if b then 2 else 0) + (if c then 4 else 0) + (if d then 8 else 0) := by
  cases a <;> cases b <;> cases c <;> cases d <;> rfl

/-- The live conditions of the items that have one (section 8.1). -/
def liveTable (s : State) : List (Nat × Bool) :=
  let failed (p : PortId) : Bool := decide ((s.feed.ports.get p).mode ∈ [.failed, .dark, .searching])
  let off (n : Four) : Bool := (s.drive.modules.get n).latchedOff
  let opened (n : Four) : Bool := decide ((s.drive.modules.get n).opened = s.live.drive.moduleFilter)
  [(1, decide (s.clock.mode = .holdover)), (2, decide (s.clock.mode = .expired)),
   (4, decide (s.clock.inputs.in1.mode = .disqualified)), (5, decide (s.clock.inputs.in2.mode = .disqualified)),
   (6, decide (s.clock.inputs.in3.mode = .disqualified)), (8, decide (s.feed.ports.a.mode = .impaired)),
   (9, decide (s.feed.ports.b.mode = .impaired)), (10, failed .a), (11, failed .b), (13, s.em.mute.feed),
   (21, decide (s.drive.mode = .retryWait)), (22, s.drive.reflLatch), (23, s.drive.warn), (24, s.drive.shutLatch),
   (25, decide (s.drive.supply = .low)), (26, decide (s.drive.supply = .high)), (27, off .n1), (28, off .n2), (29, off .n3),
   (30, off .n4), (31, opened .n1), (32, opened .n2), (33, opened .n3), (34, opened .n4), (35, decide (s.drive.lowRun = 500))]

theorem portFailed_eq (s : State) (p : PortId) :
    portFailed s p = decide ((s.feed.ports.get p).mode ∈ [.failed, .dark, .searching]) := by
  unfold portFailed
  cases (s.feed.ports.get p).mode <;> rfl

/-- The live condition of each item is the one that section 8.1 gives it. -/
theorem liveCondition_eq (s : State) {i : Nat} (h1 : 1 ≤ i) (h36 : i ≤ 36) :
    liveCondition s i = ((liveTable s).lookup i).getD false := by
  interval_cases i
  pick_goal 10
  · exact portFailed_eq s .a
  pick_goal 10
  · exact portFailed_eq s .b
  all_goals rfl

theorem items_flatMap (f : Nat → List Byte) : items.flatMap f = (List.range 36).flatMap (fun i => f (i + 1)) := List.flatMap_map ..

/-- The body of ALARM READ (R159). -/
theorem alarmBody_eq (s : State) : items.flatMap (alarmBytes s) = (List.range 36).flatMap (fun i =>
    be 1 ((if (alarmRec s (i + 1)).latched then 1 else 0) + (if ((liveTable s).lookup (i + 1)).getD false then 2 else 0) +
      (if reportEnabled s (i + 1) then 4 else 0) + (if (i + 1) ∈
        [1, 2, 4, 5, 6, 8, 9, 10, 11, 13, 21, 22, 23, 24, 25, 26, 27, 28, 29, 30, 31, 32, 33, 34, 35] then 8 else 0) : Nat) ++
      be 4 (alarmRec s (i + 1)).setEpoch.toNat ++ be 2 (alarmRec s (i + 1)).count) := by
  rw [items_flatMap]
  refine List.flatMap_congr fun i hi => ?_
  have hlt := List.mem_range.mp hi
  simp only [alarmBytes, flagBits_four, liveCondition_eq s (show 1 ≤ i + 1 by omega) (show i + 1 ≤ 36 by omega), hasLive,
    List.contains_eq_mem, decide_eq_true_eq]

theorem exec_reports (tag : Byte) (s : State) :
    exec (.status tag) s = request 0x02 tag [] reqStatus s ∧ exec (.clockStatus tag) s = request 0x10 tag [] reqClockStatus s ∧
    exec (.referenceStatus tag) s = request 0x11 tag [] reqReferenceStatus s ∧
    exec (.storeStatus tag) s = request 0x1B tag [] reqStoreStatus s ∧
    exec (.serviceList tag) s = request 0x2A tag [] reqServiceList s ∧ exec (.alarmRead tag) s = request 0x50 tag [] reqAlarmRead s :=
  ⟨rfl, rfl, rfl, rfl, rfl, rfl⟩

theorem exec_clipStatus (tag n : Byte) (s : State) : exec (.clipStatus tag n) s = request 0x35 tag [n] (reqClipStatus n) s := rfl
theorem exec_planList (tag n : Byte) (s : State) : exec (.planList tag n) s = request 0x3A tag [n] (reqPlanList n) s := rfl
theorem exec_channelStatus (tag n : Byte) (s : State) : exec (.channelStatus tag n) s = request 0x42 tag [n] (reqChannelStatus n) s := rfl

/-- A report whose body is a function of the state, which the report of the event so far does not move. -/
theorem request_body {s : State} {op : State → Answer} {body : State → List Byte} (kind tag : Byte) (bytes : List Byte) (hs : Ready s)
    (hop : ∀ u, op u = ok u (body u)) {shown : List Byte} (hbody : body (s.setEv {}) = shown) :
    ∃ t, request kind tag bytes op s = .next t ∧ Replied t kind tag .ok shown ∧ AfterRequest [] s t :=
  request_report kind tag bytes hs ((hop _).trans (by rw [hbody]))

theorem be_zero : be 1 0 = [0] := rfl
theorem be_unit : be 1 1 = [1] := rfl
theorem be_two_units : be 1 2 = [2] := rfl
theorem be_three : be 1 3 = [3] := rfl

theorem be_bool (b : Bool) : be 1 (if b then 2 else 1) = [if b then 2 else 1] := by cases b <;> rfl

/-- The body of STATUS with no request waiting (R175). -/
theorem statusBody_eq {s : State} (h : s.link.queue = []) : statusBody s =
    be 5 (s.clock.time / 10000000) ++ be 4 (s.clock.time % 10000000) ++
      ([if s.link.cause = .restart then 1 else 0, if s.link.source = .factory then 1 else 0] : List Byte) ++
      be 4 s.link.held.count.toNat ++ [0] ++
      be 1 s.alarms.notices.length ++ be 4 s.link.rate ++ be 4 s.alarms.epoch.toNat := by
  have hcause : be 1 (causeCode s.link.cause) = [if s.link.cause = .restart then 1 else 0] := by cases s.link.cause <;> rfl
  have hsource : be 1 (sourceCode s.link.source) = [if s.link.source = .factory then 1 else 0] := by cases s.link.source <;> rfl
  simp only [statusBody, hcause, hsource, h, List.length_nil, Nat.cast_zero, be_zero, List.append_assoc, List.cons_append, List.nil_append]
  rfl

/-- The fields of a held copy in STORE STATUS (R66). -/
theorem heldBytes_eq (h : Held) : heldBytes h =
    be 1 h.source.num ++ ([match h.quality with | .clean => 1 | .flawed => 2] : List Byte) ++ be 1 h.cues.length ++
      be 1 h.directives.length ++ be 4 (h.emission - h.arrival) := by
  unfold heldBytes
  congr 4
  cases h.quality <;> rfl

/-- An entry of PLAN LIST (R108). -/
theorem planBytes_eq (p : Plan) : planBytes p =
    (match p.key with | .exact a => [0] ++ be 2 a | .any _ => [1, 0, 0] : List Byte) ++ be 2 p.service ++ be 1 p.clip ++
      [if p.harvest then 1 else 0] ++ [if p.early then 1 else 0] ++ be 1 p.map.length ++ p.map.flatMap (fun m => be 2 m.1 ++ be 2 m.2) := by
  unfold planBytes
  rw [flagByte_eq, flagByte_eq]
  congr 6

/-- The body of CHANNEL STATUS for a bound channel (R132). -/
theorem channelBytes_eq (c : Channel) : channelBytes (some c) =
    ([if c.active then 2 else 1] : List Byte) ++ be 2 c.avail ++ be 2 c.service ++ be 1 c.clip ++ be 2 c.perFrame ++ be 4 c.length ++
      ([if c.harvest then 1 else 0] : List Byte) ++ ([if c.early then 1 else 0] : List Byte) ++ be 2 c.start.toNat ++
      be 2 c.ending.toNat ++ be 4 c.read ++ be 4 c.due ++ ([if c.exhausted then 1 else 0] : List Byte) ++
      ([match c.pending with | .none => 0 | .early => 1 | .aborted => 2] : List Byte) ++
      be 1 c.map.length ++ c.map.flatMap (fun m => be 2 m.1 ++ be 2 m.2) := by
  have hpending : be 1 (pendingCode c.pending) = [match c.pending with | .none => 0 | .early => 1 | .aborted => 2] := by
    cases c.pending <;> rfl
  unfold channelBytes
  dsimp only
  rw [flagByte_eq, flagByte_eq, flagByte_eq, be_bool, hpending]

/-- Settles O25: each report is its body on an unchanged state, and each body is the one of its rule. -/
theorem plainReportsChangeNothing : Obligations.PlainReportsChangeNothing := by
  intro s tag hs answers flag instant input heldFields slot clip isFree pair plan before channel hasLive' failed off opened live item
  obtain ⟨hstatus, hclock, hreference, hstore, hservices, halarms⟩ := exec_reports tag s
  refine ⟨?_, ?_, ?_, ?_, ?_, ?_, ?_, ?_, fun n => ?_, ?_, fun n hn => ⟨?_, ?_⟩, fun n hn => ?_⟩
  · exact request_body (op := reqIdentify) (body := fun _ => identifyBody) 0x01 tag [] hs (fun _ => rfl) rfl
  · refine (hstatus ▸ request_body 0x02 tag [] hs (fun _ => rfl) ?_ : answers (.status tag) 0x02 _)
    exact statusBody_eq (linkFree_iff.mp hs.2).2.1
  · refine (hclock ▸ request_body 0x10 tag [] hs (fun _ => rfl) ?_ : answers (.clockStatus tag) 0x10 _)
    simp only [clockStatusBody, flagByte_eq]
    rfl
  · refine (hreference ▸ request_body 0x11 tag [] hs (fun _ => rfl) ?_ : answers (.referenceStatus tag) 0x11 _)
    have hinput (n : InputId) : inputBytes (s.setEv {}) n = input n := by
      simp only [inputBytes, flagByte_eq]
      rfl
    simp only [InputId.all, List.flatMap_cons, List.flatMap_nil, hinput, List.append_nil, List.append_assoc]
  · refine (hstore ▸ request_body 0x1B tag [] hs (fun _ => rfl) ?_ : answers (.storeStatus tag) 0x1B _)
    have hslot : slotBytes = slot := by
      funext x
      rcases x with _ | h | ⟨seq, _ | h⟩
      · rfl
      · exact congrArg (_ ++ ·) (heldBytes_eq h)
      · rfl
      · exact congrArg (_ ++ ·) (heldBytes_eq h)
    have hcounter : (match s.em.anchor with | some a => (a.counter : Int) | none => 0) =
        ((match s.em.anchor with | some a => a.counter | none => 0 : Nat) : Int) := by
      cases s.em.anchor <;> rfl
    have hbody : storeStatusBody s = flagByte s.store.base.isSome ++ be 2 (s.store.base.getD 0).toNat ++
      be 4 (match s.em.anchor with | some a => a.counter | none => 0 : Nat) ++ be 1 s.store.jumpRun ++ be 1 s.store.mismatchRun ++
      s.store.slots.flatMap slotBytes := by
      rw [← hcounter]
      rfl
    rw [hslot, flagByte_eq] at hbody
    exact hbody
  · refine (hservices ▸ request_body 0x2A tag [] hs (fun _ => rfl) ?_ : answers (.serviceList tag) 0x2A _)
    have hservice : serviceBytes = fun v =>
        be 2 v.number ++ flag v.eligible ++ be 1 v.streams.length ++ v.streams.flatMap (fun x : Nat => be 2 x) :=
      funext fun v => by rw [serviceBytes, flagByte_eq]
    rw [← hservice]
    rfl
  · refine ⟨freeTotal s, longestFree s, fun n hn => ?_, fun hclips => ⟨freeTotal_spec hclips.2.1, longestFree_free hclips.2.1,
      longestFree_most s⟩⟩
    have hbody : clipBytes s n.toNat ++ freeCounts s = clip n.toNat ++ be 4 (freeTotal s) ++ be 4 (longestFree s) := by
      have hclip : clipBytes s n.toNat = clip n.toNat := by
        simp only [clipBytes, queuePlace_eq]
        rfl
      rw [freeCounts_eq, ← List.append_assoc, hclip]
    refine request_report 0x35 tag [n] hs ?_
    rw [← hbody]
    exact if_neg (by omega)
  · refine ⟨listedPlans s, listedPlans_perm s, listedPlans_ordered s, fun i hi => ?_⟩
    have hplan : planBytes = plan := funext planBytes_eq
    refine request_report 0x3A tag [i] hs ?_
    rw [← hplan]
    exact if_neg (by omega)
  · have hchannel : channelBytes (s.splice.channels.get n) =
        match s.splice.channels.get n with | some c => channel c | none => List.replicate 29 0 := by
      cases s.splice.channels.get n with
      | none => rfl
      | some c => exact channelBytes_eq c
    have hanswers : answers (.channelStatus tag (BitVec.ofNat 8 n.num)) 0x42 (channelBytes (s.splice.channels.get n)) := by
      refine request_report 0x42 tag [BitVec.ofNat 8 n.num] hs ?_
      simp only [reqChannelStatus, Four.toNat_ofNat_num, Four.ofNum_num]
      rfl
    rw [hchannel] at hanswers
    exact hanswers
  · refine (halarms ▸ request_body 0x50 tag [] hs (fun _ => rfl) ?_ : answers (.alarmRead tag) 0x50 _)
    have hbody : items.flatMap (alarmBytes s) = (List.range 36).flatMap (fun i => item (i + 1)) := alarmBody_eq s
    rw [← hbody]
    rfl
  · exact request_turnedDown 0x35 tag [n] hs (if_pos hn)
  · exact request_turnedDown 0x3A tag [n] hs (if_pos hn)
  · exact request_turnedDown 0x42 tag [n] hs (by simp only [reqChannelStatus, Four.ofNum_eq_none hn])

/-! ## O26 -/

/-- A report with a clear parameter: with 0 its body, with 1 the body and the counts cleared, above 1 refused. -/
theorem request_reportAndClear {s u : State} {op : Byte → State → Answer} {body : List Byte} (kind tag : Byte)
    (bytes : Byte → List Byte) (hs : Ready s) {cleared : State → State}
    (hop : ∀ x, op x (s.setEv {}) = reportAndClear x body cleared (s.setEv {})) (hcleared : cleared (s.setEv {}) = u.setEv {}) :
    (∃ t, request kind tag (bytes 0) (op 0) s = .next t ∧ Replied t kind tag .ok body ∧ AfterRequest [] s t) ∧
    (∃ t, request kind tag (bytes 1) (op 1) s = .next t ∧ Replied t kind tag .ok body ∧ AfterRequest [] u t) ∧
    (∀ x : Byte, 1 < x.toNat → ∃ t, request kind tag (bytes x) (op x) s = .next t ∧ Replied t kind tag .badParameter [] ∧
      AfterRequest [] s t) := by
  refine ⟨request_report kind tag _ hs (hop 0), ?_, fun x hx => request_turnedDown kind tag _ hs ((hop x).trans (if_pos hx))⟩
  have hone : op 1 (s.setEv {}) = ⟨u.setEv {}, .ok, body⟩ := by
    rw [hop 1, ← hcleared]
    rfl
  simpa using afterRequest_intro kind tag (bytes 1) hs hone rfl (.inr rfl)

@[simp] theorem portOfByte_num (p : PortId) : portOfByte (BitVec.ofNat 8 p.num) = some p := by cases p <;> rfl

theorem portOfByte_eq_none {b : Byte} (h : b.toNat = 0 ∨ 2 < b.toNat) : portOfByte b = none := by
  have h1 : b ≠ 1 := by rintro rfl; exact absurd h (by decide)
  have h2 : b ≠ 2 := by rintro rfl; exact absurd h (by decide)
  rw [portOfByte, if_neg h1, if_neg h2]

theorem exec_clearingReports (tag clear : Byte) (s : State) :
    exec (.feedCounts tag clear) s = request 0x1A tag [clear] (reqFeedCounts clear) s ∧
    exec (.emissionStatus tag clear) s = request 0x26 tag [clear] (reqEmissionStatus clear) s ∧
    exec (.cueList tag clear) s = request 0x41 tag [clear] (reqCueList clear) s ∧
    exec (.rfStatus tag clear) s = request 0x4C tag [clear] (reqRfStatus clear) s := ⟨rfl, rfl, rfl, rfl⟩

theorem exec_feedStatus (tag port clear : Byte) (s : State) :
    exec (.feedStatus tag port clear) s = request 0x18 tag [port, clear] (reqFeedStatus port clear) s := rfl

/-- The mute-reason set in one byte. -/
theorem muteByte_eq (m : MuteSet) : be 1 (muteBits m) = [muteByte m] := by
  obtain ⟨f, t, n, h⟩ := m
  cases f <;> cases t <;> cases n <;> cases h <;> rfl

/-- The conditions of R139 and permission in one byte: permission is their conjunction. -/
theorem permissionBits_eq (s : State) :
    flagBits (permitted s :: driveConditions s) =
      let holds : List Bool := [decide (s.em.mode = .running ∧ s.em.mute = {}), s.drive.rfEnabled, decide (s.drive.supply = .inside),
        !s.drive.reflLatch && !s.drive.shutLatch, decide (s.drive.mode ≠ .retryWait)]
      let bit (value : Nat) (b : Bool) : Nat := if b then value else 0
      bit 1 (holds.all id) + (List.zipWith bit [2, 4, 8, 16, 32] holds).sum := by
  have hmute : permission s = decide (s.em.mode = .running ∧ s.em.mute = {}) := by
    have hempty : s.em.mute.isEmpty = decide (s.em.mute = {}) := by
      obtain ⟨f, t, n, h⟩ := s.em.mute
      cases f <;> cases t <;> cases n <;> cases h <;> rfl
    simp only [permission, hempty, Bool.decide_and]
    rfl
  have hsupply : (s.drive.supply == .inside) = decide (s.drive.supply = .inside) := rfl
  have hwait : (s.drive.mode != .retryWait) = decide (s.drive.mode ≠ .retryWait) := by cases s.drive.mode <;> rfl
  have hlatch : (!(s.drive.reflLatch || s.drive.shutLatch)) = (!s.drive.reflLatch && !s.drive.shutLatch) := Bool.not_or _ _
  simp only [permitted, driveConditions, hmute, hsupply, hwait, hlatch]
  generalize decide (s.em.mode = .running ∧ s.em.mute = {}) = a
  generalize s.drive.rfEnabled = b
  generalize decide (s.drive.supply = .inside) = c
  generalize (!s.drive.reflLatch && !s.drive.shutLatch) = d
  generalize decide (s.drive.mode ≠ .retryWait) = e
  cases a <;> cases b <;> cases c <;> cases d <;> cases e <;> rfl

theorem installedCount_eq (s : State) :
    installedCount s = (([.n1, .n2, .n3, .n4] : List Four).filter (fun n => n.num ≤ s.live.drive.installed)).length := rfl

theorem healthyCount_eq (s : State) : healthyCount s =
    ((([.n1, .n2, .n3, .n4] : List Four).filter (fun n => n.num ≤ s.live.drive.installed)).filter
      (fun n => !(s.drive.modules.get n).latchedOff)).length := by
  rw [List.filter_filter]
  refine congrArg List.length (List.filter_congr fun n _ => ?_)
  rw [moduleHealthy, moduleInstalled, Bool.and_comm]

/-- The anchor's part of EMISSION STATUS. -/
theorem anchorBytes_eq (a : Option Anchor) : anchorBytes a =
    match a with
    | some a => ([1] : List Byte) ++ be 2 a.seq.toNat ++ be 8 a.instant ++ be 4 a.counter
    | none => List.replicate 15 0 := by
  cases a <;> rfl

/-- An entry of CUE LIST (R131). -/
theorem cueEntryBytes_eq (e : CueEntry) : cueEntryBytes e =
    be 2 e.avail ++ be 2 e.service ++ be 2 e.start.toNat ++ be 2 e.duration ++ be 2 e.ending.toNat ++
      be 1 (if e.source = .host then 1 else 0) ++ be 2 e.carrying.toNat ++
      be 1 (match e.mode with | .waiting => 0 | .unfilled => 1 | .armed => 2 | .active => 3 : Nat) ++
      be 1 (match e.channel with | some n => n.num | none => 0 : Nat) ++ be 4 e.order.toNat := by
  have hmode : cueCode e.mode = (match e.mode with | .waiting => 0 | .unfilled => 1 | .armed => 2 | .active => 3 : Nat) := by
    cases e.mode <;> rfl
  have hchannel : channelNum e.channel = (match e.channel with | some n => n.num | none => 0 : Nat) := by cases e.channel <;> rfl
  unfold cueEntryBytes
  rw [hmode, hchannel]
  cases e.source <;> rfl

/-- The body of FEED STATUS (R43). -/
theorem feedStatusBody_eq (p : PortId) (s : State) :
    let x := s.feed.ports.get p
    let c := x.counts
    feedStatusBody p s = be 1 (portCode x.mode) ++ be 1 (portNum s.feed.hold) ++ be 2 x.average ++ be 1 x.degrade ++ be 1 x.recover ++
      ([if x.assembling then 1 else 0] : List Byte) ++
      (match x.opened with | some f => be 2 f.timing.seq.toNat ++ be 2 f.count | none => List.replicate 4 0xFF) ++
      (match x.deadline with | some e => be 8 (max 0 (e - s.clock.time)) | none => List.replicate 8 0xFF) ++
      [c.clean, c.flawed, c.short, c.badTiming, c.format, c.silence, c.offered, c.heldBack, c.frameAlignment,
        c.syncErrors, c.alignmentLosses, c.darkness, c.transportErrors, c.continuityErrors].flatMap (fun x : Nat => be 2 x) := by
  intro x c
  have huntil : untilBytes s.clock.time x.deadline =
      match x.deadline with | some e => be 8 (max 0 (e - s.clock.time)) | none => List.replicate 8 0xFF := by
    cases x.deadline <;> rfl
  unfold feedStatusBody
  dsimp only
  rw [flagByte_eq, show (portRec s p).deadline = x.deadline from rfl, huntil]
  simp only [portCountBytes, List.flatMap_cons, List.flatMap_nil, List.append_nil, List.append_assoc]
  rfl

/-- The body of RF STATUS (R153). -/
theorem rfStatusBody_eq (s : State) :
    let d := s.drive
    let c := d.counts
    let holds : List Bool :=
      [decide (s.em.mode = .running ∧ s.em.mute = {}), d.rfEnabled, decide (d.supply = .inside), !d.reflLatch && !d.shutLatch,
        decide (d.mode ≠ .retryWait)]
    let bit (value : Nat) (b : Bool) : Nat := if b then value else 0
    let installed : List Four := [.n1, .n2, .n3, .n4].filter (fun n => n.num ≤ s.live.drive.installed)
    let healthy : List Four := installed.filter (fun n => !(d.modules.get n).latchedOff)
    let flag (b : Bool) : List Byte := [if b then 1 else 0]
    let counts (each : Nat) (list : List Nat) : List Byte := list.flatMap (fun x : Nat => be each x)
    rfStatusBody s = be 1 (driveCode d.mode) ++
      be 1 (bit 1 (holds.all id) + (List.zipWith bit [2, 4, 8, 16, 32] holds).sum : Nat) ++ counts 2 [d.level, d.ceiling] ++
      counts 2 [d.power, (d.power * 4095 + 500) / 1000, d.directive, (d.directive * 4095 + 500) / 1000] ++
      counts 2 [d.compTheta, d.effTheta, d.compRho, d.effRho] ++ be 1 healthy.length ++ be 1 installed.length ++
      be 1 (supplyCode d.supply) ++ flag d.reflLatch ++ flag d.shutLatch ++ flag d.warn ++ be 1 d.retries ++
      (match d.retryEnd with | some e => be 8 (max 0 (e - s.clock.time)) | none => List.replicate 8 0xFF) ++
      (match d.steadySince with | some e => be 8 (s.clock.time - e) | none => List.replicate 8 0xFF) ++ be 1 d.reflRun ++
      be 2 d.lowRun ++ counts 2 [d.forward, d.reflected, d.temperature, d.supplySample] ++
      counts 2 [c.reflectedTrips, c.retriesEnded, c.shutdowns, c.modulesOff, c.clearRequests] := by
  intro d c holds bit installed healthy flag counts
  have huntil : untilBytes s.clock.time s.drive.retryEnd =
      match d.retryEnd with | some e => be 8 (max 0 (e - s.clock.time)) | none => List.replicate 8 0xFF := by
    rw [show d.retryEnd = s.drive.retryEnd from rfl]
    cases s.drive.retryEnd <;> rfl
  have hsteady : steadyBytes s = match d.steadySince with | some e => be 8 (s.clock.time - e) | none => List.replicate 8 0xFF := by
    rw [steadyBytes, show d.steadySince = s.drive.steadySince from rfl]
    cases s.drive.steadySince <;> rfl
  have hbits : flagBits (permitted s :: driveConditions s) = bit 1 (holds.all id) + (List.zipWith bit [2, 4, 8, 16, 32] holds).sum :=
    permissionBits_eq s
  have hhealthy : healthyCount s = healthy.length := healthyCount_eq s
  have hinstalled : installedCount s = installed.length := installedCount_eq s
  unfold rfStatusBody
  dsimp only
  rw [hbits, hsteady, huntil, hhealthy, hinstalled, flagByte_eq, flagByte_eq, flagByte_eq]
  simp only [driveCountBytes, counts, List.flatMap_cons, List.flatMap_nil, List.append_nil, List.append_assoc]
  rfl

/-- Settles O26: each report with a clear parameter is its body, with the counts cleared or not. -/
theorem clearingReports : Obligations.ClearingReports := by
  intro s tag hs reports
  refine ⟨fun port clear hport => ?_, ?_⟩
  · exact request_turnedDown 0x18 tag [port, clear] hs (by simp only [reqFeedStatus, portOfByte_eq_none hport])
  intro flag counts until_
  refine ⟨fun p => ?_, ?_, ?_, ?_, ?_⟩
  · have hbody := feedStatusBody_eq p s
    refine request_reportAndClear 0x18 tag (fun x => [BitVec.ofNat 8 p.num, x]) hs
      (cleared := countPort p (fun _ => {})) (fun x => ?_) rfl
    simp only [reqFeedStatus, portOfByte_num]
    exact congrArg (reportAndClear x · (countPort p fun _ => {}) (s.setEv {})) hbody
  · intro admission
    refine request_reportAndClear 0x1A tag (fun x => [x]) hs
      (cleared := fun s => s.setStore { s.store with counts := ⟨{}, {}⟩ }) (fun x => ?_) rfl
    have hadmission : admissionBytes = admission := by
      funext c
      simp only [admissionBytes, admission, counts, List.flatMap_cons, List.flatMap_nil, List.append_nil, List.append_assoc]
    rw [← hadmission]
    rfl
  · intro c
    refine request_reportAndClear 0x26 tag (fun x => [x]) hs (cleared := countEmission fun _ => {}) (fun x => ?_) rfl
    refine congrArg (reportAndClear x · (countEmission fun _ => {}) (s.setEv {})) ?_
    simp only [emissionStatusBody, flagByte_eq, muteByte_eq, anchorBytes_eq, emissionCountBytes, counts, List.flatMap_cons,
      List.flatMap_nil, List.append_nil, List.append_assoc]
    rfl
  · intro c place entry
    refine ⟨orderedCues s, orderedCues_perm s, orderedCues_ordered s, ?_⟩
    refine request_reportAndClear 0x41 tag (fun x => [x]) hs (cleared := countCue fun _ => {}) (fun x => ?_) rfl
    refine congrArg (reportAndClear x · (countCue fun _ => {}) (s.setEv {})) ?_
    have hentry : cueEntryBytes = entry := funext cueEntryBytes_eq
    simp only [cueListBody, cueCountBytes, counts, hentry, List.flatMap_cons, List.flatMap_nil, List.append_nil, List.append_assoc]
    rfl
  · intro d c holds bit installed healthy
    refine request_reportAndClear 0x4C tag (fun x => [x]) hs
      (cleared := fun s => s.setDrive { s.drive with counts := {} }) (fun x => ?_) rfl
    refine congrArg (reportAndClear x · (fun s => s.setDrive { s.drive with counts := {} }) (s.setEv {})) ?_
    exact rfStatusBody_eq s

end Sys2Proof.Machine
end

section
/-! PROOF of O56, O57 and O59: what permission and the ceiling leave in the drive record, and the drive's requests and due ends. -/

namespace Sys2Proof.Machine
open Sys2Proof

/-! ## What permission and the ceiling leave -/

/-- Only the drive state and what goes with it (level, line, steady-since time, reflected run) may differ in the drive record. -/
def OnlyLevel (s t : State) : Prop := t.drive = { s.drive with
  mode := t.drive.mode, level := t.drive.level, line := t.drive.line, steadySince := t.drive.steadySince, reflRun := t.drive.reflRun }

theorem OnlyLevel.refl (s : State) : OnlyLevel s s := rfl

theorem OnlyLevel.trans {s t u : State} (h : OnlyLevel s t) (k : OnlyLevel t u) : OnlyLevel s u :=
  Eq.trans k (by rw [show t.drive = _ from h])

section
variable {s t : State}

theorem OnlyLevel.modules (h : OnlyLevel s t) : t.drive.modules = s.drive.modules := by rw [show t.drive = _ from h]
theorem OnlyLevel.counts (h : OnlyLevel s t) : t.drive.counts = s.drive.counts := by rw [show t.drive = _ from h]
theorem OnlyLevel.ceiling (h : OnlyLevel s t) : t.drive.ceiling = s.drive.ceiling := by rw [show t.drive = _ from h]
theorem OnlyLevel.retries (h : OnlyLevel s t) : t.drive.retries = s.drive.retries := by rw [show t.drive = _ from h]
theorem OnlyLevel.retryEnd (h : OnlyLevel s t) : t.drive.retryEnd = s.drive.retryEnd := by rw [show t.drive = _ from h]
theorem OnlyLevel.reflLatch (h : OnlyLevel s t) : t.drive.reflLatch = s.drive.reflLatch := by rw [show t.drive = _ from h]
theorem OnlyLevel.shutLatch (h : OnlyLevel s t) : t.drive.shutLatch = s.drive.shutLatch := by rw [show t.drive = _ from h]

end

theorem steadyAtCeiling_level (o : Nat) (s : State) : OnlyLevel s (steadyAtCeiling o s) := by
  unfold steadyAtCeiling
  split <;> rfl

theorem enterRamping_level (o : Nat) (s : State) : OnlyLevel s (enterRamping o s) := by
  unfold enterRamping
  refine OnlyLevel.trans ?_ (steadyAtCeiling_level _ _)
  split <;> rfl

theorem enterSilent_level (m : DriveMode) (o : Nat) (s : State) : OnlyLevel s (enterSilent m o s) := rfl

theorem judgePermission_level (s : State) : OnlyLevel s (judgePermission s) := by
  unfold judgePermission
  split
  · split
    · exact enterRamping_level _ _
    · exact .refl s
  · split
    · exact .refl s
    · exact enterSilent_level _ _ _
  · split
    · exact .refl s
    · exact enterSilent_level _ _ _
  · exact .refl s

theorem followCeiling_level (old : Nat) (s : State) : OnlyLevel s (followCeiling old s) := by
  unfold followCeiling
  split
  · refine OnlyLevel.trans ?_ (steadyAtCeiling_level _ _)
    split <;> rfl
  · split
    · exact enterRamping_level _ _
    · exact .refl s
  · exact .refl s

/-- The ceiling computed afresh, and what may go with it. -/
theorem recomputeCeiling_level (s : State) : OnlyLevel (s.setDrive { s.drive with ceiling := ceilingOf s }) (recomputeCeiling s) := by
  have hlower : OnlyLevel (s.setDrive { s.drive with ceiling := ceilingOf s }) (lowerToCeiling s) := by
    unfold lowerToCeiling
    split <;> rfl
  exact hlower.trans (followCeiling_level _ _)

/-- The ceiling is a function of the powers, the effective limits and the modules. -/
theorem ceilingOf_congr {s t : State} (hp : t.drive.power = s.drive.power) (hd : t.drive.directive = s.drive.directive)
    (ht : t.drive.effTheta = s.drive.effTheta) (hr : t.drive.effRho = s.drive.effRho) (hm : t.drive.modules = s.drive.modules)
    (hl : t.live = s.live) : ceilingOf t = ceilingOf s := by
  have hinstalled : moduleInstalled t = moduleInstalled s := funext fun n => by rw [moduleInstalled, moduleInstalled, hl]
  have hhealthy : moduleHealthy t = moduleHealthy s := funext fun n => by rw [moduleHealthy, moduleHealthy, hinstalled, hm]
  rw [ceilingOf, ceilingOf, healthyCount, healthyCount, installedCount, installedCount, hhealthy, hinstalled, hp, hd, ht, hr]

theorem OnlyLevel.ceilingOf {s t : State} (h : OnlyLevel s t) (hl : t.live = s.live) : ceilingOf t = ceilingOf s :=
  ceilingOf_congr (by rw [show t.drive = _ from h]) (by rw [show t.drive = _ from h]) (by rw [show t.drive = _ from h])
    (by rw [show t.drive = _ from h]) (by rw [show t.drive = _ from h]) hl

/-- The ceiling that a command leaves, where it was computed afresh last. -/
theorem recomputeCeiling_fresh (s : State) : (recomputeCeiling s).drive.ceiling = ceilingOf (recomputeCeiling s) := by
  rw [(recomputeCeiling_level s).ceiling, (recomputeCeiling_level s).ceilingOf (by rw [show recomputeCeiling s = _ from recomputeCeiling_only s]; rfl)]
  exact (ceilingOf_congr (s := s) rfl rfl rfl rfl rfl rfl).symm

/-- The level and the line where permission is judged (R139). -/
theorem judgePermission_levelOk {u : State} (h : LevelOk u) : LevelOk (judgePermission u) := (keeps_judgePermission u).level h

theorem Left.levelOk {u t : State} (h : Left u t) (hu : LevelOk u) : LevelOk t := by
  have hj := judgePermission_levelOk hu
  unfold LevelOk at hj ⊢
  rwa [h.drive]

theorem Left.level {u t : State} (h : Left u t) : OnlyLevel u t := by
  unfold OnlyLevel
  rw [h.drive]
  exact judgePermission_level u

/-! ## The DRIVE notice (R152) -/

/-- The DRIVE notice of a command whose first occasion is `o`, read off the state that it leaves. -/
theorem driveNotice_eq {v t : State} {o : Nat} (ho : v.ev.drive.min? = some o) (hd : t.drive = v.drive) (hl : t.live = v.live) :
    driveNotice v = [driveBody t (BitVec.ofNat 8 o)] := by
  have hbit (n : Four) (k : Nat) :
      (if n.num ≤ v.live.drive.installed ∧ (v.drive.modules.get n).latchedOff = false then k else 0) = if moduleHealthy v n then k else 0 := by
    simp only [moduleHealthy, moduleInstalled, Bool.and_eq_true, decide_eq_true_eq, Bool.not_eq_true']
  unfold driveNotice driveBody healthyBits
  simp only [ho, hd, hl, be_one, hbit]
  rw [show Four.all.map (moduleHealthy v) = [moduleHealthy v .n1, moduleHealthy v .n2, moduleHealthy v .n3, moduleHealthy v .n4] from rfl,
    flagBits_four]

theorem driveNotice_none {v : State} (h : v.ev.drive = []) : driveNotice v = [] := by
  unfold driveNotice
  rw [h]
  rfl

/-- Permission that is refused while the drive gives a level ends it, which is an occasion of a DRIVE notice. -/
theorem judgePermission_refused {s : State} (h : permitted s = false) :
    judgePermission s = if s.drive.mode = .ramping ∨ s.drive.mode = .steady then enterSilent .standby 1 s else s := by
  unfold judgePermission
  simp only [h, Bool.false_eq_true, if_false]
  split <;> rename_i hm <;> simp_all

/-- Permission that stands leaves a drive that gives a level. -/
theorem judgePermission_stands {s : State} (h : permitted s = true) (hm : s.drive.mode = .ramping ∨ s.drive.mode = .steady) :
    judgePermission s = s := by
  unfold judgePermission
  rcases hm with hm | hm <;> simp only [hm, h, if_true]

/-- An entry to RAMPING, whole (R140, R141). -/
theorem enterRamping_spec (o : Nat) (s : State) :
    (enterRamping o s).drive.level = (if s.live.drive.rampCode = 0 then s.drive.ceiling else s.drive.level) ∧
    (enterRamping o s).drive.mode =
      (if s.live.drive.rampCode = 0 ∨ s.drive.level = s.drive.ceiling then .steady else .ramping) ∧
    ((enterRamping o s).ev.drive = s.ev.drive ++ [o] ∨ (enterRamping o s).ev.drive = s.ev.drive ++ [o, o]) := by
  unfold enterRamping steadyAtCeiling
  by_cases hcode : s.live.drive.rampCode = 0
  · simp [hcode, setLevel, noteDrive, enterSteady]
  · by_cases hlevel : s.drive.level = s.drive.ceiling
    · simp [hcode, hlevel, noteDrive, enterSteady]
    · simp [hcode, hlevel, noteDrive]

/-! ## O56 -/

theorem exec_rfEnable (tag : Byte) (s : State) : exec (.rfEnable tag) s = request 0x48 tag [] reqRfEnable s := rfl
theorem exec_rfDisable (tag : Byte) (s : State) : exec (.rfDisable tag) s = request 0x49 tag [] reqRfDisable s := rfl
theorem exec_setPower (tag : Byte) (p : BitVec 16) (s : State) :
    exec (.setPower tag p) s = request 0x4A tag (word16Bytes p) (reqSetPower p) s := rfl

/-- What an operation on the drive alone leaves when its command ends. -/
theorem Left.whole {s u t : State} (h : Left u t) (hu : OnlyDrive s u) :
    t = { s with drive := t.drive, alarms := t.alarms, link := t.link, ev := {} } := by
  have ht : t = _ := h
  rw [show u = _ from hu] at ht
  rw [ht]

/-- Settles O56. -/
theorem rfSettings : Obligations.RfSettings := by
  intro s tag hs
  refine ⟨?_, ?_, ?_⟩
  · obtain ⟨t, hstep, hreply, hafter⟩ := afterRequest_intro (u := s.setDrive { s.drive with rfEnabled := true }) (op := reqRfEnable)
      (is := []) (e := {}) 0x48 tag [] hs rfl rfl (.inr rfl)
    exact ⟨t, hstep, by simpa using hreply, hafter⟩
  · generalize hu : s.setDrive { s.drive with rfEnabled := false } = u
    have hop : reqRfDisable (s.setEv {}) = ⟨u.setEv {}, .ok, []⟩ := by rw [← hu]; rfl
    obtain ⟨t, hstep, hreply, hafter⟩ := afterRequest_intro 0x49 tag [] hs hop rfl (.inr rfl)
    have hleft : Left (u.setEv {}) t := by
      have hdrive : (judgePermission (u.setEv {})).drive = (judgePermission u).drive := judgePermission_drive_ev u {}
      have ht : t = _ := hafter.1
      unfold Left
      rw [hdrive]
      exact ht
    have hno : permitted (u.setEv {}) = false := by
      rw [← hu]
      simp [permitted, driveConditions]
    have hnotices := noticed_request (kind := 6) (by decide) 0x49 tag [] hs hop (by rw [← hu]; rfl) (by rw [← hu]; rfl)
      (by rw [← hu]; rfl) hstep
    rw [bodiesOf_drive] at hnotices
    refine ⟨t, hstep, by simpa using hreply, by rw [← hu] at hafter; exact hafter, ?_, fun hlevel => ?_⟩
    · have hmode : (u.setEv {}).drive.mode = s.drive.mode := by rw [← hu]; rfl
      have hbodies : driveNotice (judgePermission (u.setEv {})) =
          if s.drive.mode = .ramping ∨ s.drive.mode = .steady then [driveBody t 1] else [] := by
        rw [judgePermission_refused hno, hmode]
        split
        case isTrue hm =>
          refine driveNotice_eq (o := 1) rfl ?_ hleft.live
          rw [hleft.drive, judgePermission_refused hno, hmode, if_pos hm]
        case isFalse => exact driveNotice_none rfl
      rw [hbodies] at hnotices
      exact hnotices
    · have hok : LevelOk (u.setEv {}) := by
        rw [← hu]
        exact hlevel.of_same rfl rfl rfl rfl
      have hdrive := judgePermission_driveOk hok
      have hsame : permitted (judgePermission (u.setEv {})) = false := by
        rw [judgePermission_refused hno]
        split
        · rw [← hno]
          rename_i hm
          refine permitted_of_drive rfl rfl rfl rfl rfl ?_
          rcases hm with hm | hm <;> rw [hm] <;> rfl
        · exact hno
      have hzero := hdrive.2 hsame
      rw [hleft.drive]
      exact ⟨hzero, hdrive.1.1.trans hzero⟩
  · intro p held
    generalize hu : (s.setEv {}).setDrive { s.drive with power := held } = u
    have hop : reqSetPower p (s.setEv {}) =
        ⟨recomputeCeiling u, if p.toNat ≤ 1000 then .ok else .adjusted, be 2 held ++ be 2 (levelOf held)⟩ := by rw [← hu]; rfl
    obtain ⟨t, hstep, hreply, hleft⟩ := request_left 0x4A tag (word16Bytes p) hs hop
    dsimp only at hleft hreply
    have honly : OnlyLevel (recomputeCeiling u) t := hleft.level
    have hlive : t.live = (recomputeCeiling u).live := hleft.live
    have hceiling : t.drive.ceiling = ceilingOf t := by
      rw [honly.ceiling, recomputeCeiling_fresh, honly.ceilingOf hlive]
    refine ⟨t, hstep, ?_, ?_, fun hlevel => ?_, ?_⟩
    · by_cases hp : p.toNat ≤ 1000
      · rw [if_pos hp] at hreply ⊢
        simpa using hreply
      · rw [if_neg hp] at hreply ⊢
        simpa using hreply
    · have hc : ceilingOf t = ceilingOf u := by rw [← hceiling, honly.ceiling, (recomputeCeiling_level u).ceiling]; rfl
      refine Eq.trans (show t.drive = _ from (recomputeCeiling_level u).trans honly) ?_
      rw [hc, ← hu]
      rfl
    · refine hleft.levelOk (recomputeCeiling_levelOk ?_)
      rw [← hu]
      exact hlevel.fits
    · exact hleft.whole (OnlyDrive.trans (by rw [← hu]; rfl) (recomputeCeiling_only u))

/-! ## O59 -/

theorem exec_rampTick (s : State) : exec .rampTick s = event rampTickEffect s := rfl
theorem exec_retryEnd (s : State) : exec .retryEnd s = event retryEndEffect s := rfl
theorem exec_steadyPeriodExpiry (s : State) : exec .steadyPeriodExpiry s = event steadyEffect s := rfl

theorem permitted_iff {s : State} : permitted s = true ↔ permission s = true ∧ s.drive.rfEnabled = true ∧ s.drive.supply = .inside ∧
    s.drive.reflLatch = false ∧ s.drive.shutLatch = false ∧ s.drive.mode ≠ .retryWait := by
  simp only [permitted, driveConditions, List.all_cons, List.all_nil, id, Bool.and_true, Bool.and_eq_true, beq_iff_eq, Bool.not_eq_true',
    Bool.or_eq_false_iff, bne_iff_ne]
  tauto

theorem othersHold_iff {s : State} : othersHold s = true ↔ permission s = true ∧ s.drive.rfEnabled = true ∧ s.drive.supply = .inside ∧
    s.drive.reflLatch = false ∧ s.drive.shutLatch = false := by
  simp only [othersHold, driveConditions, List.take_succ_cons, List.take_zero, List.all_cons, List.all_nil, id, Bool.and_true,
    Bool.and_eq_true, beq_iff_eq, Bool.not_eq_true', Bool.or_eq_false_iff]

/-- The level after a tick (R141). -/
theorem rampedLevel_eq (s : State) : rampedLevel s =
    let code := s.live.drive.rampCode
    let step := if code = 1 then 4 else if code = 2 then 2 else 1
    let finish := if s.live.drive.smooth then min step (max 1 ((s.drive.ceiling - s.drive.level + 31) / 32)) else step
    if code = 0 then s.drive.ceiling else min s.drive.ceiling (s.drive.level + finish) := by
  have hstep (c : Nat) : rampStep c = if c = 1 then 4 else if c = 2 then 2 else 1 := by
    unfold rampStep
    split <;> simp_all
  simp only [rampedLevel, smoothStep, hstep]

/-- The drive record after a tick in RAMPING (R140, R141). -/
def tickedDrive (s : State) : DriveState :=
  { s.drive with
    rampTicks := s.drive.rampTicks + 1, level := rampedLevel s, line := rampedLevel s,
    mode := if rampedLevel s = s.drive.ceiling then .steady else .ramping,
    steadySince := if rampedLevel s = s.drive.ceiling then some s.clock.time else s.drive.steadySince }

/-- A tick that is due in RAMPING. -/
theorem rampTickEffect_ramping {s : State} (hdue : (s.drive.rampTicks + 1) * tickPeriod ≤ s.clock.cycles) (hm : s.drive.mode = .ramping) :
    rampTickEffect s = (s.setDrive (tickedDrive s)).setEv
      { s.ev with drive := s.ev.drive ++ if rampedLevel s = s.drive.ceiling then [2] else [] } := by
  have hlevel : rampedLevel (s.setDrive { s.drive with rampTicks := s.drive.rampTicks + 1 }) = rampedLevel s := rfl
  rw [rampTickEffect, if_pos hdue]
  dsimp only
  refine (if_pos hm).trans ?_
  rw [hlevel]
  unfold steadyAtCeiling tickedDrive
  by_cases hc : rampedLevel s = s.drive.ceiling
  · rw [if_pos hc, if_pos hc, if_pos hc]
    exact if_pos ⟨hm, hc⟩
  · rw [if_neg hc, if_neg hc, if_neg hc, List.append_nil, ← hm]
    exact if_neg fun h => hc h.2

/-- The end of the retry wait (R145). -/
theorem retryEndEffect_due {s : State} {e : Int} (hm : s.drive.mode = .retryWait) (he : s.drive.retryEnd = some e) (hdue : e ≤ s.clock.time) :
    retryEndEffect s =
      let u := s.setDrive { s.drive with
        retryEnd := none
        counts := { s.drive.counts with retriesEnded := sat 65535 (s.drive.counts.retriesEnded + 1) } }
      if othersHold u then enterRamping 6 u else enterSilent .standby 6 u := by
  simp only [retryEndEffect, hm, he, hdue, if_true]

theorem steadyEffect_due {s : State} {e : Int} (hm : s.drive.mode = .steady) (he : s.drive.steadySince = some e)
    (hdue : e + 600000000 ≤ s.clock.time) : steadyEffect s = s.setDrive { s.drive with retries := 0, steadySince := none } := by
  simp only [steadyEffect, hm, he, steadyPeriod, hdue, if_true]

/-- The end of the retry wait, whole: what it leaves once permission is judged, and the occasion of its notice. -/
theorem retryEnd_leaves {s u : State} (hl : u.drive.level = 0) (hev : u.ev.drive = [])
    (hu : retryEndEffect s = if othersHold u then enterRamping 6 u else enterSilent .standby 6 u) :
    judgePermission (retryEndEffect s) = retryEndEffect s ∧ (retryEndEffect s).ev.drive.min? = some 6 ∧
    OnlyLevel u (retryEndEffect s) ∧
    (othersHold u = true → (retryEndEffect s).drive.level = (if u.live.drive.rampCode = 0 then u.drive.ceiling else 0) ∧
      (retryEndEffect s).drive.mode = (if u.live.drive.rampCode = 0 ∨ u.drive.ceiling = 0 then .steady else .ramping)) ∧
    (othersHold u = false → (retryEndEffect s).drive.level = 0 ∧ (retryEndEffect s).drive.mode = .standby) := by
  rw [hu]
  by_cases hready : othersHold u = true
  · obtain ⟨hlevel, hmode, hnotes⟩ := enterRamping_spec 6 u
    have honly := enterRamping_level 6 u
    rw [if_pos hready]
    rw [hl] at hlevel hmode
    have hgives : (enterRamping 6 u).drive.mode = .ramping ∨ (enterRamping 6 u).drive.mode = .steady := by
      rw [hmode]
      split
      · exact .inr rfl
      · exact .inl rfl
    have hpermitted : permitted (enterRamping 6 u) = true := by
      obtain ⟨hperm, hrf, hsup, hrefl, hshut⟩ := othersHold_iff.mp hready
      have hem : permission (enterRamping 6 u) = permission u := by rw [show enterRamping 6 u = _ from enterRamping_frame 6 u]; rfl
      refine permitted_iff.mpr ⟨hem.trans hperm, ?_, ?_, honly.reflLatch.trans hrefl, honly.shutLatch.trans hshut, ?_⟩
      · rw [show (enterRamping 6 u).drive = _ from honly]
        exact hrf
      · rw [show (enterRamping 6 u).drive = _ from honly]
        exact hsup
      · rcases hgives with h | h <;> rw [h] <;> decide
    refine ⟨judgePermission_stands hpermitted hgives, ?_, honly, fun _ => ⟨hlevel, ?_⟩, fun h => by rw [hready] at h; cases h⟩
    · rcases hnotes with h | h <;> rw [h, hev] <;> rfl
    · rw [hmode]
      simp only [eq_comm]
  · have hno : othersHold u = false := Bool.eq_false_iff.mpr hready
    rw [if_neg hready]
    have hrefused : permitted (enterSilent .standby 6 u) = false := by
      rw [Bool.eq_false_iff]
      intro h
      obtain ⟨hperm, hrf, hsup, hrefl, hshut, -⟩ := permitted_iff.mp h
      exact hready (othersHold_iff.mpr ⟨hperm, hrf, hsup, hrefl, hshut⟩)
    refine ⟨?_, ?_, enterSilent_level _ _ _, fun h => absurd h hready, fun _ => ⟨rfl, rfl⟩⟩
    · rw [judgePermission_refused hrefused]
      exact if_neg (by simp [enterSilent, noteDrive, setLevel])
    · rw [show (enterSilent .standby 6 u).ev.drive = u.ev.drive ++ [6] from rfl, hev]
      rfl

/-- Settles O59. -/
theorem rampRetryAndSteady : Obligations.RampRetryAndSteady := by
  intro s hp d
  refine ⟨fun hdue => ⟨fun hm => ?_, ?_⟩, fun e hm he hdue hlevel => ?_, fun e hm he hdue => ?_⟩
  · refine afterEvent_intro (f := rampTickEffect) (is := []) (e := {}) hp ?_ rfl (.inr rfl)
    rw [rampTickEffect, if_pos (show ((s.setEv {}).drive.rampTicks + 1) * tickPeriod ≤ (s.setEv {}).clock.cycles from hdue)]
    exact if_neg hm
  · intro hm code step finish level
    have hl : rampedLevel s = level := rampedLevel_eq _
    have heffect : rampTickEffect (s.setEv {}) =
        (s.setDrive (tickedDrive s)).setEv { drive := if level = d.ceiling then [2] else [] } := by
      rw [← hl]
      exact rampTickEffect_ramping (s := s.setEv {}) hdue hm
    obtain ⟨t, hstep, hafter⟩ := afterEvent_intro (f := rampTickEffect) (is := []) hp heffect rfl (.inr rfl)
    have hshown : tickedDrive s = { d with
        rampTicks := d.rampTicks + 1, level := level, line := level, mode := if level = d.ceiling then .steady else .ramping,
        steadySince := if level = d.ceiling then some s.clock.time else d.steadySince } := by
      rw [← hl]
      rfl
    refine ⟨t, hstep, by rw [hshown] at hafter; exact hafter, fun hperm hrf hsup hrefl hshut => ?_⟩
    have hgives : (tickedDrive s).mode = .ramping ∨ (tickedDrive s).mode = .steady := by
      unfold tickedDrive
      dsimp only
      split
      · exact .inr rfl
      · exact .inl rfl
    generalize hv : (s.setDrive (tickedDrive s)).setEv { drive := if level = d.ceiling then [2] else [] } = v at heffect
    have hpermitted : permitted v = true := by
      refine permitted_iff.mpr ?_
      rw [← hv]
      exact ⟨hperm, hrf, hsup, hrefl, hshut, by rcases hgives with h | h <;> exact h ▸ by decide⟩
    have hstands : judgePermission v = v := judgePermission_stands hpermitted (by rw [← hv]; exact hgives)
    have hnotices := noticed_event (kind := 6) (by decide) hp heffect (by rw [← hv]; rfl) (by rw [← hv]; rfl) (by rw [← hv]; rfl) hstep
    rw [bodiesOf_drive, hstands] at hnotices
    have hbodies : driveNotice v = if level = d.ceiling then [driveBody t 2] else [] := by
      obtain ⟨t', hstep', hleft⟩ := event_left hp heffect
      obtain rfl := Host.Outcome.next.inj (hstep.symm.trans hstep')
      by_cases hc : level = d.ceiling
      · rw [if_pos hc] at hv ⊢
        exact driveNotice_eq (o := 2) (by rw [← hv]; rfl) (by rw [hleft.drive, hstands]) hleft.live
      · rw [if_neg hc] at hv ⊢
        exact driveNotice_none (by rw [← hv]; rfl)
    rw [hbodies] at hnotices
    exact hnotices
  · intro ready
    generalize hu : (s.setEv {}).setDrive { d with
      retryEnd := none, counts := { d.counts with retriesEnded := sat 65535 (d.counts.retriesEnded + 1) } } = u
    have heffect : retryEndEffect (s.setEv {}) = if othersHold u then enterRamping 6 u else enterSilent .standby 6 u := by
      rw [← hu]
      exact retryEndEffect_due (s := s.setEv {}) hm he hdue
    have hzero : d.level = 0 := hlevel.2.2.1 (.inr (.inl hm))
    obtain ⟨hstands, hfirst, honly, hyes, hno⟩ := retryEnd_leaves (u := u) (by rw [← hu]; exact hzero)
      (by rw [← hu]; rfl) heffect
    have hready : othersHold u = true ↔ ready := by rw [othersHold_iff, ← hu]; rfl
    obtain ⟨t, hstep, hleft⟩ := event_left (f := retryEndEffect) hp rfl
    have hdrive : t.drive = (retryEndEffect (s.setEv {})).drive := by rw [hleft.drive, hstands]
    have hframe := retryEndEffect_only (s.setEv {})
    have hnotices := noticed_event (kind := 6) (by decide) hp (f := retryEndEffect) rfl
      (by rw [show retryEndEffect (s.setEv {}) = _ from hframe]; rfl) (by rw [show retryEndEffect (s.setEv {}) = _ from hframe]; rfl)
      (by rw [show retryEndEffect (s.setEv {}) = _ from hframe]; rfl) hstep
    rw [bodiesOf_drive, hstands, driveNotice_eq hfirst hdrive hleft.live] at hnotices
    refine ⟨t, hstep, ?_, ?_, ?_, fun h => ?_, fun h => ?_, hnotices, ?_⟩
    · rw [hdrive, honly.retryEnd, ← hu]
      rfl
    · rw [hdrive, honly.retries, ← hu]
      rfl
    · rw [hdrive, honly.counts, ← hu, Nat.min_comm]
      rfl
    · obtain ⟨hlev, hmode⟩ := hyes (hready.mpr h)
      rw [hdrive, hlev, hmode, ← hu]
      exact ⟨rfl, rfl⟩
    · obtain ⟨hlev, hmode⟩ := hno (Bool.eq_false_iff.mpr fun h' => h (hready.mp h'))
      rw [hdrive]
      exact ⟨hlev, hmode⟩
    · exact hleft.whole (OnlyDrive.trans (by rfl) hframe)
  · exact afterEvent_intro (f := steadyEffect) (is := []) (e := {}) hp (steadyEffect_due hm he hdue) rfl (.inr rfl)

/-! ## O57 -/

theorem exec_clearTrips (tag : Byte) (s : State) : exec (.clearTrips tag) s = request 0x4B tag [] reqClearTrips s := rfl

/-- A module after CLEAR TRIPS (R151). -/
def reEnabled (installed : Nat) (n : Four) (m : Module) : Module :=
  if m.latchedOff then { latchedOff := false, enable := decide (n.num ≤ installed), current := m.current } else m

theorem reEnable_spec (s : State) (n : Four) :
    (reEnable s n).drive = { s.drive with
      modules := s.drive.modules.set n (reEnabled s.live.drive.installed n (s.drive.modules.get n)) } ∧
    (reEnable s n).live = s.live ∧ (∀ o ∈ (reEnable s n).ev.drive, o ∈ s.ev.drive ∨ o = 9) := by
  unfold reEnable reEnabled
  dsimp only
  split
  · refine ⟨rfl, rfl, fun o ho => ?_⟩
    have ho : o ∈ s.ev.drive ++ [9] := ho
    simpa using ho
  · exact ⟨by rw [PerFour.set_get], rfl, fun o ho => .inl ho⟩

/-- Modules re-enabled one after another. -/
theorem reEnableAll_spec (ns : List Four) (s : State) :
    (ns.foldl reEnable s).drive = { s.drive with modules := (ns.foldl reEnable s).drive.modules } ∧
    (∀ n, (ns.foldl reEnable s).drive.modules.get n =
      if n ∈ ns then reEnabled s.live.drive.installed n (s.drive.modules.get n) else s.drive.modules.get n) ∧
    (ns.foldl reEnable s).live = s.live ∧ (∀ o ∈ (ns.foldl reEnable s).ev.drive, o ∈ s.ev.drive ∨ o = 9) := by
  induction ns generalizing s with
  | nil => exact ⟨rfl, fun n => by simp, rfl, fun o ho => .inl ho⟩
  | cons k ns ih =>
    obtain ⟨hdrive, hlive, hnotes⟩ := reEnable_spec s k
    obtain ⟨hdrive', hmodules, hlive', hnotes'⟩ := ih (reEnable s k)
    simp only [List.foldl_cons]
    refine ⟨hdrive'.trans (by rw [hdrive]), fun n => ?_, hlive'.trans hlive, fun o ho => ?_⟩
    · rw [hmodules n, hlive, hdrive]
      by_cases hn : n = k
      · subst hn
        have htwice (m : Module) : reEnabled s.live.drive.installed n (reEnabled s.live.drive.installed n m) =
            reEnabled s.live.drive.installed n m := by
          unfold reEnabled
          by_cases h : m.latchedOff
          · rw [if_pos h, if_neg (by simp)]
          · rw [if_neg h, if_neg h]
        rw [PerFour.get_set_self, htwice, ite_self, if_pos List.mem_cons_self]
      · rw [PerFour.get_set_ne _ hn]
        simp only [List.mem_cons, hn, false_or]
    · rcases hnotes' o ho with h | h
      · exact hnotes o h
      · exact .inr h

/-- A drive that is silent keeps its state while the ceiling is computed afresh, and reports nothing. -/
theorem recomputeCeiling_silent {s : State} (hr : s.drive.mode ≠ .ramping) (hs : s.drive.mode ≠ .steady) :
    (recomputeCeiling s).drive.mode = s.drive.mode ∧ (recomputeCeiling s).ev = s.ev := by
  have hlower : (lowerToCeiling s).drive.mode = s.drive.mode ∧ (lowerToCeiling s).ev = s.ev := by
    unfold lowerToCeiling
    split <;> exact ⟨rfl, rfl⟩
  have hfollow : recomputeCeiling s = lowerToCeiling s := by
    unfold recomputeCeiling followCeiling
    rw [hlower.1]
    split
    case h_1 h => exact absurd h hr
    case h_2 h => exact absurd h hs
    case h_3 => rfl
  rw [hfollow]
  exact hlower

theorem steadyAtCeiling_mode {o : Nat} {s : State} (h : s.drive.mode = .ramping ∨ s.drive.mode = .steady) :
    (steadyAtCeiling o s).drive.mode = .ramping ∨ (steadyAtCeiling o s).drive.mode = .steady := by
  unfold steadyAtCeiling
  split
  · exact .inr rfl
  · exact h

/-- A drive that gives a level does so, too, when the ceiling has been computed afresh. -/
theorem recomputeCeiling_gives {s : State} (h : s.drive.mode = .ramping ∨ s.drive.mode = .steady) :
    (recomputeCeiling s).drive.mode = .ramping ∨ (recomputeCeiling s).drive.mode = .steady := by
  have hlower : (lowerToCeiling s).drive.mode = s.drive.mode := by
    unfold lowerToCeiling
    split <;> rfl
  unfold recomputeCeiling followCeiling
  split
  case h_1 hm =>
    refine steadyAtCeiling_mode ?_
    split <;> exact .inl hm
  case h_2 hm =>
    split
    · rw [(enterRamping_spec _ _).2.1]
      split
      · exact .inr rfl
      · exact .inl rfl
    · exact .inr hm
  case h_3 hm hm' => exact (h.elim (fun h => hm (hlower.trans h)) (fun h => hm' (hlower.trans h))).elim

/-- The state in which CLEAR TRIPS decides: the request counted, the modules re-enabled, and the ceiling computed afresh (R151). -/
def clearedModules (s : State) : State :=
  recomputeCeiling (Four.all.foldl reEnable (s.setDrive { s.drive with
    counts := { s.drive.counts with clearRequests := sat 65535 (s.drive.counts.clearRequests + 1) } }))

/-- What CLEAR TRIPS decides there (R151). -/
def decideTrips (w : State) : Answer :=
  match w.drive.mode with
  | .tripped =>
    if !coolEnough w && w.drive.shutLatch then ⟨w.setDrive { w.drive with reflLatch := false }, .refusedState, []⟩ else ok (releaseTrips w)
  | .retryWait => ok (releaseTrips w)
  | _ => ok w

theorem reqClearTrips_eq (s : State) : reqClearTrips s = decideTrips (clearedModules s) := by
  unfold reqClearTrips clearedModules
  dsimp only
  generalize recomputeCeiling _ = w
  rfl

/-- What the drive record is when CLEAR TRIPS decides. -/
theorem clearedModules_spec (s : State) :
    OnlyLevel (s.setDrive { s.drive with
      counts := { s.drive.counts with clearRequests := min 65535 (s.drive.counts.clearRequests + 1) }
      modules := (clearedModules s).drive.modules, ceiling := (clearedModules s).drive.ceiling }) (clearedModules s) ∧
    (∀ n, (clearedModules s).drive.modules.get n = reEnabled s.live.drive.installed n (s.drive.modules.get n)) ∧
    (clearedModules s).drive.ceiling = ceilingOf (clearedModules s) ∧ OnlyDrive s (clearedModules s) := by
  generalize hu : s.setDrive { s.drive with
    counts := { s.drive.counts with clearRequests := sat 65535 (s.drive.counts.clearRequests + 1) } } = u
  have hv : clearedModules s = recomputeCeiling (Four.all.foldl reEnable u) := by rw [← hu]; rfl
  obtain ⟨hdrive, hmodules, hlive, -⟩ := reEnableAll_spec Four.all u
  have hframe : OnlyDrive s (Four.all.foldl reEnable u) :=
    OnlyDrive.trans (by rw [← hu]; rfl) (fold_frame OnlyDrive.refl OnlyDrive.trans reEnable_only _ _)
  generalize Four.all.foldl reEnable u = v at *
  have honly := recomputeCeiling_level v
  rw [hv]
  refine ⟨?_, fun n => ?_, recomputeCeiling_fresh v, ?_⟩
  · have hcounted : u.drive.counts = { s.drive.counts with clearRequests := min 65535 (s.drive.counts.clearRequests + 1) } := by
      rw [← hu, min_comm]
      rfl
    have hbase : v.drive = { s.drive with modules := v.drive.modules, counts := u.drive.counts } := by
      refine hdrive.trans ?_
      rw [← hu]
      rfl
    refine Eq.trans (show (recomputeCeiling v).drive = _ from honly) ?_
    rw [honly.modules, honly.ceiling, ← hcounted]
    simp only [State.setDrive_drive]
    rw [hbase]
  · rw [honly.modules]
    refine (hmodules n).trans ?_
    rw [if_pos (by cases n <;> decide), ← hu]
    rfl
  · exact hframe.trans (recomputeCeiling_only v)

/-- The drive state in which CLEAR TRIPS decides, and the occasions reported by then. -/
theorem clearedModules_mode (s : State) :
    (s.drive.mode ≠ .ramping → s.drive.mode ≠ .steady →
      (clearedModules s).drive.mode = s.drive.mode ∧ ∀ o ∈ (clearedModules s).ev.drive, o ∈ s.ev.drive ∨ o = 9) ∧
    (s.drive.mode = .ramping ∨ s.drive.mode = .steady →
      (clearedModules s).drive.mode = .ramping ∨ (clearedModules s).drive.mode = .steady) := by
  generalize hu : s.setDrive { s.drive with
    counts := { s.drive.counts with clearRequests := sat 65535 (s.drive.counts.clearRequests + 1) } } = u
  have hv : clearedModules s = recomputeCeiling (Four.all.foldl reEnable u) := by rw [← hu]; rfl
  obtain ⟨hdrive, -, -, hnotes⟩ := reEnableAll_spec Four.all u
  have hmode : (Four.all.foldl reEnable u).drive.mode = s.drive.mode := by rw [hdrive, ← hu]; rfl
  have hev : u.ev = s.ev := by rw [← hu]; rfl
  rw [hv]
  refine ⟨fun hr hs => ?_, fun h => recomputeCeiling_gives (by rw [hmode]; exact h)⟩
  obtain ⟨hm, he⟩ := recomputeCeiling_silent (s := Four.all.foldl reEnable u) (by rw [hmode]; exact hr) (by rw [hmode]; exact hs)
  refine ⟨hm.trans hmode, fun o ho => ?_⟩
  rw [he] at ho
  rw [← hev]
  exact hnotes o ho

/-- CLEAR TRIPS is held back: the reflected latch alone is cleared. -/
theorem decideTrips_held {w : State} (hm : w.drive.mode = .tripped) (hs : w.drive.shutLatch = true) (hc : coolEnough w = false) :
    decideTrips w = ⟨w.setDrive { w.drive with reflLatch := false }, .refusedState, []⟩ := by
  simp only [decideTrips, hm, hs, hc, Bool.not_false, Bool.and_self, if_true]

theorem decideTrips_release {w : State}
    (h : (w.drive.mode = .tripped ∧ ¬ (w.drive.shutLatch = true ∧ coolEnough w = false)) ∨ w.drive.mode = .retryWait) :
    decideTrips w = ok (releaseTrips w) := by
  unfold decideTrips
  rcases h with ⟨hm, hno⟩ | hm
  · simp only [hm]
    rw [if_neg]
    simp only [Bool.and_eq_true, Bool.not_eq_true']
    exact fun h => hno h.symm
  · simp only [hm]

theorem decideTrips_nothing {w : State} (ht : w.drive.mode ≠ .tripped) (hr : w.drive.mode ≠ .retryWait) : decideTrips w = ok w := by
  unfold decideTrips
  split
  case h_1 h => exact absurd h ht
  case h_2 h => exact absurd h hr
  case h_3 => rfl

/-- Only the drive state with its level, the latches, the retry counter and the retry end time may differ in the drive record. -/
def OnlyTrips (s t : State) : Prop := t.drive = { s.drive with
  mode := t.drive.mode, level := t.drive.level, line := t.drive.line, steadySince := t.drive.steadySince, reflRun := t.drive.reflRun,
  reflLatch := t.drive.reflLatch, shutLatch := t.drive.shutLatch, retries := t.drive.retries, retryEnd := t.drive.retryEnd }

theorem OnlyTrips.level {s t u : State} (h : OnlyTrips s t) (k : OnlyLevel t u) : OnlyTrips s u := by
  unfold OnlyTrips
  rw [k.reflLatch, k.shutLatch, k.retries, k.retryEnd]
  exact Eq.trans (show u.drive = _ from k) (by rw [show t.drive = _ from h])

/-- What every outcome of CLEAR TRIPS leaves alike. -/
theorem clearTrips_left {s v t : State} (h : OnlyTrips (clearedModules s) v) (hv : OnlyDrive s v) (hleft : Left v t) :
    (∀ n, t.drive.modules.get n = reEnabled s.live.drive.installed n (s.drive.modules.get n)) ∧
    t.drive.counts = { s.drive.counts with clearRequests := min 65535 (s.drive.counts.clearRequests + 1) } ∧
    t.drive.ceiling = ceilingOf t := by
  obtain ⟨honly, hmodules, hceiling, hframe⟩ := clearedModules_spec s
  have hall : OnlyTrips (clearedModules s) t := h.level hleft.level
  have hlive : t.live = (clearedModules s).live := by
    rw [hleft.live, show v = _ from hv, show clearedModules s = _ from hframe]
  have hsame : ceilingOf t = ceilingOf (clearedModules s) :=
    ceilingOf_congr (by rw [show t.drive = _ from hall]) (by rw [show t.drive = _ from hall]) (by rw [show t.drive = _ from hall])
      (by rw [show t.drive = _ from hall]) (by rw [show t.drive = _ from hall]) hlive
  refine ⟨fun n => ?_, ?_, ?_⟩
  · rw [show t.drive.modules = (clearedModules s).drive.modules by rw [show t.drive = _ from hall]]
    exact hmodules n
  · rw [show t.drive.counts = (clearedModules s).drive.counts by rw [show t.drive = _ from hall], honly.counts]
    rfl
  · rw [hsame, ← hceiling, show t.drive = _ from hall]

theorem releaseTrips_trips (w : State) : OnlyTrips w (releaseTrips w) := rfl

/-- What a release leaves once permission is judged (R151, R139), and the first occasion of its notice. -/
theorem releaseTrips_judged {w : State} (hnotes : ∀ o ∈ w.ev.drive, o = 9) :
    (judgePermission (releaseTrips w)).drive.mode ≠ .tripped ∧ (judgePermission (releaseTrips w)).drive.mode ≠ .retryWait ∧
    (judgePermission (releaseTrips w)).ev.drive.min? =
      some (if (judgePermission (releaseTrips w)).drive.mode = .standby then 7 else 1) := by
  have hmode : (releaseTrips w).drive.mode = .standby := rfl
  have hev : (releaseTrips w).ev.drive = w.ev.drive ++ [7] := rfl
  have hmin (os : List Nat) (k : Nat) (hk : k ∈ os) (hle : ∀ o ∈ os, k ≤ o) : os.min? = some k :=
    List.min?_eq_some_iff.mpr ⟨hk, hle⟩
  by_cases hp : permitted (releaseTrips w) = true
  · have hj : judgePermission (releaseTrips w) = enterRamping 1 (releaseTrips w) := by
      unfold judgePermission
      simp only [hmode, hp, if_true]
    obtain ⟨-, hm, hnote⟩ := enterRamping_spec 1 (releaseTrips w)
    rw [hj]
    have hgives : (enterRamping 1 (releaseTrips w)).drive.mode = .ramping ∨ (enterRamping 1 (releaseTrips w)).drive.mode = .steady := by
      rw [hm]
      split
      · exact .inr rfl
      · exact .inl rfl
    have hfirst : (enterRamping 1 (releaseTrips w)).ev.drive.min? = some 1 := by
      refine hmin _ _ ?_ fun o ho => ?_
      · rcases hnote with h | h <;> rw [h] <;> simp
      · have ho : o ∈ (w.ev.drive ++ [7]) ++ [1] ∨ o ∈ (w.ev.drive ++ [7]) ++ [1, 1] := by
          rcases hnote with h | h
          · exact .inl (by rw [← hev, ← h]; exact ho)
          · exact .inr (by rw [← hev, ← h]; exact ho)
        have : o ∈ w.ev.drive ∨ o = 7 ∨ o = 1 := by
          rcases ho with ho | ho <;> simp at ho <;> tauto
        rcases this with h | h | h
        · have := hnotes o h
          omega
        · omega
        · omega
    rcases hgives with h | h <;> rw [h, hfirst] <;> exact ⟨by decide, by decide, rfl⟩
  · have hno : permitted (releaseTrips w) = false := Bool.eq_false_iff.mpr hp
    have hj : judgePermission (releaseTrips w) = releaseTrips w := by
      rw [judgePermission_refused hno]
      exact if_neg (by rw [hmode]; decide)
    rw [hj, hmode, hev]
    refine ⟨by decide, by decide, hmin _ _ (by simp) fun o ho => ?_⟩
    rcases List.mem_append.mp ho with h | h
    · rw [hnotes o h]
      decide
    · simp at h
      rw [h]
      exact le_refl 7

/-- Settles O57: the three outcomes of CLEAR TRIPS leave the modules, the counts and the ceiling alike. -/
theorem clearTripsReleases : Obligations.ClearTripsReleases := by
  intro s tag hs hot held
  generalize hw : clearedModules (s.setEv {}) = w
  obtain ⟨honly, -, -, hframe⟩ := clearedModules_spec (s.setEv {})
  obtain ⟨hsilent, hgives⟩ := clearedModules_mode (s.setEv {})
  have hop : reqClearTrips (s.setEv {}) = decideTrips w := by rw [reqClearTrips_eq, hw]
  rw [hw] at honly hframe hsilent hgives
  obtain ⟨t, hstep, hreply, hleft⟩ := request_left 0x4B tag [] hs hop
  have hlevel : LevelOk s → LevelOk t := fun h =>
    hleft.levelOk (hop ▸ (keeps_reqClearTrips (s.setEv {})).level h)
  have hcool : coolEnough w = false ↔ hot := by
    have htemp : w.drive.temperature = s.drive.temperature := by rw [show w.drive = _ from honly]; rfl
    have hlive : w.live = s.live := by rw [show w = _ from hframe]; rfl
    rw [coolEnough, htemp, hlive, decide_eq_false_iff_not]
    rfl
  have hshut : w.drive.shutLatch = s.drive.shutLatch := honly.shutLatch
  have hretries : w.drive.retries = s.drive.retries := honly.retries
  by_cases hheld : held
  · obtain ⟨hm, hl, hh⟩ := hheld
    obtain ⟨hmode, -⟩ := hsilent (by rw [show (s.setEv {}).drive.mode = _ from hm]; decide)
      (by rw [show (s.setEv {}).drive.mode = _ from hm]; decide)
    rw [decideTrips_held (hmode.trans hm) (hshut.trans hl) (hcool.mpr hh)] at hreply hleft
    generalize hv : w.setDrive { w.drive with reflLatch := false } = v at hleft
    have hstays : judgePermission v = v := by
      unfold judgePermission
      rw [show v.drive.mode = .tripped by rw [← hv]; exact hmode.trans hm]
    obtain ⟨hmodules, hcounts, hceiling⟩ := clearTrips_left (s := s.setEv {}) (by rw [hw, ← hv]; rfl)
      (hframe.trans (by rw [← hv]; exact setDrive_only _ _)) hleft
    refine ⟨t, hstep, ?_, hmodules, hcounts, hceiling, hlevel, hleft.whole (s := s) (OnlyDrive.trans (by rfl)
      (hframe.trans (by rw [← hv]; exact setDrive_only _ _))), fun _ => ?_, fun h => ?_⟩
    · rw [if_pos ⟨hm, hl, hh⟩]
      simpa using hreply
    · rw [hleft.drive, hstays, ← hv]
      exact ⟨hmode.trans hm, hshut.trans hl, rfl, hretries⟩
    · rcases h with ⟨-, h⟩ | h
      · exact absurd ⟨hm, hl, hh⟩ h
      · rw [hm] at h
        cases h
  · have hok : (if held then Result.refusedState else .ok) = .ok := if_neg hheld
    rw [hok]
    by_cases hrelease : s.drive.mode = .tripped ∨ s.drive.mode = .retryWait
    · obtain ⟨hmode, hnotes⟩ := hsilent
        (fun h => by rcases hrelease with h' | h' <;> cases h'.symm.trans h)
        (fun h => by rcases hrelease with h' | h' <;> cases h'.symm.trans h)
      have hcond : (w.drive.mode = .tripped ∧ ¬ (w.drive.shutLatch = true ∧ coolEnough w = false)) ∨ w.drive.mode = .retryWait := by
        rcases hrelease with h | h
        · exact .inl ⟨hmode.trans h, fun hc => hheld ⟨h, hshut.symm.trans hc.1, hcool.mp hc.2⟩⟩
        · exact .inr (hmode.trans h)
      have hop' : reqClearTrips (s.setEv {}) = ok (releaseTrips w) := hop.trans (decideTrips_release hcond)
      rw [decideTrips_release hcond] at hreply hleft
      have hleft : Left (releaseTrips w) t := hleft
      have hvframe : OnlyDrive (s.setEv {}) (releaseTrips w) := hframe.trans rfl
      obtain ⟨hmodules, hcounts, hceiling⟩ := clearTrips_left (s := s.setEv {}) (by rw [hw]; exact releaseTrips_trips w) hvframe hleft
      obtain ⟨htripped, hwait, hfirst⟩ := releaseTrips_judged (w := w) fun o ho => (hnotes o ho).resolve_left (by simp)
      have honlyLevel := judgePermission_level (releaseTrips w)
      have hnotices := noticed_request (kind := 6) (by decide) 0x4B tag [] hs hop'
        (by rw [show (ok (releaseTrips w)).state = _ from hvframe]; rfl) (by rw [show (ok (releaseTrips w)).state = _ from hvframe]; rfl)
        (by rw [show (ok (releaseTrips w)).state = _ from hvframe]; rfl) hstep
      rw [bodiesOf_drive, show (ok (releaseTrips w)).state = releaseTrips w from rfl, driveNotice_eq hfirst hleft.drive
        (hleft.live.trans (by rw [judgePermission_live]))] at hnotices
      refine ⟨t, hstep, by simpa [ok] using hreply, hmodules, hcounts, hceiling, hlevel, hleft.whole (s := s) (OnlyDrive.trans (by rfl) hvframe),
        fun h => absurd h hheld, fun _ => ?_⟩
      rw [← hleft.drive] at htripped hwait hnotices
      refine ⟨?_, ?_, ?_, ?_, htripped, hwait, ?_⟩
      · rw [hleft.drive, honlyLevel.reflLatch]
        rfl
      · rw [hleft.drive, honlyLevel.shutLatch]
        rfl
      · rw [hleft.drive, honlyLevel.retries]
        rfl
      · rw [hleft.drive, honlyLevel.retryEnd]
        rfl
      · by_cases hsb : t.drive.mode = .standby
        · rw [if_pos hsb] at hnotices ⊢
          exact hnotices
        · rw [if_neg hsb] at hnotices ⊢
          exact hnotices
    · have hneither : w.drive.mode ≠ .tripped ∧ w.drive.mode ≠ .retryWait := by
        by_cases hg : s.drive.mode = .ramping ∨ s.drive.mode = .steady
        · rcases hgives hg with h | h <;> rw [h] <;> decide
        · obtain ⟨hmode, -⟩ := hsilent (fun h => hg (.inl h)) (fun h => hg (.inr h))
          rw [hmode]
          exact ⟨fun h => hrelease (.inl h), fun h => hrelease (.inr h)⟩
      rw [decideTrips_nothing hneither.1 hneither.2] at hreply hleft
      have hleft : Left w t := hleft
      obtain ⟨hmodules, hcounts, hceiling⟩ := clearTrips_left (s := s.setEv {}) (by rw [hw]; rfl) hframe hleft
      refine ⟨t, hstep, by simpa [ok] using hreply, hmodules, hcounts, hceiling, hlevel, hleft.whole (s := s) (OnlyDrive.trans (by rfl) hframe),
        fun h => absurd h hheld, fun h => ?_⟩
      exact absurd (h.imp (fun h => h.1) id) hrelease

end Sys2Proof.Machine
end

section
/-! PROOF of O58: a monitoring sample, part by part. Each part has one lemma that says which fields of the drive record it moves, which
alarm items it reports and which occasions of a DRIVE notice it notes. -/

namespace Sys2Proof.Machine
open Sys2Proof

/-! ## What a part may move -/

/-- The drive state, with what a trip brings: the level, the latches, the retry counter and its end time, the reflected run and counts. -/
def OnlyTripped (s t : State) : Prop := t.drive = { s.drive with
  mode := t.drive.mode, level := t.drive.level, line := t.drive.line, steadySince := t.drive.steadySince, reflRun := t.drive.reflRun,
  reflLatch := t.drive.reflLatch, shutLatch := t.drive.shutLatch, retries := t.drive.retries, retryEnd := t.drive.retryEnd,
  counts := t.drive.counts }

/-- What has been reported stays reported. -/
def Reports (s t : State) : Prop := ∀ i ∈ s.ev.items, i ∈ t.ev.items

theorem Reports.refl (s : State) : Reports s s := fun _ h => h
theorem Reports.trans {s t u : State} (h : Reports s t) (k : Reports t u) : Reports s u := fun i hi => k i (h i hi)
theorem reports_of_eq {s t : State} (h : t.ev.items = s.ev.items) : Reports s t := fun i hi => by rw [h]; exact hi
theorem reports_occur (i : Nat) (s : State) : Reports s (occur i s) := fun _ h => List.mem_append_left _ h
theorem mem_occur (i : Nat) (s : State) : i ∈ (occur i s).ev.items := List.mem_append_right _ (List.mem_singleton_self i)

/-- The items that an event reports are latched when it ends. -/
theorem event_latches {f : State → State} {s u t : State} (hp : Powered s) (hf : f (s.setEv {}) = u) (hl : u.alarms.records.length = 36)
    (h : event f s = .next t) {i : Nat} (h1 : 1 ≤ i) (h36 : i ≤ 36) (hi : i ∈ u.ev.items) : (alarmRec t i).latched = true := by
  rw [event_next f hp, hf] at h
  obtain rfl := Host.Outcome.next.inj h
  rw [alarmRec_congr (show (transmit (closeEvent u)).alarms.records = (closeEvent u).alarms.records by rw [transmit_eq])]
  exact ((closeEvent_took (.inl hl)) i h1 h36).1 hi

/-! ## Supply and temperature (R146, R147) -/

theorem judgeSupply_spec (v : Nat) (s : State) :
    (judgeSupply v s).drive = { s.drive with supply := supplyAfter s.live.drive s.drive.supply v } ∧
    (judgeSupply v s).ev.drive = s.ev.drive ∧ Reports s (judgeSupply v s) ∧
    (supplyAfter s.live.drive s.drive.supply v ≠ s.drive.supply →
      (supplyAfter s.live.drive s.drive.supply v = .low → 25 ∈ (judgeSupply v s).ev.items) ∧
      (supplyAfter s.live.drive s.drive.supply v = .high → 26 ∈ (judgeSupply v s).ev.items)) := by
  unfold judgeSupply
  dsimp only
  generalize supplyAfter s.live.drive s.drive.supply v = m
  by_cases hm : m = s.drive.supply
  · simp only [hm, ne_eq, not_true, decide_false, Bool.false_and, Bool.false_eq_true, if_false, false_implies, and_true]
    exact ⟨rfl, rfl, .refl _⟩
  · cases m with
    | low =>
      simp only [ne_eq, hm, not_false_eq_true, decide_true, Bool.true_and]
      exact ⟨rfl, rfl, reports_occur 25 _, fun _ => ⟨fun _ => mem_occur 25 _, nofun⟩⟩
    | high =>
      simp only [ne_eq, hm, not_false_eq_true, decide_true, Bool.true_and]
      exact ⟨rfl, rfl, reports_occur 26 _, fun _ => ⟨nofun, fun _ => mem_occur 26 _⟩⟩
    | unjudged =>
      simp only [ne_eq, hm, not_false_eq_true, decide_true, Bool.true_and]
      exact ⟨rfl, rfl, .refl _, fun _ => ⟨nofun, nofun⟩⟩
    | inside =>
      simp only [ne_eq, hm, not_false_eq_true, decide_true, Bool.true_and]
      exact ⟨rfl, rfl, .refl _, fun _ => ⟨nofun, nofun⟩⟩

/-- The warning flag after a sample (R146). -/
def warnAfter (p : DriveParams) (warn : Bool) (theta : Int) : Bool :=
  if warn then decide ((p.tempWarn : Int) - p.tempHyst ≤ theta) else decide ((p.tempWarn : Int) ≤ theta)

theorem judgeWarning_spec (theta : Int) (s : State) :
    (judgeWarning theta s).drive = { s.drive with warn := warnAfter s.live.drive s.drive.warn theta } ∧
    (judgeWarning theta s).ev.drive = s.ev.drive ∧ Reports s (judgeWarning theta s) ∧
    (s.drive.warn = false → (s.live.drive.tempWarn : Int) ≤ theta → 23 ∈ (judgeWarning theta s).ev.items) := by
  have hsame (b : Bool) (hw : s.drive.warn = b) : s.drive = { s.drive with warn := b } := by rw [← hw]
  unfold judgeWarning warnAfter
  dsimp only
  cases hw : s.drive.warn with
  | true =>
    by_cases hc : theta < (s.live.drive.tempWarn : Int) - s.live.drive.tempHyst
    · rw [if_neg (by simp), if_pos (by simpa using hc)]
      simp only [if_true, decide_eq_false (show ¬ (s.live.drive.tempWarn : Int) - s.live.drive.tempHyst ≤ theta by omega)]
      exact ⟨rfl, rfl, .refl _, nofun⟩
    · rw [if_neg (by simp), if_neg (by simpa using hc)]
      simp only [if_true, decide_eq_true (show (s.live.drive.tempWarn : Int) - s.live.drive.tempHyst ≤ theta by omega)]
      exact ⟨hsame _ hw, trivial, .refl _, nofun⟩
  | false =>
    by_cases hc : (s.live.drive.tempWarn : Int) ≤ theta
    · rw [if_pos (by simpa using hc)]
      simp only [Bool.false_eq_true, if_false, decide_eq_true hc]
      exact ⟨rfl, rfl, reports_occur 23 _, fun _ _ => mem_occur 23 _⟩
    · rw [if_neg (by simpa using hc), if_neg (by simp)]
      simp only [Bool.false_eq_true, if_false, decide_eq_false hc]
      exact ⟨hsame _ hw, trivial, .refl _, fun _ h => absurd h hc⟩

/-- Below the shutdown figure, or with the shutdown latched, nothing trips (R146). -/
theorem judgeShutdown_stays {theta : Int} {s : State} (h : theta < s.live.drive.tempShut ∨ s.drive.shutLatch = true) :
    judgeShutdown theta s = s := by
  refine if_neg ?_
  simp only [Bool.and_eq_true, Bool.not_eq_true', decide_eq_true_eq]
  rintro ⟨hl, ht⟩
  rcases h with h | h
  · omega
  · rw [hl] at h
    cases h

/-- At the shutdown figure the drive trips (R146). -/
theorem judgeShutdown_trips {theta : Int} {s : State} (ht : (s.live.drive.tempShut : Int) ≤ theta) (hl : s.drive.shutLatch = false) :
    (judgeShutdown theta s).drive.mode = .tripped ∧ (judgeShutdown theta s).drive.shutLatch = true ∧
    (judgeShutdown theta s).drive.retryEnd = none ∧
    (judgeShutdown theta s).drive.counts.shutdowns = min 65535 (s.drive.counts.shutdowns + 1) ∧
    24 ∈ (judgeShutdown theta s).ev.items ∧
    ((s.drive.mode = .tripped → s.drive.level = 0) → (judgeShutdown theta s).drive.level = 0) ∧
    (s.drive.mode ≠ .tripped → (judgeShutdown theta s).ev.drive = s.ev.drive ++ [5]) := by
  have hc : (!s.drive.shutLatch && decide ((s.live.drive.tempShut : Int) ≤ theta)) = true := by rw [hl, decide_eq_true ht]; rfl
  unfold judgeShutdown
  rw [if_pos hc]
  dsimp only
  split
  case isTrue hm =>
    have hm : s.drive.mode = .tripped := hm
    exact ⟨hm, rfl, rfl, min_comm _ _, mem_occur 24 _, fun h => h hm, fun h => absurd hm h⟩
  case isFalse => exact ⟨rfl, rfl, rfl, min_comm _ _, mem_occur 24 _, fun _ => rfl, fun _ => rfl⟩

theorem judgeShutdown_awake {theta : Int} {s : State} (h : s.drive.mode ≠ .standby) : (judgeShutdown theta s).drive.mode ≠ .standby := by
  unfold judgeShutdown
  split
  · dsimp only
    split
    · exact h
    · exact DriveMode.noConfusion
  · exact h

theorem judgeShutdown_tripped (theta : Int) (s : State) : OnlyTripped s (judgeShutdown theta s) ∧ Reports s (judgeShutdown theta s) := by
  unfold judgeShutdown
  split
  · dsimp only
    split
    · exact ⟨rfl, reports_occur 24 _⟩
    · exact ⟨rfl, reports_occur 24 _⟩
  · exact ⟨rfl, .refl _⟩

/-! ## The modules (R148, R149) -/

/-- The overcurrent run of a healthy module after a sample (R148). -/
def overRunAfter (s : State) (n : Four) (current : Nat) : Nat :=
  if s.live.drive.overThreshold < current then min 15 ((s.drive.modules.get n).overRun + 1) else 0

/-- The open run of a healthy module after a sample (R149). -/
def openRunAfter (s : State) (n : Four) (current : Nat) : Nat :=
  if 410 ≤ s.drive.level ∧ current < s.live.drive.openThreshold then min ((s.drive.modules.get n).opened + 1) s.live.drive.moduleFilter else 0

/-- A module after a sample. -/
def moduleAfter (s : State) (n : Four) (current : Nat) : Module :=
  let m := s.drive.modules.get n
  if ¬ moduleHealthy s n then { m with current := current }
  else if s.live.drive.moduleFilter ≤ overRunAfter s n current then
    { latchedOff := true, overRun := 0, opened := 0, current := current, enable := false }
  else { m with overRun := overRunAfter s n current, opened := openRunAfter s n current, current := current }

/-- What the modules' part may move: the modules and their count. -/
def OnlyModules (s t : State) : Prop := t.drive = { s.drive with
  modules := t.drive.modules, counts := { s.drive.counts with modulesOff := t.drive.counts.modulesOff } }

theorem OnlyModules.refl (s : State) : OnlyModules s s := rfl

theorem OnlyModules.trans {s t u : State} (h : OnlyModules s t) (k : OnlyModules t u) : OnlyModules s u :=
  Eq.trans k (by rw [show t.drive = _ from h])

/-- The items that the sample of one module reports. -/
def ModuleReports (s : State) (n : Four) (current : Nat) (t : State) : Prop :=
  moduleHealthy s n = true →
    (s.live.drive.moduleFilter ≤ overRunAfter s n current → 26 + n.num ∈ t.ev.items) ∧
    (overRunAfter s n current < s.live.drive.moduleFilter → openRunAfter s n current = s.live.drive.moduleFilter →
      (s.drive.modules.get n).opened ≠ s.live.drive.moduleFilter → 30 + n.num ∈ t.ev.items)

/-- The parts of one module's sample, together. -/
structure ModuleJudged (s : State) (n : Four) (current : Nat) (t : State) : Prop where
  only : OnlyModules s t
  modules : t.drive.modules = s.drive.modules.set n (moduleAfter s n current)
  notes : ∀ o ∈ t.ev.drive, o ∈ s.ev.drive ∨ o = 8
  noted : ∀ o ∈ s.ev.drive, o ∈ t.ev.drive
  reports : Reports s t
  items : ModuleReports s n current t

theorem moduleHealthy_congr {s t : State} {n : Four} (hl : t.live = s.live)
    (hm : (t.drive.modules.get n).latchedOff = (s.drive.modules.get n).latchedOff) : moduleHealthy t n = moduleHealthy s n := by
  rw [moduleHealthy, moduleHealthy, moduleInstalled, moduleInstalled, hl, hm]

theorem judgeModule_unhealthy {current : PerFour Nat} {s : State} {n : Four} (h : moduleHealthy s n = false) :
    judgeModule current s n = s.setDrive { s.drive with
      modules := s.drive.modules.set n { s.drive.modules.get n with current := current.get n } } := by
  have hu : moduleHealthy (s.setDrive { s.drive with
      modules := s.drive.modules.set n { s.drive.modules.get n with current := current.get n } }) n = false := by
    rw [← h]
    exact moduleHealthy_congr rfl (by simp only [State.setDrive_drive, PerFour.get_set_self])
  unfold judgeModule
  dsimp only
  rw [show judgeOvercurrent (current.get n) n _ = _ from if_neg (by rw [hu]; exact Bool.false_ne_true)]
  exact if_neg (by rw [hu]; exact Bool.false_ne_true)

theorem judgeModule_latches {current : PerFour Nat} {s : State} {n : Four} (h : moduleHealthy s n = true)
    (hrun : s.live.drive.moduleFilter ≤ overRunAfter s n (current.get n)) :
    judgeModule current s n = noteDrive 8 (occur (26 + n.num) (s.setDrive { s.drive with
      modules := s.drive.modules.set n { latchedOff := true, overRun := 0, opened := 0, current := current.get n, enable := false }
      counts := { s.drive.counts with modulesOff := sat 65535 (s.drive.counts.modulesOff + 1) } })) := by
  generalize hv : s.setDrive { s.drive with
      modules := s.drive.modules.set n { s.drive.modules.get n with current := current.get n } } = v
  have hu : moduleHealthy v n = true := by
    rw [← h, ← hv]
    exact moduleHealthy_congr rfl (by simp only [State.setDrive_drive, PerFour.get_set_self])
  have hm : v.drive.modules.get n = { s.drive.modules.get n with current := current.get n } := by rw [← hv]; exact PerFour.get_set_self _ _ _
  have hover : judgeOvercurrent (current.get n) n v = noteDrive 8 (occur (26 + n.num) (s.setDrive { s.drive with
      modules := s.drive.modules.set n { latchedOff := true, overRun := 0, opened := 0, current := current.get n, enable := false }
      counts := { s.drive.counts with modulesOff := sat 65535 (s.drive.counts.modulesOff + 1) } })) := by
    have hcond : v.live.drive.moduleFilter ≤
        if v.live.drive.overThreshold < current.get n then sat 15 ((v.drive.modules.get n).overRun + 1) else 0 := by
      rw [hm, ← hv]
      rw [overRunAfter, min_comm] at hrun
      exact hrun
    simp only [judgeOvercurrent, hu, if_true]
    rw [if_pos hcond, hm, ← hv]
    simp only [State.setDrive_drive, PerFour.set_set]
    rfl
  unfold judgeModule
  rw [hv]
  dsimp only
  rw [hover]
  refine if_neg ?_
  simp [moduleHealthy, noteDrive, occur]

theorem judgeModule_runs {current : PerFour Nat} {s : State} {n : Four} (h : moduleHealthy s n = true)
    (hrun : overRunAfter s n (current.get n) < s.live.drive.moduleFilter) :
    let u := s.setDrive { s.drive with modules := s.drive.modules.set n { s.drive.modules.get n with
      overRun := overRunAfter s n (current.get n), opened := openRunAfter s n (current.get n), current := current.get n } }
    judgeModule current s n =
      if openRunAfter s n (current.get n) = s.live.drive.moduleFilter ∧ (s.drive.modules.get n).opened ≠ s.live.drive.moduleFilter then
        occur (30 + n.num) u
      else u := by
  intro u
  generalize hv : s.setDrive { s.drive with
      modules := s.drive.modules.set n { s.drive.modules.get n with current := current.get n } } = v
  have hu : moduleHealthy v n = true := by
    rw [← h, ← hv]
    exact moduleHealthy_congr rfl (by simp only [State.setDrive_drive, PerFour.get_set_self])
  have hm : v.drive.modules.get n = { s.drive.modules.get n with current := current.get n } := by rw [← hv]; exact PerFour.get_set_self _ _ _
  generalize hw : s.setDrive { s.drive with modules := s.drive.modules.set n { s.drive.modules.get n with
      overRun := overRunAfter s n (current.get n), current := current.get n } } = w
  have hover : judgeOvercurrent (current.get n) n v = w := by
    have hrunv : (if v.live.drive.overThreshold < current.get n then sat 15 ((v.drive.modules.get n).overRun + 1) else 0) =
        overRunAfter s n (current.get n) := by
      rw [hm, ← hv, overRunAfter, min_comm]
      rfl
    simp only [judgeOvercurrent, hu, if_true, hrunv]
    rw [if_neg (by rw [← hv]; exact not_le.mpr hrun), hm, ← hv, ← hw]
    simp only [State.setDrive_drive, PerFour.set_set]
    rfl
  have hhw : moduleHealthy w n = true := by
    rw [← h, ← hw]
    exact moduleHealthy_congr rfl (by simp only [State.setDrive_drive, PerFour.get_set_self])
  have hmw : w.drive.modules.get n =
      { s.drive.modules.get n with overRun := overRunAfter s n (current.get n), current := current.get n } := by
    rw [← hw]; exact PerFour.get_set_self _ _ _
  unfold judgeModule
  rw [hv]
  dsimp only
  rw [hover]
  simp only [judgeOpen, hhw, if_true, hmw]
  rw [← hw]
  simp only [State.setDrive_drive, PerFour.set_set]
  rfl

theorem judgeModule_judged (current : PerFour Nat) (s : State) (n : Four) : ModuleJudged s n (current.get n) (judgeModule current s n) := by
  cases hh : moduleHealthy s n with
  | false =>
    have hafter : moduleAfter s n (current.get n) = { s.drive.modules.get n with current := current.get n } := if_pos (by simp [hh])
    rw [judgeModule_unhealthy hh, ← hafter]
    exact ⟨rfl, rfl, fun o ho => .inl ho, fun o ho => ho, .refl _, fun h => by rw [hh] at h; cases h⟩
  | true =>
    by_cases hrun : s.live.drive.moduleFilter ≤ overRunAfter s n (current.get n)
    · have hafter : moduleAfter s n (current.get n) =
          { latchedOff := true, overRun := 0, opened := 0, current := current.get n, enable := false } :=
        (if_neg (by simp [hh])).trans (if_pos hrun)
      rw [judgeModule_latches hh hrun, ← hafter]
      refine ⟨rfl, rfl, fun o ho => ?_, fun o ho => List.mem_append_left _ ho, ?_, fun _ => ⟨fun _ => ?_, fun h =>
        absurd hrun (not_le.mpr h)⟩⟩
      · have ho : o ∈ s.ev.drive ++ [8] := ho
        simpa using ho
      · exact reports_occur (26 + n.num) s
      · exact mem_occur (26 + n.num) s
    · have hlt := not_le.mp hrun
      have hafter : moduleAfter s n (current.get n) = { s.drive.modules.get n with
          overRun := overRunAfter s n (current.get n), opened := openRunAfter s n (current.get n), current := current.get n } :=
        (if_neg (by simp [hh])).trans (if_neg hrun)
      rw [judgeModule_runs hh hlt, ← hafter]
      split
      case isTrue hc =>
        exact ⟨rfl, rfl, fun o ho => .inl ho, fun o ho => ho, reports_occur (30 + n.num) s, fun _ => ⟨fun h => absurd h hrun, fun _ _ _ =>
          mem_occur (30 + n.num) s⟩⟩
      case isFalse hc =>
        exact ⟨rfl, rfl, fun o ho => .inl ho, fun o ho => ho, .refl _, fun _ => ⟨fun h => absurd h hrun, fun _ h1 h2 => absurd ⟨h1, h2⟩ hc⟩⟩

/-- The modules' part of a sample, over a list of modules. -/
structure ModulesJudged (s : State) (ns : List Four) (current : PerFour Nat) (t : State) : Prop where
  only : OnlyModules s t
  modules : ∀ n, t.drive.modules.get n = if n ∈ ns then moduleAfter s n (current.get n) else s.drive.modules.get n
  notes : ∀ o ∈ t.ev.drive, o ∈ s.ev.drive ∨ o = 8
  noted : ∀ o ∈ s.ev.drive, o ∈ t.ev.drive
  reports : Reports s t
  items : ∀ n ∈ ns, ModuleReports s n (current.get n) t

/-- A module's sample is read off the settings, the level and the module itself. -/
theorem moduleAfter_congr {s t : State} {n : Four} (hl : t.live = s.live) (hlevel : t.drive.level = s.drive.level)
    (hm : t.drive.modules.get n = s.drive.modules.get n) (c : Nat) :
    moduleAfter t n c = moduleAfter s n c ∧ overRunAfter t n c = overRunAfter s n c ∧ openRunAfter t n c = openRunAfter s n c := by
  have hover : overRunAfter t n c = overRunAfter s n c := by rw [overRunAfter, overRunAfter, hl, hm]
  have hopen : openRunAfter t n c = openRunAfter s n c := by rw [openRunAfter, openRunAfter, hl, hm, hlevel]
  refine ⟨?_, hover, hopen⟩
  rw [moduleAfter, moduleAfter, hover, hopen, hl, hm, moduleHealthy_congr hl (by rw [hm])]

theorem judgeModules_judged (current : PerFour Nat) {ns : List Four} (hns : ns.Nodup) (s : State) :
    ModulesJudged s ns current (ns.foldl (judgeModule current) s) := by
  induction ns generalizing s with
  | nil => exact ⟨.refl s, fun n => by simp, fun o ho => .inl ho, fun o ho => ho, .refl s, by simp⟩
  | cons k ns ih =>
    obtain ⟨hk, hns⟩ := List.nodup_cons.mp hns
    have hfirst := judgeModule_judged current s k
    have hrest := ih hns (judgeModule current s k)
    have hlive : (judgeModule current s k).live = s.live := by rw [show judgeModule current s k = _ from judgeModule_only current s k]
    have hlevel : (judgeModule current s k).drive.level = s.drive.level := by rw [show (judgeModule current s k).drive = _ from hfirst.only]
    have hother (n : Four) (hn : n ≠ k) : (judgeModule current s k).drive.modules.get n = s.drive.modules.get n := by
      rw [hfirst.modules, PerFour.get_set_ne _ hn]
    rw [List.foldl_cons]
    refine ⟨hfirst.only.trans hrest.only, fun n => ?_, fun o ho => ?_, fun o ho => hrest.noted o (hfirst.noted o ho), hfirst.reports.trans hrest.reports, fun n hn => ?_⟩
    · rw [hrest.modules n]
      by_cases hn : n = k
      · subst hn
        rw [if_neg hk, if_pos List.mem_cons_self, hfirst.modules, PerFour.get_set_self]
      · rw [(moduleAfter_congr hlive hlevel (hother n hn) _).1, hother n hn]
        simp only [List.mem_cons, hn, false_or]
    · rcases hrest.notes o ho with h | h
      · exact hfirst.notes o h
      · exact .inr h
    · by_cases hk' : n = k
      · subst hk'
        intro hh
        obtain ⟨hlatch, hopened⟩ := hfirst.items hh
        exact ⟨fun h => hrest.reports _ (hlatch h), fun h1 h2 h3 => hrest.reports _ (hopened h1 h2 h3)⟩
      · have hmem : n ∈ ns := by simpa [hk'] using hn
        have hitems := hrest.items n hmem
        obtain ⟨-, hover, hopen⟩ := moduleAfter_congr hlive hlevel (hother n hk') (current.get n)
        unfold ModuleReports at hitems ⊢
        rw [hover, hopen, hlive, hother n hk', moduleHealthy_congr hlive (by rw [hother n hk'])] at hitems
        exact hitems

/-! ## The reflected run (R144) -/

theorem judgeReflected_silent {rho : Nat} {s : State} (hr : s.drive.mode ≠ .ramping) (hs : s.drive.mode ≠ .steady) :
    judgeReflected rho s = s := if_neg fun h => h.elim hr hs

theorem reflectedTrip_tripped (s : State) : OnlyTripped s (reflectedTrip s) ∧ Reports s (reflectedTrip s) := by
  unfold reflectedTrip
  dsimp only
  split
  · exact ⟨rfl, fun i hi => List.mem_append_left _ hi⟩
  · exact ⟨rfl, fun i hi => List.mem_append_left _ (List.mem_append_left _ hi)⟩

theorem OnlyTripped.trans {s t u : State} (h : OnlyTripped s t) (k : OnlyTripped t u) : OnlyTripped s u :=
  Eq.trans k (by rw [show t.drive = _ from h])

theorem judgeReflected_tripped (rho : Nat) (s : State) : OnlyTripped s (judgeReflected rho s) ∧ Reports s (judgeReflected rho s) := by
  unfold judgeReflected
  split
  · dsimp only
    generalize (if s.live.drive.reflTrip ≤ rho then sat 15 (s.drive.reflRun + 1) else 0) = run
    split
    · obtain ⟨honly, hreports⟩ := reflectedTrip_tripped (s.setDrive { s.drive with reflRun := run })
      exact ⟨OnlyTripped.trans rfl honly, Reports.trans (.refl s) hreports⟩
    · exact ⟨rfl, .refl s⟩
  · exact ⟨rfl, .refl s⟩

/-- The reflected run that reaches its filter trips the drive. -/
theorem judgeReflected_trips {rho : Nat} {s : State} (hm : s.drive.mode = .ramping ∨ s.drive.mode = .steady)
    (ht : s.live.drive.reflTrip ≤ rho) (hf : s.live.drive.reflFilter ≤ min 15 (s.drive.reflRun + 1)) :
    let t := judgeReflected rho s
    t.drive.level = 0 ∧ t.drive.reflRun = 0 ∧ 21 ∈ t.ev.items ∧
    t.drive.counts.reflectedTrips = min 65535 (s.drive.counts.reflectedTrips + 1) ∧ t.ev.drive = s.ev.drive ++ [4] ∧
    (t.drive.mode = .retryWait ∨ t.drive.mode = .tripped) ∧
    (s.drive.retries < s.live.drive.retryLimit →
      t.drive.mode = .retryWait ∧ t.drive.retries = s.drive.retries + 1 ∧ t.drive.reflLatch = s.drive.reflLatch ∧
      t.drive.retryEnd = some (s.clock.time + (s.live.drive.retryDelay : Int) * 10000000)) ∧
    (s.live.drive.retryLimit ≤ s.drive.retries →
      t.drive.mode = .tripped ∧ t.drive.retries = s.drive.retries ∧ t.drive.reflLatch = true ∧ t.drive.retryEnd = s.drive.retryEnd ∧
      22 ∈ t.ev.items) := by
  have hrun : (if s.live.drive.reflTrip ≤ rho then sat 15 (s.drive.reflRun + 1) else 0) = min 15 (s.drive.reflRun + 1) := by
    rw [if_pos ht, min_comm]
    rfl
  have heq : judgeReflected rho s = reflectedTrip (s.setDrive { s.drive with reflRun := min 15 (s.drive.reflRun + 1) }) := by
    unfold judgeReflected
    rw [if_pos hm]
    dsimp only
    rw [hrun]
    exact if_pos hf
  intro t
  have ht : t = reflectedTrip (s.setDrive { s.drive with reflRun := min 15 (s.drive.reflRun + 1) }) := heq
  rw [ht]
  unfold reflectedTrip
  dsimp only
  split
  case isTrue hlt =>
    have hlt : s.drive.retries < s.live.drive.retryLimit := hlt
    refine ⟨rfl, rfl, mem_occur 21 s, min_comm _ _, rfl, .inl rfl, fun _ => ⟨rfl, rfl, rfl, ?_⟩, fun h => absurd hlt (not_lt.mpr h)⟩
    exact congrArg some (congrArg (s.clock.time + ·) (Nat.cast_mul _ _))
  case isFalse hge =>
    have hge : ¬ s.drive.retries < s.live.drive.retryLimit := hge
    exact ⟨rfl, rfl, reports_occur 22 _ _ (mem_occur 21 s), min_comm _ _, rfl, .inr rfl, fun h => absurd h hge, fun _ =>
      ⟨rfl, rfl, rfl, rfl, mem_occur 22 _⟩⟩

theorem judgeReflected_awake {rho : Nat} {s : State} (h : s.drive.mode ≠ .standby) : (judgeReflected rho s).drive.mode ≠ .standby := by
  unfold judgeReflected
  split
  · dsimp only
    generalize (if s.live.drive.reflTrip ≤ rho then sat 15 (s.drive.reflRun + 1) else 0) = run
    split
    · unfold reflectedTrip
      dsimp only
      split <;> exact DriveMode.noConfusion
    · exact h
  · exact h

/-! ## Foldback and low output (R137, R150) -/

theorem recomputeCeiling_awake {s : State} (h : s.drive.mode ≠ .standby) : (recomputeCeiling s).drive.mode ≠ .standby := by
  by_cases hg : s.drive.mode = .ramping ∨ s.drive.mode = .steady
  · rcases recomputeCeiling_gives hg with h | h <;> rw [h] <;> decide
  · rw [(recomputeCeiling_silent (fun h => hg (.inl h)) (fun h => hg (.inr h))).1]
    exact h

theorem recomputeCeiling_items (s : State) : (recomputeCeiling s).ev.items = s.ev.items := by
  have hsteady (o : Nat) (s : State) : (steadyAtCeiling o s).ev.items = s.ev.items := by
    unfold steadyAtCeiling
    split <;> rfl
  have hlower : (lowerToCeiling s).ev.items = s.ev.items := by
    unfold lowerToCeiling
    split <;> rfl
  unfold recomputeCeiling followCeiling
  rw [← hlower]
  split
  · rw [hsteady]
    split <;> rfl
  · split
    · unfold enterRamping
      rw [hsteady]
      split <;> rfl
    · rfl
  · rfl

/-- The ceiling computed afresh leaves a silent drive's level of 0, and its reflected run. -/
theorem recomputeCeiling_zero {s : State} (hr : s.drive.mode ≠ .ramping) (hs : s.drive.mode ≠ .steady) (hl : s.drive.level = 0) :
    (recomputeCeiling s).drive.level = 0 ∧ (recomputeCeiling s).drive.reflRun = s.drive.reflRun := by
  have hlower : lowerToCeiling s = s.setDrive { s.drive with ceiling := ceilingOf s } := if_neg (by omega)
  have hfollow : recomputeCeiling s = lowerToCeiling s := by
    unfold recomputeCeiling followCeiling
    rw [hlower]
    split
    case h_1 h => exact absurd h hr
    case h_2 h => exact absurd h hs
    case h_3 => rfl
  rw [hfollow, hlower]
  exact ⟨hl, rfl⟩

/-- A computed foldback limit (R137). -/
theorem foldback_eq (gain : Nat) (value knee : Int) : foldback gain value knee = (max 0 (4095 - gain * max 0 (value - knee))).toNat := by
  have hnonneg : (0 : Int) ≤ gain * max 0 (value - knee) := Int.mul_nonneg (Int.natCast_nonneg _) (le_max_left _ _)
  unfold foldback clamp
  congr 1
  generalize (gain : Int) * max 0 (value - knee) = x at hnonneg
  split
  · omega
  · split <;> omega

/-- The drive record in which the ceiling is computed afresh at a sample. -/
def foldedDrive (theta : Int) (rho : Nat) (s : State) : DriveState :=
  let p := s.live.drive
  let ct := foldback p.tempGain theta p.tempKnee
  let cr := foldback p.reflGain rho p.reflKnee
  { s.drive with
    compTheta := ct, compRho := cr, effTheta := effectiveAfter p.foldHyst ct s.drive.effTheta,
    effRho := effectiveAfter p.foldHyst cr s.drive.effRho }

theorem judgeFoldback_eq (theta : Int) (rho : Nat) (s : State) :
    judgeFoldback theta rho s = recomputeCeiling (s.setDrive (foldedDrive theta rho s)) := rfl

theorem judgeLowOutput_spec (forward : Nat) (s : State) :
    (judgeLowOutput forward s).drive = { s.drive with lowRun := (judgeLowOutput forward s).drive.lowRun } ∧
    (judgeLowOutput forward s).ev.drive = s.ev.drive ∧ Reports s (judgeLowOutput forward s) ∧
    (s.drive.mode = .steady →
      let low := forward * 1000 < s.drive.level * (1000 - s.live.drive.lowTol)
      (judgeLowOutput forward s).drive.lowRun = (if low then min 500 (s.drive.lowRun + 1) else 0) ∧
      (low → s.drive.lowRun = 499 → 35 ∈ (judgeLowOutput forward s).ev.items)) := by
  unfold judgeLowOutput
  dsimp only
  split
  case isTrue hc =>
    split
    case isTrue h => exact ⟨rfl, rfl, reports_occur 35 _, fun _ => ⟨(if_pos hc.2).symm, fun _ _ => mem_occur 35 _⟩⟩
    case isFalse h => exact ⟨rfl, rfl, .refl _, fun _ => ⟨(if_pos hc.2).symm, fun _ h' => absurd h' h⟩⟩
  case isFalse hc =>
    exact ⟨rfl, rfl, .refl _, fun hm => ⟨(if_neg fun h => hc ⟨hm, h⟩).symm, fun h => absurd ⟨hm, h⟩ hc⟩⟩

/-! ## The whole sample -/

/-- What a sample may move in the drive record: everything but the powers, the readings and the tick counts. -/
def SampleFrame (s v : State) : Prop := v.drive = { s.drive with
  mode := v.drive.mode, level := v.drive.level, line := v.drive.line, steadySince := v.drive.steadySince, reflRun := v.drive.reflRun,
  reflLatch := v.drive.reflLatch, shutLatch := v.drive.shutLatch, retries := v.drive.retries, retryEnd := v.drive.retryEnd,
  counts := v.drive.counts, supply := v.drive.supply, warn := v.drive.warn, compTheta := v.drive.compTheta,
  compRho := v.drive.compRho, effTheta := v.drive.effTheta, effRho := v.drive.effRho, ceiling := v.drive.ceiling,
  modules := v.drive.modules, lowRun := v.drive.lowRun }

theorem SampleFrame.trans {s t u : State} (h : SampleFrame s t) (k : SampleFrame t u) : SampleFrame s u :=
  Eq.trans k (by rw [show t.drive = _ from h])

theorem OnlyTripped.sample {s t : State} (h : OnlyTripped s t) : SampleFrame s t := by
  unfold SampleFrame
  rw [show t.drive = _ from h]

theorem OnlyModules.sample {s t : State} (h : OnlyModules s t) : SampleFrame s t := by
  unfold SampleFrame
  rw [show t.drive = _ from h]

theorem OnlyLevel.tripped {s t : State} (h : OnlyLevel s t) : OnlyTripped s t := by
  unfold OnlyTripped
  rw [show t.drive = _ from h]

/-- What a sample leaves at the end of its parts, where no occasion was noted before it. -/
structure SampleJudged (s : State) (x : Samples) (v : State) : Prop where
  frame : SampleFrame s v
  supply : v.drive.supply = supplyAfter s.live.drive s.drive.supply x.supply
  supplyItems : v.drive.supply ≠ s.drive.supply →
    (v.drive.supply = .low → 25 ∈ v.ev.items) ∧ (v.drive.supply = .high → 26 ∈ v.ev.items)
  warn : v.drive.warn = warnAfter s.live.drive s.drive.warn (tempOf x.temperature)
  warnItem : s.drive.warn = false → (s.live.drive.tempWarn : Int) ≤ tempOf x.temperature → 23 ∈ v.ev.items
  compTheta : v.drive.compTheta = foldback s.live.drive.tempGain (tempOf x.temperature) s.live.drive.tempKnee
  compRho : v.drive.compRho = foldback s.live.drive.reflGain x.reflected s.live.drive.reflKnee
  effTheta : v.drive.effTheta = effectiveAfter s.live.drive.foldHyst v.drive.compTheta s.drive.effTheta
  effRho : v.drive.effRho = effectiveAfter s.live.drive.foldHyst v.drive.compRho s.drive.effRho
  ceiling : v.drive.ceiling = ceilingOf v
  current : ∀ n, (v.drive.modules.get n).current = x.current.get n
  modules : tempOf x.temperature < s.live.drive.tempShut → ∀ n,
    v.drive.modules.get n = moduleAfter s n (x.current.get n) ∧ ModuleReports s n (x.current.get n) v
  awake : s.drive.mode ≠ .standby → v.drive.mode ≠ .standby
  low : v.drive.mode = .steady →
    let low := x.forward * 1000 < v.drive.level * (1000 - s.live.drive.lowTol)
    v.drive.lowRun = (if low then min 500 (s.drive.lowRun + 1) else 0) ∧ (low → s.drive.lowRun = 499 → 35 ∈ v.ev.items)
  shutdown : (s.live.drive.tempShut : Int) ≤ tempOf x.temperature → s.drive.shutLatch = false →
    (s.drive.mode = .tripped → s.drive.level = 0) →
    v.drive.mode = .tripped ∧ v.drive.level = 0 ∧ v.drive.shutLatch = true ∧ v.drive.retryEnd = none ∧
    v.drive.counts.shutdowns = min 65535 (s.drive.counts.shutdowns + 1) ∧ 24 ∈ v.ev.items ∧
    (s.drive.mode ≠ .tripped → v.ev.drive.min? = some 5)
  reflected : tempOf x.temperature < s.live.drive.tempShut → s.drive.mode = .ramping ∨ s.drive.mode = .steady →
    s.live.drive.reflTrip ≤ x.reflected → s.live.drive.reflFilter ≤ min 15 (s.drive.reflRun + 1) →
    v.drive.level = 0 ∧ v.drive.reflRun = 0 ∧ 21 ∈ v.ev.items ∧
    v.drive.counts.reflectedTrips = min 65535 (s.drive.counts.reflectedTrips + 1) ∧ v.ev.drive.min? = some 4 ∧
    (v.drive.mode = .retryWait ∨ v.drive.mode = .tripped) ∧
    (s.drive.retries < s.live.drive.retryLimit →
      v.drive.mode = .retryWait ∧ v.drive.retries = s.drive.retries + 1 ∧ v.drive.reflLatch = s.drive.reflLatch ∧
      v.drive.retryEnd = some (s.clock.time + (s.live.drive.retryDelay : Int) * 10000000)) ∧
    (s.live.drive.retryLimit ≤ s.drive.retries →
      v.drive.mode = .tripped ∧ v.drive.retries = s.drive.retries ∧ v.drive.reflLatch = true ∧ v.drive.retryEnd = s.drive.retryEnd ∧
      22 ∈ v.ev.items)

theorem min?_of_first {os : List Nat} {k : Nat} (hk : k ∈ os) (hle : ∀ o ∈ os, k ≤ o) : os.min? = some k :=
  List.min?_eq_some_iff.mpr ⟨hk, hle⟩

/-- A sample's parts, one after another. -/
theorem judgeSample_judged (x : Samples) {s : State} (hev : s.ev.drive = []) : SampleJudged s x (judgeSample x s) := by
  unfold judgeSample
  dsimp only
  -- the supply
  obtain ⟨d1, n1, r1, i1⟩ := judgeSupply_spec x.supply s
  have l1 : (judgeSupply x.supply s).live = s.live := by rw [show judgeSupply x.supply s = _ from judgeSupply_only _ s]
  have c1 : (judgeSupply x.supply s).clock = s.clock := by rw [show judgeSupply x.supply s = _ from judgeSupply_only _ s]
  generalize judgeSupply x.supply s = s1 at *
  unfold judgeTemperature
  -- the warning
  obtain ⟨d2, n2, r2, i2⟩ := judgeWarning_spec (tempOf x.temperature) s1
  have l2 : (judgeWarning (tempOf x.temperature) s1).live = s.live := by
    rw [show judgeWarning (tempOf x.temperature) s1 = _ from judgeWarning_only _ s1]; exact l1
  have c2 : (judgeWarning (tempOf x.temperature) s1).clock = s.clock := by
    rw [show judgeWarning (tempOf x.temperature) s1 = _ from judgeWarning_only _ s1]; exact c1
  generalize judgeWarning (tempOf x.temperature) s1 = s2 at *
  -- the shutdown
  have stay3 : tempOf x.temperature < s.live.drive.tempShut → judgeShutdown (tempOf x.temperature) s2 = s2 := fun h =>
    judgeShutdown_stays (.inl (by rw [l2]; exact h))
  have trip3 := judgeShutdown_trips (theta := tempOf x.temperature) (s := s2)
  obtain ⟨d3, r3⟩ := judgeShutdown_tripped (tempOf x.temperature) s2
  have l3 : (judgeShutdown (tempOf x.temperature) s2).live = s.live := by
    rw [show judgeShutdown (tempOf x.temperature) s2 = _ from judgeShutdown_only _ s2]; exact l2
  have c3 : (judgeShutdown (tempOf x.temperature) s2).clock = s.clock := by
    rw [show judgeShutdown (tempOf x.temperature) s2 = _ from judgeShutdown_only _ s2]; exact c2
  have a3 := judgeShutdown_awake (theta := tempOf x.temperature) (s := s2)
  generalize judgeShutdown (tempOf x.temperature) s2 = s3 at *
  -- the modules
  have m4 := judgeModules_judged x.current (ns := Four.all) (by decide) s3
  have o4 := fold_frame OnlyDrive.refl OnlyDrive.trans (judgeModule_only x.current) Four.all s3
  generalize Four.all.foldl (judgeModule x.current) s3 = s4 at *
  have l4 : s4.live = s.live := by rw [show s4 = _ from o4]; exact l3
  have c4 : s4.clock = s.clock := by rw [show s4 = _ from o4]; exact c3
  -- the reflected run
  obtain ⟨d5, r5⟩ := judgeReflected_tripped x.reflected s4
  have silent5 := judgeReflected_silent (rho := x.reflected) (s := s4)
  have trip5 := judgeReflected_trips (rho := x.reflected) (s := s4)
  have l5 : (judgeReflected x.reflected s4).live = s.live := by
    rw [show judgeReflected x.reflected s4 = _ from judgeReflected_only _ s4]; exact l4
  have a5 := judgeReflected_awake (rho := x.reflected) (s := s4)
  generalize judgeReflected x.reflected s4 = s5 at *
  -- the foldback and the ceiling
  rw [judgeFoldback_eq]
  generalize hu : s5.setDrive (foldedDrive (tempOf x.temperature) x.reflected s5) = u
  have d6 := recomputeCeiling_level u
  have fresh6 := recomputeCeiling_fresh u
  have i6 := recomputeCeiling_items u
  have silent6 := recomputeCeiling_silent (s := u)
  have zero6 := recomputeCeiling_zero (s := u)
  have l6 : (recomputeCeiling u).live = s.live := by
    rw [show recomputeCeiling u = _ from recomputeCeiling_only u, ← hu]; exact l5
  have a6 := recomputeCeiling_awake (s := u)
  generalize recomputeCeiling u = s6 at *
  have du : u.drive = foldedDrive (tempOf x.temperature) x.reflected s5 := by rw [← hu]; rfl
  have iu : u.ev = s5.ev := by rw [← hu]; rfl
  have o6 : s6.drive = _ := d6
  -- the low output
  obtain ⟨d7, n7, r7, low7⟩ := judgeLowOutput_spec x.forward s6
  have l7 : (judgeLowOutput x.forward s6).live = s.live := by
    rw [show judgeLowOutput x.forward s6 = _ from judgeLowOutput_only _ s6]; exact l6
  generalize judgeLowOutput x.forward s6 = v at *
  -- what stands from one part to the next
  have r5v : Reports s5 v := fun i hi => r7 i (by rw [i6, iu]; exact hi)
  have r4v : Reports s4 v := r5.trans r5v
  have r3v : Reports s3 v := m4.reports.trans r4v
  have r2v : Reports s2 v := r3.trans r3v
  have r1v : Reports s1 v := r2.trans r2v
  have esupply : v.drive.supply = s1.drive.supply := by rw [d7, o6, State.setDrive_drive, du, foldedDrive, d5, m4.only, d3, d2]
  have ewarn : v.drive.warn = s2.drive.warn := by rw [d7, o6, State.setDrive_drive, du, foldedDrive, d5, m4.only, d3]
  have emodules : v.drive.modules = s4.drive.modules := by rw [d7, o6, State.setDrive_drive, du, foldedDrive, d5]
  have esame : s5.drive.effTheta = s.drive.effTheta ∧ s5.drive.effRho = s.drive.effRho := by
    constructor <;> rw [d5, m4.only, d3, d2, d1]
  have elow : s6.drive.lowRun = s.drive.lowRun := by rw [o6, State.setDrive_drive, du, foldedDrive, d5, m4.only, d3, d2, d1]
  have eceiling : ceilingOf v = ceilingOf s6 := by
    refine ceilingOf_congr ?_ ?_ ?_ ?_ ?_ (l7.trans l6.symm) <;> rw [d7]
  have hmodule (n : Four) : v.drive.modules.get n = moduleAfter s3 n (x.current.get n) := by
    rw [emodules, m4.modules n, if_pos (by cases n <;> decide)]
  have elevel (hl : s5.drive.level = 0) (hr : s5.drive.mode ≠ .ramping) (hs : s5.drive.mode ≠ .steady) :
      v.drive.level = 0 ∧ v.drive.mode = s5.drive.mode ∧ v.drive.reflRun = s5.drive.reflRun ∧ v.ev.drive = s5.ev.drive := by
    have hmu : u.drive.mode = s5.drive.mode := by rw [du]; rfl
    obtain ⟨hm, he⟩ := silent6 (by rw [hmu]; exact hr) (by rw [hmu]; exact hs)
    obtain ⟨hl', hrun⟩ := zero6 (by rw [hmu]; exact hr) (by rw [hmu]; exact hs) (by rw [du]; exact hl)
    refine ⟨?_, ?_, ?_, ?_⟩
    · rw [d7]
      exact hl'
    · rw [d7]
      exact hm.trans hmu
    · rw [d7]
      exact hrun.trans (by rw [du]; rfl)
    · rw [n7, he, iu]
  have ekept : v.drive.retries = s5.drive.retries ∧ v.drive.retryEnd = s5.drive.retryEnd ∧ v.drive.reflLatch = s5.drive.reflLatch ∧
      v.drive.shutLatch = s5.drive.shutLatch ∧ v.drive.counts = s5.drive.counts := by
    refine ⟨?_, ?_, ?_, ?_, ?_⟩ <;> rw [d7, o6, State.setDrive_drive, du, foldedDrive]
  have e2 : s2.drive = { s.drive with supply := s2.drive.supply, warn := s2.drive.warn } := by rw [d2, d1]
  refine ⟨?_, ?_, ?_, ?_, ?_, ?_, ?_, ?_, ?_, ?_, ?_, ?_, ?_, ?_, ?_, ?_⟩
  · have f1 : SampleFrame s s1 := by unfold SampleFrame; rw [d1]
    have f2 : SampleFrame s1 s2 := by unfold SampleFrame; rw [d2]
    have f6 : SampleFrame s5 u := by unfold SampleFrame; rw [du]; rfl
    have f7 : SampleFrame u (u.setDrive { u.drive with ceiling := ceilingOf u }) := rfl
    have f8 : SampleFrame s6 v := by unfold SampleFrame; rw [d7]
    exact (((((((f1.trans f2).trans d3.sample).trans m4.only.sample).trans d5.sample).trans f6).trans f7).trans
      d6.tripped.sample).trans f8
  · rw [esupply, d1]
  · rw [esupply, d1]
    intro h
    obtain ⟨hlow, hhigh⟩ := i1 h
    exact ⟨fun h => r1v _ (hlow h), fun h => r1v _ (hhigh h)⟩
  · rw [ewarn, d2, l1, d1]
  · intro h1 h2
    exact r2v _ (i2 (by rw [d1]; exact h1) (by rw [l1]; exact h2))
  · rw [d7, o6, State.setDrive_drive, du, foldedDrive, l5]
  · rw [d7, o6, State.setDrive_drive, du, foldedDrive, l5]
  · rw [d7, o6, State.setDrive_drive, du, foldedDrive, l5, esame.1]
  · rw [d7, o6, State.setDrive_drive, du, foldedDrive, l5, esame.2]
  · rw [eceiling, ← fresh6, d7]
  · intro n
    rw [hmodule n, moduleAfter]
    split
    · rfl
    · split <;> rfl
  · intro hbelow n
    have h3 : s3 = s2 := stay3 hbelow
    have hn : s2.drive.modules.get n = s.drive.modules.get n := by rw [e2]
    have hlevel : s2.drive.level = s.drive.level := by rw [e2]
    obtain ⟨hafter, hover, hopen⟩ := moduleAfter_congr l2 hlevel hn (x.current.get n)
    refine ⟨by rw [hmodule n, h3, hafter], fun hh => ?_⟩
    have hitems := m4.items n (by cases n <;> decide)
    unfold ModuleReports at hitems
    rw [h3, hover, hopen, l2, hn, moduleHealthy_congr l2 (by rw [hn])] at hitems
    obtain ⟨hlatch, hopened⟩ := hitems hh
    exact ⟨fun h => r4v _ (hlatch h), fun h1 h2 h3 => r4v _ (hopened h1 h2 h3)⟩
  · intro hm
    have hm4 : s4.drive.mode ≠ .standby := by rw [m4.only]; exact a3 (by rw [e2]; exact hm)
    have hmu : u.drive.mode ≠ .standby := by rw [du]; exact a5 hm4
    rw [d7]
    exact a6 hmu
  · intro hm
    have hm6 : s6.drive.mode = .steady := by rw [d7] at hm; exact hm
    obtain ⟨hrun, hitem⟩ := low7 hm6
    have hlev : v.drive.level = s6.drive.level := by rw [d7]
    rw [hlev, ← l6, ← elow]
    exact ⟨hrun, hitem⟩
  · intro ht hl hzero
    obtain ⟨hm, hlatch, hend, hcount, hitem, hlevel, hnote⟩ := trip3 (by rw [l2]; exact ht) (by rw [e2]; exact hl)
    have hm4 : s4.drive.mode = .tripped := by rw [m4.only]; exact hm
    have h5 : s5 = s4 := silent5 (by rw [hm4]; decide) (by rw [hm4]; decide)
    have hlev4 : s4.drive.level = 0 := by rw [m4.only]; exact hlevel (by rw [e2]; exact hzero)
    obtain ⟨hv, hmode, -, hev'⟩ := elevel (by rw [h5]; exact hlev4) (by rw [h5, hm4]; decide) (by rw [h5, hm4]; decide)
    obtain ⟨hret, hre, hrl, hsl, hcn⟩ := ekept
    refine ⟨by rw [hmode, h5, hm4], hv, ?_, ?_, ?_, r3v _ hitem, fun hne => ?_⟩
    · rw [hsl, h5, m4.only]
      exact hlatch
    · rw [hre, h5, m4.only]
      exact hend
    · rw [hcn, h5, m4.only]
      exact hcount.trans (by rw [e2])
    · have hdrive3 : s3.ev.drive = [5] := by rw [hnote (by rw [e2]; exact hne), n2, n1, hev]; rfl
      rw [hev', h5]
      refine min?_of_first (m4.noted 5 (by rw [hdrive3]; simp)) fun o ho => ?_
      rcases m4.notes o ho with h | h
      · rw [hdrive3, List.mem_singleton] at h
        omega
      · omega
  · intro hbelow hm ht hf
    have h3 : s3 = s2 := stay3 hbelow
    have e4 : s4.drive = { s.drive with supply := s4.drive.supply, warn := s4.drive.warn, modules := s4.drive.modules, counts :=
        { s.drive.counts with modulesOff := s4.drive.counts.modulesOff } } := by rw [m4.only, h3, e2]
    obtain ⟨hlev, hrun, hitem, hcount, hnote, hmode, hbelowLimit, hatLimit⟩ := trip5 (by rw [e4]; exact hm) (by rw [l4]; exact ht)
      (by rw [l4, e4]; exact hf)
    obtain ⟨hv, hmode', hrun', hev'⟩ := elevel hlev (by rcases hmode with h | h <;> rw [h] <;> decide)
      (by rcases hmode with h | h <;> rw [h] <;> decide)
    obtain ⟨hret, hre, hrl, hsl, hcn⟩ := ekept
    refine ⟨hv, hrun'.trans hrun, r5v _ hitem, ?_, ?_, by rw [hmode']; exact hmode, fun h => ?_, fun h => ?_⟩
    · rw [hcn, hcount, e4]
    · rw [hev', hnote]
      refine min?_of_first (by simp) fun o ho => ?_
      rcases List.mem_append.mp ho with ho | ho
      · rcases m4.notes o ho with h | h
        · rw [h3, n2, n1, hev] at h
          simp at h
        · omega
      · rw [List.mem_singleton.mp ho]
    · obtain ⟨h1, h2, h3, h4⟩ := hbelowLimit (by rw [l4, e4]; exact h)
      rw [hmode', hret, hrl, hre, h1, h2, h3, h4, l4, c4, e4]
      exact ⟨rfl, rfl, rfl, rfl⟩
    · obtain ⟨h1, h2, h3, h4, h5⟩ := hatLimit (by rw [l4, e4]; exact h)
      rw [hmode', hret, hrl, hre, h1, h2, h3, h4, e4]
      exact ⟨rfl, rfl, rfl, rfl, r5v _ h5⟩

/-! ## O58 -/

theorem exec_monitoringSample (x : Samples) (s : State) : exec (.monitoringSample x) s = event (sampleEffect x) s := rfl

/-- A tripped or waiting drive is left as it is when permission is judged (R139). -/
theorem judgePermission_tripped {s : State} (h : s.drive.mode = .retryWait ∨ s.drive.mode = .tripped) : judgePermission s = s := by
  unfold judgePermission
  rcases h with h | h <;> rw [h]

/-- A drive that is STEADY when permission has been judged, and was so before or gave a level, is as the sample left it. -/
theorem judgePermission_steady {s : State} (h : (judgePermission s).drive.mode = .steady) (hm : s.drive.mode ≠ .standby) :
    judgePermission s = s := by
  revert h
  unfold judgePermission
  split
  case h_1 h => exact fun _ => absurd h hm
  case h_2 h =>
    split
    · exact fun _ => rfl
    · intro hs
      cases hs
  case h_3 =>
    split
    · exact fun _ => rfl
    · intro hs
      cases hs
  case h_4 => exact fun _ => rfl

theorem sampleEffect_due {x : Samples} {s : State} (h : (s.drive.samplesTaken + 1) * 100000 ≤ s.clock.cycles) :
    sampleEffect x s = judgeSample (saturated x) (keepSamples (saturated x) s) := if_pos h

theorem sample12_eq (x : Nat) : sample12 x = min 4095 x := min_comm _ _

/-- Settles O58. -/
theorem monitoringSampleJudged : Obligations.MonitoringSampleJudged := by
  intro s x hp hlen d theta rho
  refine ⟨fun hearly => ?_, fun hdue => ?_⟩
  · refine afterEvent_intro (f := sampleEffect x) (is := []) (e := {}) hp (if_neg ?_) rfl (.inr rfl)
    exact not_le.mpr hearly
  generalize hs0 : keepSamples (saturated x) (s.setEv {}) = s0
  have heffect : sampleEffect x (s.setEv {}) = judgeSample (saturated x) s0 := by rw [← hs0]; exact sampleEffect_due hdue
  have d0 : s0.drive = { d with
      forward := min 4095 x.forward, reflected := rho, temperature := min 4095 x.temperature, supplySample := min 4095 x.supply,
      samplesTaken := d.samplesTaken + 1 } := by
    rw [← hs0, keepSamples, saturated]
    simp only [sample12_eq]
    rfl
  have l0 : s0.live = s.live := by rw [← hs0]; rfl
  have hv := judgeSample_judged (saturated x) (s := s0) (by rw [← hs0]; rfl)
  have htheta : tempOf (saturated x).temperature = theta := by
    change ((sample12 x.temperature : Nat) : Int) - 400 = theta
    rw [sample12_eq]
  have hrho : (saturated x).reflected = rho := sample12_eq _
  generalize hjudged : judgeSample (saturated x) s0 = v at hv heffect
  have hframe : OnlyDrive s v := by
    rw [← heffect]
    exact OnlyDrive.trans (by rfl) (sampleEffect_only x (s.setEv {}))
  obtain ⟨t, hstep, hleft⟩ := event_left hp heffect
  have honly : OnlyLevel v t := hleft.level
  have hlive : t.live = s.live := by rw [hleft.live, show v = _ from hframe]
  have hlatches {i : Nat} (h1 : 1 ≤ i) (h36 : i ≤ 36) (hi : i ∈ v.ev.items) : (alarmRec t i).latched = true :=
    event_latches hp heffect (by rw [show v = _ from hframe]; exact hlen) hstep h1 h36 hi
  have ht : t.drive = _ := honly
  have hf : v.drive = _ := hv.frame
  have hceiling : t.drive.ceiling = ceilingOf t := by
    rw [honly.ceiling, hv.ceiling, honly.ceilingOf hleft.live]
  have hnoticed {bodies : List (List Byte)} (h : driveNotice (judgePermission v) = bodies) : Noticed 6 bodies s t := by
    have hn := noticed_event (kind := 6) (by decide) hp heffect (by rw [show v = _ from hframe]) (by rw [show v = _ from hframe])
      (by rw [show v = _ from hframe]) hstep
    rwa [bodiesOf_drive, h] at hn
  have htripped (hm : v.drive.mode = .retryWait ∨ v.drive.mode = .tripped) {o : Nat} (ho : v.ev.drive.min? = some o) :
      t.drive = v.drive ∧ Noticed 6 [driveBody t (BitVec.ofNat 8 o)] s t := by
    have hstays := judgePermission_tripped hm
    have hdrive : t.drive = v.drive := by rw [hleft.drive, hstays]
    exact ⟨hdrive, hnoticed (by rw [hstays]; exact driveNotice_eq ho hdrive hleft.live)⟩
  have hm0 : s0.drive.mode = d.mode := by rw [d0]
  refine ⟨t, hstep, ?_, ?_, ?_, ?_, fun n => ?_, ?_, ?_, ?_, ?_, hceiling, fun h => ?_, hleft.whole hframe, fun hth hsl hlevel => ?_,
    fun hth hm hrt hrf => ?_, ?_⟩
  · rw [ht, hf, d0]
  · rw [ht, hf, d0]
  · rw [ht, hf, d0]
  · rw [ht, hf, d0]
  · rw [honly.modules, hv.current n]
    exact (PerFour.get_map _ _ _).trans (sample12_eq _)
  · rw [ht, hf, d0]
  · rw [ht, hf, d0]
  · rw [ht, hf, d0]
  · rw [ht, hf, d0]
  · refine hleft.levelOk ?_
    rw [← heffect]
    exact (keeps_sampleEffect x (s.setEv {})).level h
  · obtain ⟨hmode, hlev, hlatch, hend, hcount, hitem, hnote⟩ := hv.shutdown (by rw [l0, htheta]; exact hth) (by rw [d0]; exact hsl)
      (by rw [d0]; exact fun hm => hlevel.2.2.1 (.inr (.inr hm)))
    have hstays := judgePermission_tripped (.inr hmode)
    have hdrive : t.drive = v.drive := by rw [hleft.drive, hstays]
    rw [hdrive]
    refine ⟨hmode, hlev, hlatch, hend, by rw [hcount, d0], hlatches (by decide) (by decide) hitem, fun hne => ?_⟩
    exact (htripped (.inr hmode) (hnote (by rw [hm0]; exact hne))).2
  · obtain ⟨hlev, hrun, hitem, hcount, hnote, hmode, hbelow, hat⟩ := hv.reflected (by rw [l0, htheta]; exact hth) (by rw [hm0]; exact hm)
      (by rw [l0, hrho]; exact hrt) (by rw [l0, d0]; exact hrf)
    obtain ⟨hdrive, hnotice⟩ := htripped hmode hnote
    rw [hdrive]
    refine ⟨hlev, hrun, hlatches (by decide) (by decide) hitem, by rw [hcount, d0], hnotice, fun h => ?_, fun h => ?_⟩
    · obtain ⟨h1, h2, h3, h4⟩ := hbelow (by rw [l0, d0]; exact h)
      rw [h1, h2, h3, h4, d0, l0, ← hs0]
      exact ⟨rfl, rfl, rfl, rfl⟩
    · obtain ⟨h1, h2, h3, h4, h5⟩ := hat (by rw [l0, d0]; exact h)
      rw [h1, h2, h3, h4, d0]
      exact ⟨rfl, rfl, rfl, rfl, hlatches (by decide) (by decide) h5⟩
  · intro q supply limit held
    have hwarn : t.drive.warn = warnAfter q d.warn theta := by rw [ht, hv.warn, l0, htheta, d0]
    have hsupply : t.drive.supply = supplyAfter q d.supply supply := by
      rw [ht, hv.supply, l0, d0]
      exact congrArg _ (sample12_eq _)
    have hsv : t.drive.supply = v.drive.supply := by rw [ht]
    have hheld (computed effective : Nat) : effectiveAfter q.foldHyst computed effective = held computed effective := rfl
    refine ⟨hsupply, fun hne => ?_, fun hw => ?_, fun hw hle => ?_, fun hw => ?_, ?_, ?_, ?_, ?_, fun hth n => ?_, fun hm hms => ?_⟩
    · rw [hsv] at hne ⊢
      obtain ⟨hlow, hhigh⟩ := hv.supplyItems (by rw [d0]; exact hne)
      exact ⟨fun h => hlatches (by decide) (by decide) (hlow h), fun h => hlatches (by decide) (by decide) (hhigh h)⟩
    · rw [hwarn, hw]
      rfl
    · exact hlatches (by decide) (by decide) (hv.warnItem (by rw [d0]; exact hw) (by rw [l0, htheta]; exact hle))
    · rw [hwarn, hw]
      rfl
    · rw [ht, hv.compTheta, l0, htheta]
      exact foldback_eq _ _ _
    · rw [ht, hv.compRho, l0, hrho]
      exact foldback_eq _ _ _
    · rw [ht, hv.effTheta, l0, d0]
      exact hheld _ _
    · rw [ht, hv.effRho, l0, d0]
      exact hheld _ _
    · intro m current run opened healthy
      obtain ⟨hafter, hitems⟩ := hv.modules (by rw [l0, htheta]; exact hth) n
      have hcurrent : (saturated x).current.get n = current := (PerFour.get_map _ _ _).trans (sample12_eq _)
      have hm0 : s0.drive.modules.get n = m := by rw [d0]
      have hlev0 : s0.drive.level = d.level := by rw [d0]
      have hover : overRunAfter s0 n current = run := by rw [overRunAfter, l0, hm0]
      have hopen : openRunAfter s0 n current = opened := by rw [openRunAfter, l0, hm0, hlev0]
      have hhealthy : moduleHealthy s0 n = true ↔ healthy := by
        simp only [moduleHealthy, moduleInstalled, l0, hm0, Bool.and_eq_true, decide_eq_true_eq, Bool.not_eq_true']
        exact Iff.rfl
      rw [hcurrent] at hafter hitems
      unfold ModuleReports at hitems
      rw [hover, hopen, l0, hm0, hhealthy] at hitems
      refine ⟨?_, fun hh hr => ?_, fun hh hr ho hmo => ?_⟩
      · rw [honly.modules, hafter, moduleAfter]
        simp only [hover, hopen, l0, hm0, hhealthy]
        rfl
      · exact hlatches (by omega) (by cases n <;> decide) ((hitems hh).1 hr)
      · exact hlatches (by omega) (by cases n <;> decide) ((hitems hh).2 hr ho hmo)
    · intro low
      have hmode : (judgePermission v).drive.mode = .steady := by rw [← hleft.drive]; exact hms
      have hstays := judgePermission_steady hmode (hv.awake (by rw [hm0, hm]; decide))
      rw [hstays] at hmode
      have hdrive : t.drive = v.drive := by rw [hleft.drive, hstays]
      obtain ⟨hrun, hitem⟩ := hv.low hmode
      have hforward : (saturated x).forward = min 4095 x.forward := sample12_eq _
      have hlow0 : s0.drive.lowRun = d.lowRun := by rw [d0]
      rw [hforward, l0, hlow0, ← hdrive] at hrun hitem
      exact ⟨hrun, fun h1 h2 => hlatches (by decide) (by decide) (hitem h1 h2)⟩

end Sys2Proof.Machine
end

section
/-! PROOF of what Feed Intake makes of bytes, silence and damaged packets (02): one normal form for a command that reports at one port,
then the hunt (O36), the third damaged packet (O38), the line-activity expiry (O39) and the silence deadline (O40). -/

namespace Sys2Proof.Machine
open Sys2Proof

@[simp] theorem PerPort.get_set {α : Type} (x : PerPort α) (p : PortId) (a : α) : (x.set p a).get p = a := by cases p <;> rfl

@[simp] theorem PerPort.set_set {α : Type} (x : PerPort α) (p : PortId) (a b : α) : (x.set p a).set p b = x.set p b := by
  cases p <;> rfl

@[simp] theorem PerPort.set_get {α : Type} (x : PerPort α) (p : PortId) : x.set p (x.get p) = x := by cases p <;> rfl

/-- A saturating count as statements write it. -/
theorem sat_eq_min (highest n : Nat) : sat highest n = min highest n := Nat.min_comm _ _

/-! ## The state of a command that has acted at one port -/

/-- The part after a command that has left the record `y` at port `p`, noted a change of its state, and reported these items. -/
def portEvent (s : State) (p : PortId) (y : PortRec) (note : Option PortNote) (items : List Nat) : State :=
  (s.setFeed { s.feed with ports := s.feed.ports.set p y }).setEv
    { portNotes := (⟨none, none⟩ : PerPort (Option PortNote)).set p note, items := items }

/-- The FEED note after a change to the mode `m` at a record `y` (R42). -/
def noteAfter (y : PortRec) (m : PortMode) (note : Option PortNote) : Option PortNote :=
  if y.mode = m then note else some ⟨match note with | some n => n.before | none => y.mode, y.average⟩

/-- A port record in another state: the debounce counts are 0 at a change (R38). -/
def inMode (y : PortRec) (m : PortMode) : PortRec := if y.mode = m then y else { y with mode := m, degrade := 0, recover := 0 }

theorem noteAfter_of_ne {y : PortRec} {m : PortMode} (h : y.mode ≠ m) : noteAfter y m none = some ⟨y.mode, y.average⟩ := if_neg h

theorem inMode_of_ne {y : PortRec} {m : PortMode} (h : y.mode ≠ m) : inMode y m = { y with mode := m, degrade := 0, recover := 0 } :=
  if_neg h

theorem portEvent_start (s : State) (p : PortId) : s.setEv {} = portEvent s p (s.feed.ports.get p) none [] := by
  unfold portEvent
  rw [PerPort.set_get]
  cases p <;> rfl

section
variable (s : State) (p : PortId) (y : PortRec) (note : Option PortNote) (items : List Nat)

@[simp] theorem portEvent_live : (portEvent s p y note items).live = s.live := rfl
@[simp] theorem portEvent_clock : (portEvent s p y note items).clock = s.clock := rfl
@[simp] theorem portEvent_splice : (portEvent s p y note items).splice = s.splice := rfl
@[simp] theorem portEvent_em : (portEvent s p y note items).em = s.em := rfl
@[simp] theorem portEvent_store : (portEvent s p y note items).store = s.store := rfl
@[simp] theorem portEvent_mem : (portEvent s p y note items).mem = s.mem := rfl
@[simp] theorem portEvent_alarms : (portEvent s p y note items).alarms = s.alarms := rfl
@[simp] theorem portEvent_link : (portEvent s p y note items).link = s.link := rfl
@[simp] theorem portEvent_hold : (portEvent s p y note items).feed.hold = s.feed.hold := rfl
@[simp] theorem portEvent_ports : (portEvent s p y note items).feed.ports = s.feed.ports.set p y := rfl
@[simp] theorem portEvent_feedStreams : feedStreams (portEvent s p y note items) = feedStreams s := rfl
@[simp] theorem portEvent_period : period (portEvent s p y note items) = s.live.em.period := rfl
@[simp] theorem portEvent_perFrame : perFrame (portEvent s p y note items) = s.live.em.packets := rfl

@[simp] theorem portRec_portEvent : portRec (portEvent s p y note items) p = y := PerPort.get_set _ _ _

@[simp] theorem setPort_portEvent (z : PortRec) : setPort p z (portEvent s p y note items) = portEvent s p z note items := by
  simp only [setPort, portEvent, State.setFeed, State.setEv, PerPort.set_set]

@[simp] theorem countPort_portEvent (f : PortCounts → PortCounts) :
    countPort p f (portEvent s p y note items) = portEvent s p { y with counts := f y.counts } note items := by
  simp only [countPort, portRec_portEvent, setPort_portEvent]

@[simp] theorem occur_portEvent (i : Nat) : occur i (portEvent s p y note items) = portEvent s p y note (items ++ [i]) := rfl

@[simp] theorem setPortMode_portEvent (m : PortMode) :
    setPortMode p m (portEvent s p y note items) = portEvent s p (inMode y m) (noteAfter y m note) items := by
  unfold setPortMode inMode noteAfter
  simp only [portRec_portEvent, setPort_portEvent]
  split
  · rfl
  · cases p <;> cases note <;> rfl

@[simp] theorem loseAlignment_portEvent : loseAlignment p (portEvent s p y note items) = portEvent s p
    { y with
      runs := List.replicate 188 0, phase := 0, packetPhase := none, firstByte := none, wrongSync := 0, assembling := false,
      opened := none, continuity := [], deadline := none } note items := by
  simp only [loseAlignment, portRec_portEvent, setPort_portEvent]

@[simp] theorem alignContinuity_portEvent : alignContinuity p (portEvent s p y note items) = portEvent s p
    { y with continuity := (feedStreams s).map (fun stream => (stream, (y.continuity.lookup stream).join)) } note items := by
  simp only [alignContinuity, portRec_portEvent, setPort_portEvent, portEvent_feedStreams]

@[simp] theorem enterHunting_portEvent : enterHunting p (portEvent s p y note items) = portEvent s p
    { y with
      assembling := false, opened := none,
      continuity := (feedStreams s).map (fun stream => (stream, (y.continuity.lookup stream).join)) } note items := by
  simp only [enterHunting, portRec_portEvent, setPort_portEvent, alignContinuity_portEvent]

@[simp] theorem arrivalStamp_portEvent : arrivalStamp (portEvent s p y note items) p = y.firstByte.getD s.clock.time := by
  simp only [arrivalStamp, portRec_portEvent, portEvent_clock]

end

/-- The FEED notice of a port with the record `y` (R42). -/
def portNotice (p : PortId) (y : PortRec) : Option PortNote → List (List Byte)
  | some n => [be 1 p.num ++ be 1 (portCode n.before) ++ be 1 (portCode y.mode) ++ be 2 n.average]
  | none => []

/-- A FEED notice whose new state has this code. -/
theorem portNotice_code {p : PortId} {y : PortRec} {before : PortMode} {average : Nat} {a : Byte} {after : PortMode}
    (hy : y.mode = after) (ha : be 1 (portCode after) = [a]) :
    portNotice p y (some ⟨before, average⟩) = [be 1 p.num ++ be 1 (portCode before) ++ [a] ++ be 2 average] := by
  simp only [portNotice, hy, ha]

/-- A FEED notice whose two states have these codes. -/
theorem portNotice_codes {p : PortId} {y : PortRec} {before : PortMode} {average : Nat} {b a : Byte} {after : PortMode}
    (hb : be 1 (portCode before) = [b]) (hy : y.mode = after) (ha : be 1 (portCode after) = [a]) :
    portNotice p y (some ⟨before, average⟩) = [be 1 p.num ++ [b, a] ++ be 2 average] := by
  simp only [portNotice, hb, hy, ha, List.append_assoc, List.cons_append, List.nil_append]

theorem Noticed.of_eq {kind : Nat} {bodies bodies' : List (List Byte)} {s t : State} (h : Noticed kind bodies s t) (he : bodies = bodies') :
    Noticed kind bodies' s t := he ▸ h

/-- The FEED notice of an event that has acted at one port alone. -/
theorem noticed_port {s t : State} {f : State → State} {p : PortId} {y : PortRec} {note : Option PortNote} {items : List Nat}
    (hp : Powered s) (hf : f (s.setEv {}) = portEvent s p y note items) (hstep : event f s = .next t) :
    Noticed 2 (portNotice p y note) s t := by
  have hn := noticed_event (kind := 2) (by decide) hp hf rfl rfl rfl hstep
  rw [bodiesOf_judgePermission (by decide), bodiesOf_feed] at hn
  refine hn.of_eq ?_
  cases p <;> cases note <;> simp [feedNotice, portEvent, portNotice, PerPort.get, PerPort.set]

/-- What an event leaves that has acted at one port alone: the record, one FEED notice where its state was noted, and the one
occurrence. -/
theorem event_port {s : State} {f : State → State} {p : PortId} {y : PortRec} {note : Option PortNote} {items : List Nat} (hp : Powered s)
    (hf : f (s.setEv {}) = portEvent s p y note items) (hl : s.alarms.records.length = 36 ∨ items = []) :
    ∃ t, event f s = .next t ∧ AfterEvent items { s with feed := { s.feed with ports := s.feed.ports.set p y } } t ∧
      Noticed 2 (portNotice p y note) s t ∧ ∀ item, items = [item] → 1 ≤ item → item ≤ 36 → Occurred item s t := by
  obtain ⟨t, hstep, hafter⟩ := afterEvent_intro (is := items) (f := f)
    (u := { s with feed := { s.feed with ports := s.feed.ports.set p y } }) hp hf rfl hl
  refine ⟨t, hstep, hafter, noticed_port hp hf hstep, fun item hi h1 h36 => ?_⟩
  subst hi
  exact occurred_event h1 h36 hp hf rfl rfl rfl rfl (hl.resolve_right (by simp)) hstep

/-! ## The hunt (R25, R26) -/

theorem findAlignment_portEvent (s : State) (p : PortId) (y : PortRec) (phase : Nat) (hm : y.mode = .searching) :
    findAlignment p phase (portEvent s p y none []) = portEvent s p
      { y with
        mode := .impaired, average := 32768, degrade := 0, recover := 0, wrongSync := 0, packetPhase := some phase,
        firstByte := some s.clock.time, assembling := false, opened := none,
        continuity := (feedStreams s).map (fun stream => (stream, none)),
        deadline := some (s.clock.time + 2 * (s.live.em.period : Int)) }
      (some ⟨.searching, 32768⟩) [impairedItem p] := by
  unfold findAlignment
  simp only [portRec_portEvent, setPort_portEvent, setPortMode_portEvent, alignContinuity_portEvent, occur_portEvent,
    portEvent_clock, portEvent_period]
  rw [noteAfter_of_ne (by simp [hm]), inMode_of_ne (by simp [hm])]
  simp [hm]

/-- The record after the hunt has examined a byte that does not complete a run of 5 (R26). -/
def huntedRec (y : PortRec) (run : Nat) : PortRec := { y with runs := y.runs.set y.phase run, phase := (y.phase + 1) % 188 }

/-- The run of the present phase after a byte (R26). -/
def runAfter (y : PortRec) (byte : Byte) : Nat := if byte = 0x47 then y.runs.getD y.phase 0 + 1 else 0

theorem huntByte_portEvent (s : State) (p : PortId) (y : PortRec) (note : Option PortNote) (byte : Byte) :
    huntByte p byte (portEvent s p y note []) =
      if 5 ≤ runAfter y byte then findAlignment p y.phase (portEvent s p (huntedRec y (runAfter y byte)) note [])
      else portEvent s p (huntedRec y (runAfter y byte)) note [] := by
  unfold huntByte
  simp only [portRec_portEvent, setPort_portEvent]
  rfl

/-- A byte at a port that is neither disabled, dark nor aligned goes to the hunt. -/
theorem feedByteEffect_searching (s : State) (p : PortId) (byte : Byte) (hm : (s.feed.ports.get p).mode = .searching) :
    feedByteEffect p byte (s.setEv {}) =
      huntByte p byte (portEvent s p { s.feed.ports.get p with lastByte := s.clock.cycles } none []) := by
  rw [portEvent_start s p]
  simp [feedByteEffect, hm, isAligned]

/-- A byte at a dark port takes it to SEARCHING and goes to the hunt. -/
theorem feedByteEffect_dark (s : State) (p : PortId) (byte : Byte) (hm : (s.feed.ports.get p).mode = .dark) :
    feedByteEffect p byte (s.setEv {}) =
      huntByte p byte (portEvent s p
        { s.feed.ports.get p with lastByte := s.clock.cycles, mode := .searching, degrade := 0, recover := 0 }
        (some ⟨.dark, (s.feed.ports.get p).average⟩) []) := by
  rw [portEvent_start s p]
  simp [feedByteEffect, hm, isAligned, inMode, noteAfter]

theorem exec_feedByte (p : PortId) (byte : Byte) (s : State) : exec (.feedByte p byte) s = event (feedByteEffect p byte) s := rfl

/-- Settles O36: a byte at a dark or a searching port goes to the hunt, which moves one run or finds alignment. -/
theorem huntFindsAlignment : Obligations.HuntFindsAlignment := by
  intro s p byte hp x run hunted
  have hrun : runAfter x byte = run := rfl
  refine ⟨fun hm hr => ?_, fun hm hr => ?_, fun hm hr hl => ?_⟩
  · have hf := feedByteEffect_dark s p byte hm
    rw [huntByte_portEvent, if_neg (by exact not_le.mpr hr)] at hf
    obtain ⟨t, hstep, hafter, hnoticed, -⟩ := event_port hp hf (.inr rfl)
    exact ⟨t, (exec_feedByte ..).trans hstep, hafter, hnoticed.of_eq (portNotice_codes rfl (after := .searching) rfl rfl)⟩
  · have hf := feedByteEffect_searching s p byte hm
    rw [huntByte_portEvent, if_neg (by exact not_le.mpr hr)] at hf
    obtain ⟨t, hstep, hafter, hnoticed, -⟩ := event_port hp hf (.inr rfl)
    exact ⟨t, (exec_feedByte ..).trans hstep, hafter, hnoticed⟩
  · have hf := feedByteEffect_searching s p byte hm
    rw [huntByte_portEvent, if_pos (by exact hr), findAlignment_portEvent _ _ _ _ (by exact hm)] at hf
    obtain ⟨t, hstep, hafter, hnoticed, hoccurred⟩ := event_port hp hf (.inl hl)
    exact ⟨t, (exec_feedByte ..).trans hstep, hafter, hnoticed.of_eq (portNotice_codes rfl (after := .impaired) rfl rfl),
      hoccurred _ rfl (by cases p <;> decide) (by cases p <;> decide)⟩

/-! ## Alignment lost (R25, R27) -/

/-- A port that has lost alignment, with its alignment state at its start values (R25, R27). -/
def lostRec (y : PortRec) (m : PortMode) : PortRec :=
  { y with
    mode := m, runs := List.replicate 188 0, phase := 0, packetPhase := none, firstByte := none, wrongSync := 0, assembling := false,
    opened := none, continuity := [], deadline := none, degrade := 0, recover := 0 }

theorem loseSync_portEvent (s : State) (p : PortId) (y : PortRec) (hm : y.mode ≠ .searching) :
    loseSync p (portEvent s p y none []) = portEvent s p
      { lostRec y .searching with counts := { y.counts with alignmentLosses := min 65535 (y.counts.alignmentLosses + 1) } }
      (some ⟨y.mode, y.average⟩) [failedItem p] := by
  unfold loseSync
  simp only [sat_eq_min, countPort_portEvent, loseAlignment_portEvent, setPortMode_portEvent, occur_portEvent]
  rw [noteAfter_of_ne (by exact hm), inMode_of_ne (by exact hm)]
  rfl

theorem not_searching_of_isAligned {m : PortMode} (h : isAligned m = true) : m ≠ .searching := by
  rintro rfl
  exact absurd h (by decide)

theorem exec_feedPacket (p : PortId) (sync : Byte) (rest : List Byte) (s : State) :
    exec (.feedPacket p sync rest) s = event (feedPacketEffect p (sync :: rest)) s := rfl

/-- A packet at an aligned port is taken with the stamp of its first byte. -/
theorem feedPacketEffect_aligned {s : State} {p : PortId} (k : Packet) (ha : isAligned (s.feed.ports.get p).mode = true) :
    feedPacketEffect p k (s.setEv {}) =
      alignedPacket p ((s.feed.ports.get p).firstByte.getD s.clock.time) k
        (portEvent s p { s.feed.ports.get p with lastByte := s.clock.cycles, firstByte := none } none []) := by
  rw [portEvent_start s p]
  simp [feedPacketEffect, ha]

/-- Settles O38: a packet of wrong sync at an aligned port, after two others, loses the alignment. -/
theorem thirdDamagedPacketEndsAlignment : Obligations.ThirdDamagedPacketEndsAlignment := by
  intro s p sync rest hp ha hsync hwrong hl x
  have hf := feedPacketEffect_aligned (sync :: rest) ha
  unfold alignedPacket at hf
  simp only [sat_eq_min, hsync, portRec_portEvent, setPort_portEvent, Bool.false_eq_true, if_false] at hf
  rw [if_pos (by omega), loseSync_portEvent _ _ _ (by exact not_searching_of_isAligned ha)] at hf
  obtain ⟨t, hstep, hafter, hnoticed, hoccurred⟩ := event_port hp hf (.inl hl)
  exact ⟨t, (exec_feedPacket ..).trans hstep, hafter, hoccurred _ rfl (by cases p <;> decide) (by cases p <;> decide),
    hnoticed.of_eq (portNotice_code (after := .searching) rfl rfl)⟩

theorem exec_lineActivityExpiry (p : PortId) (s : State) : exec (.lineActivityExpiry p) s = event (lineActivityEffect p) s := rfl

/-- An expiry at a port that is neither disabled nor dark (R25). -/
theorem lineActivityEffect_lit {s : State} {p : PortId} (hd : (s.feed.ports.get p).mode ≠ .disabled) (hk : (s.feed.ports.get p).mode ≠ .dark)
    (hdue : (s.feed.ports.get p).lastByte + 100000 ≤ s.clock.cycles) :
    lineActivityEffect p (s.setEv {}) =
      let x := s.feed.ports.get p
      let note : PortNote := ⟨x.mode, x.average⟩
      if isAligned x.mode then
        portEvent s p { lostRec x .dark with counts := { x.counts with darkness := min 65535 (x.counts.darkness + 1) } } (some note) [failedItem p]
      else portEvent s p (lostRec x .dark) (some note) [] := by
  rw [portEvent_start s p]
  simp only [lineActivityEffect, sat_eq_min, portRec_portEvent, loseAlignment_portEvent, setPortMode_portEvent, portEvent_clock]
  rw [if_pos ⟨hd, hk, hdue⟩, noteAfter_of_ne (by exact hk), inMode_of_ne (by exact hk)]
  simp only [countPort_portEvent, occur_portEvent]
  rfl

/-- Settles O39: by whether the port was aligned. -/
theorem lineActivityExpiryDarkens : Obligations.LineActivityExpiryDarkens := by
  intro s p hp hdue x dark
  refine ⟨fun hm => ?_, fun ha hl => ?_⟩
  · have hm' : (s.feed.ports.get p).mode = .searching := hm
    have hf := lineActivityEffect_lit (s := s) (p := p) (by simp [hm']) (by simp [hm']) hdue
    simp only [hm', isAligned, Bool.false_eq_true, if_false] at hf
    obtain ⟨t, hstep, hafter, hnoticed, -⟩ := event_port hp hf (.inr rfl)
    exact ⟨t, (exec_lineActivityExpiry ..).trans hstep, hafter, hnoticed.of_eq (portNotice_codes rfl (after := .dark) rfl rfl)⟩
  · have hne : ∀ m, isAligned m = false → (s.feed.ports.get p).mode ≠ m := by
      rintro m hm rfl
      exact absurd (ha.symm.trans hm) (by decide)
    have hf := lineActivityEffect_lit (s := s) (p := p) (hne _ rfl) (hne _ rfl) hdue
    rw [if_pos ha] at hf
    obtain ⟨t, hstep, hafter, hnoticed, hoccurred⟩ := event_port hp hf (.inl hl)
    exact ⟨t, (exec_lineActivityExpiry ..).trans hstep, hafter, hoccurred _ rfl (by cases p <;> decide) (by cases p <;> decide),
    hnoticed.of_eq (portNotice_code (after := .dark) rfl rfl)⟩

/-! ## Verdicts (R37 to R39) -/

/-- A port record with the health that `healthAfter` gives for its average (R38). -/
def judgedRec (q : FeedParams) (y : PortRec) : PortRec :=
  let h := healthAfter q y.mode y.average y.degrade y.recover
  { y with mode := h.1, degrade := h.2.1, recover := h.2.2 }

theorem impairedItem_eq (p : PortId) : impairedItem p = 7 + p.num := by cases p <;> rfl
theorem failedItem_eq (p : PortId) : failedItem p = 9 + p.num := by cases p <;> rfl

/-- The health of a port judged: the record, the FEED note of a change, and the item of an entry to IMPAIRED or FAILED (R38, R42). -/
theorem judgeHealth_portEvent (s : State) (p : PortId) (y : PortRec) (note : Option PortNote) (items : List Nat) :
    judgeHealth p (portEvent s p y note items) = portEvent s p (judgedRec s.live.feed y)
      (noteAfter y (judgedRec s.live.feed y).mode note) (items ++ healthItems p y.mode (judgedRec s.live.feed y).mode) := by
  have hlt (q : Nat) : ((y.average : Int) < q - s.live.feed.hysteresis) ↔ y.average + s.live.feed.hysteresis < q := by omega
  unfold judgeHealth judgedRec
  simp only [portRec_portEvent, setPort_portEvent, portEvent_live, Int.ofNat_le, hlt, enterImpaired, enterFailed,
    setPortMode_portEvent, occur_portEvent, impairedItem_eq, failedItem_eq, sat_eq_min]
  cases hm : y.mode with
  | good =>
    dsimp only [healthAfter]
    generalize (if s.live.feed.impair ≤ y.average then min 15 (y.degrade + 1) else 0) = d
    by_cases hd : s.live.feed.enter ≤ d
    · simp [hd, hm, inMode, noteAfter, healthItems]
    · simp [hd, hm, noteAfter, healthItems]
  | impaired =>
    dsimp only [healthAfter]
    generalize (if s.live.feed.fail ≤ y.average then min 15 (y.degrade + 1) else 0) = d
    generalize (if y.average + s.live.feed.hysteresis < s.live.feed.impair then min 15 (y.recover + 1) else 0) = r
    by_cases hd : s.live.feed.enter ≤ d
    · simp [hd, hm, inMode, noteAfter, healthItems]
    · by_cases hr : s.live.feed.exit ≤ r
      · simp [hd, hr, hm, inMode, noteAfter, healthItems]
      · simp [hd, hr, hm, noteAfter, healthItems]
  | failed =>
    dsimp only [healthAfter]
    generalize (if y.average + s.live.feed.hysteresis < s.live.feed.fail then min 15 (y.recover + 1) else 0) = r
    by_cases hr : s.live.feed.exit ≤ r
    · simp [hr, hm, inMode, noteAfter, healthItems]
    · simp [hr, hm, noteAfter, healthItems]
  | disabled =>
    simp only [healthAfter, noteAfter, hm, healthItems, if_true, List.append_nil]
    rw [← hm]
  | dark =>
    simp only [healthAfter, noteAfter, hm, healthItems, if_true, List.append_nil]
    rw [← hm]
  | searching =>
    simp only [healthAfter, noteAfter, hm, healthItems, if_true, List.append_nil]
    rw [← hm]

/-- The record after a verdict: the average moved, the deadline set, and the health judged (R37, R38, R39). -/
def verdictRec (s : State) (y : PortRec) (v : Verdict) (deadline : Option Int) : PortRec :=
  judgedRec s.live.feed
    { y with
      average := averageAfter s.live.feed.healthShift y.average (sampleOf v), counts := countVerdict v y.counts, deadline := deadline }

/-- The average in the FEED note of a verdict that changes the state is the one that the verdict gives. -/
theorem giveVerdict_portEvent (s : State) (p : PortId) (y : PortRec) (v : Verdict) (note : Option PortNote) (items : List Nat) :
    giveVerdict p v (portEvent s p y note items) =
      let deadline := if v = .silence then y.deadline.map (· + (s.live.em.period : Int))
        else some (s.clock.time + 2 * (s.live.em.period : Int))
      let z := verdictRec s y v deadline
      portEvent s p z (noteAfter { y with average := z.average } z.mode note) (items ++ healthItems p y.mode z.mode) := by
  unfold giveVerdict
  simp only [portRec_portEvent, setPort_portEvent, judgeHealth_portEvent, portEvent_live, portEvent_clock, portEvent_period]
  rfl

/-- A verdict other than SILENCE gives the record that statements call `scoredPort` (R37 to R39). -/
theorem verdictRec_scored (s : State) (y : PortRec) (v : Verdict) :
    verdictRec s y v (some (s.clock.time + 2 * (s.live.em.period : Int))) =
      scoredPort s { y with counts := countVerdict v y.counts } (sampleOf v) := rfl

/-- An aligned port stays aligned at a verdict. -/
theorem isAligned_healthAfter (q : FeedParams) (m : PortMode) (a d r : Nat) : isAligned (healthAfter q m a d r).1 = isAligned m := by
  unfold healthAfter
  cases m with
  | good => dsimp only; split_ifs <;> rfl
  | impaired => dsimp only; split_ifs <;> rfl
  | failed => dsimp only; split_ifs <;> rfl
  | disabled => rfl
  | dark => rfl
  | searching => rfl

theorem exec_silenceDeadline (p : PortId) (s : State) : exec (.silenceDeadline p) s = event (silenceEffect p) s := rfl

/-- The average after a SILENCE verdict is not cut off at 0 (R37). -/
theorem averageAfter_silence {a : Nat} (h : a ≤ 65535) (shift : Nat) :
    (averageAfter shift a 65535 : Int) = a + (65535 - a) / (2 : Int) ^ shift := by
  have hdiv : 0 ≤ (65535 - (a : Int)) / (2 : Int) ^ shift := Int.ediv_nonneg (by omega) (by positivity)
  exact Int.toNat_of_nonneg (by omega)

/-- Settles O40: a port that is GOOD or IMPAIRED receives the verdict, and one that is FAILED loses its deadline. -/
theorem silenceDeadlineGivesAVerdict : Obligations.SilenceDeadlineGivesAVerdict := by
  intro s p d hp hd hdue x
  have hstart := portEvent_start s p
  refine ⟨fun hm ha => ?_, fun hm => ?_⟩
  · have hal : isAligned x.mode = true := by rcases hm with h | h <;> rw [h] <;> rfl
    have hf : silenceEffect p (s.setEv {}) = giveVerdict p .silence (portEvent s p x none []) := by
      rw [hstart]
      unfold silenceEffect
      simp only [portRec_portEvent, hd, portEvent_clock, if_pos hdue]
      rcases hm with h | h <;> simp only [x, h] at *
    rw [giveVerdict_portEvent] at hf
    simp only [if_true, show x.deadline = some d from hd, Option.map_some, List.nil_append] at hf
    generalize hz : verdictRec s x .silence (some (d + (s.live.em.period : Int))) = z at hf
    obtain ⟨t, hstep, hleft⟩ := event_left hp hf
    have hport : t.feed.ports.get p = z := by rw [hleft.feed]; simp
    have hmode : z.mode = (healthAfter s.live.feed x.mode z.average x.degrade x.recover).1 := by rw [← hz]; rfl
    refine ⟨t, (exec_silenceDeadline ..).trans hstep, ?_, ?_, ?_, ?_, ?_, hleft.store, hleft.em, hleft.clock, hleft.mem⟩
    · rw [hport, ← hz]
      exact averageAfter_silence ha _
    · rw [hport, ← hz, ← sat_eq_min]
      rfl
    · rw [hport, ← hz]
      rfl
    · rw [hport, hmode, isAligned_healthAfter, hal]
    · refine (noticed_port hp hf hstep).of_eq ?_
      rw [hport]
      unfold noteAfter
      by_cases h : z.mode = x.mode
      · rw [if_pos h, if_pos h.symm]; rfl
      · rw [if_neg h, if_neg (Ne.symm h)]; rfl
  · have hf : silenceEffect p (s.setEv {}) = portEvent s p { x with deadline := none } none [] := by
      rw [hstart]
      unfold silenceEffect
      have hm' : (s.feed.ports.get p).mode = .failed := hm
      simp only [portRec_portEvent, hd, portEvent_clock, if_pos hdue, setPort_portEvent]
      rw [hm']
    obtain ⟨t, hstep, hafter, -, -⟩ := event_port hp hf (.inr rfl)
    exact ⟨t, (exec_silenceDeadline ..).trans hstep, hafter⟩

end Sys2Proof.Machine
end

section
/-! SUPPORT. Judging cues and leaving RUNNING read Splicing's tables, the clip records and the settings alone, and add to the report: what
stands elsewhere, and what was reported before, passes through them. -/

namespace Sys2Proof.Machine
open Sys2Proof

/-- The tables that Splicing's operations read, of `s`, in the state `r`. What `e` reports stands before the items and the SPLICE occasions
of `s`. -/
def cueOver (r : State) (e : Report) (s : State) : State :=
  { r with
    splice := s.splice, clips := s.clips, live := s.live,
    ev := { e with items := e.items ++ s.ev.items, splice := e.splice ++ s.ev.splice } }

section
variable (r : State) (e : Report) (s : State)

@[simp] theorem cueOver_splice : (cueOver r e s).splice = s.splice := rfl
@[simp] theorem cueOver_clips : (cueOver r e s).clips = s.clips := rfl
@[simp] theorem cueOver_live : (cueOver r e s).live = s.live := rfl
@[simp] theorem cueOver_serviceOf (n : Nat) : serviceOf (cueOver r e s) n = serviceOf s n := rfl
@[simp] theorem cueOver_clipRec (n : Nat) : clipRec (cueOver r e s) n = clipRec s n := rfl
@[simp] theorem cueOver_planFor (a b : Nat) : planFor (cueOver r e s) a b = planFor s a b := rfl
@[simp] theorem cueOver_clipUsable (n : Nat) : clipUsable (cueOver r e s) n = clipUsable s n := rfl
@[simp] theorem cueOver_cueOf (n : Nat) : cueOf (cueOver r e s) n = cueOf s n := rfl
@[simp] theorem cueOver_orderedCues : orderedCues (cueOver r e s) = orderedCues s := rfl
@[simp] theorem cueOver_serviceBound (n : Nat) : serviceBound (cueOver r e s) n = serviceBound s n := rfl
@[simp] theorem cueOver_idleChannel : idleChannel (cueOver r e s) = idleChannel s := rfl
@[simp] theorem cueOver_candidate : candidate (cueOver r e s) = candidate s := rfl

@[simp] theorem cueOver_setSplice (x : SpliceState) : (cueOver r e s).setSplice x = cueOver r e (s.setSplice x) := rfl
@[simp] theorem cueOver_countCue (f : CueCounts → CueCounts) : countCue f (cueOver r e s) = cueOver r e (countCue f s) := rfl
@[simp] theorem cueOver_countDropped : countDropped (cueOver r e s) = cueOver r e (countDropped s) := rfl
@[simp] theorem cueOver_countMissed : countMissed (cueOver r e s) = cueOver r e (countMissed s) := rfl
@[simp] theorem cueOver_countUnfilled : countUnfilled (cueOver r e s) = cueOver r e (countUnfilled s) := rfl
@[simp] theorem cueOver_countRepeat : countRepeat (cueOver r e s) = cueOver r e (countRepeat s) := rfl
@[simp] theorem cueOver_setCues (x : List CueEntry) : setCues x (cueOver r e s) = cueOver r e (setCues x s) := rfl
@[simp] theorem cueOver_editCue (a : Nat) (f : CueEntry → CueEntry) : editCue a f (cueOver r e s) = cueOver r e (editCue a f s) := rfl
@[simp] theorem cueOver_removeCue (a : Nat) : removeCue a (cueOver r e s) = cueOver r e (removeCue a s) := rfl
@[simp] theorem cueOver_setChannel (n : Four) (c : Option Channel) : setChannel n c (cueOver r e s) = cueOver r e (setChannel n c s) := rfl
@[simp] theorem cueOver_noteChannel (n : Four) (c : Channel) (o x : Nat) :
    noteChannel n c o x (cueOver r e s) = cueOver r e (noteChannel n c o x s) := by
  simp only [noteChannel, noteSplice, cueOver, State.setEv, startedSeq, List.append_assoc]
@[simp] theorem cueOver_releaseChannel (n : Four) (c : Channel) :
    releaseChannel n c (cueOver r e s) = cueOver r e (releaseChannel n c s) := rfl
@[simp] theorem cueOver_disarm (n : Four) (c : Channel) : disarm n c (cueOver r e s) = cueOver r e (disarm n c s) := by
  simp only [disarm, cueOver_noteChannel, cueOver_releaseChannel]
@[simp] theorem cueOver_bindChannel (n : Four) (c : CueEntry) (p : Plan) :
    bindChannel n c p (cueOver r e s) = cueOver r e (bindChannel n c p s) := by
  unfold bindChannel
  dsimp only
  rw [← cueOver_noteChannel]
  rfl
@[simp] theorem cueOver_clearOffsets : clearOffsets (cueOver r e s) = cueOver r e (clearOffsets s) := rfl

@[simp] theorem cueOver_occur (i : Nat) : occur i (cueOver r e s) = cueOver r e (occur i s) := by
  simp only [occur, cueOver, State.setEv, List.append_assoc]

@[simp] theorem cueOver_turnUnfilled (a : Nat) : turnUnfilled a (cueOver r e s) = cueOver r e (turnUnfilled a s) := by
  simp only [turnUnfilled, cueOver_editCue, cueOver_countUnfilled, cueOver_occur]

end

/-- An operation that reads Splicing's tables, the clip records and the settings alone, and writes none but the first two and the
report. -/
def CueLocal (f : State → State) : Prop := ∀ r e s, f (cueOver r e s) = cueOver r e (f s)

/-- The same of an operation that also gives a result. -/
def CueLocalWith {α : Type} (f : State → State × α) : Prop := ∀ r e s, f (cueOver r e s) = (cueOver r e (f s).1, (f s).2)

theorem cueLocal_arbitrateLoop (fuel : Nat) (n : Four) : CueLocal (arbitrateLoop fuel n) := by
  induction fuel with
  | zero => exact fun _ _ _ => rfl
  | succ fuel ih =>
    intro r e s
    unfold arbitrateLoop
    simp only [cueOver_candidate, cueOver_serviceOf, cueOver_planFor, cueOver_clipUsable, cueOver_removeCue, cueOver_countDropped,
      cueOver_occur, cueOver_turnUnfilled, cueOver_bindChannel]
    split
    · rfl
    · split
      · exact ih ..
      · split
        · exact ih ..
        · split
          · rfl
          · exact ih ..

theorem cueLocal_arbitrate (n : Four) : CueLocal (arbitrate n) := by
  intro r e s
  unfold arbitrate
  simp only [cueOver_splice]
  by_cases h : (s.splice.channels.get n).isNone = true
  · rw [if_pos h]
    refine (if_pos h).trans ?_
    exact cueLocal_arbitrateLoop ..
  · rw [if_neg h]
    exact if_neg h

theorem cueLocal_markResync (service : Nat) : CueLocal (markResync service) := by
  intro r e s
  unfold markResync
  simp only [cueOver_serviceOf]
  split <;> rfl

theorem cueLocal_endSplice (n : Four) (c : Channel) (reason : ReturnReason) : CueLocal (endSplice n c reason) := by
  intro r e s
  unfold endSplice
  simp only [cueOver_noteChannel, cueOver_releaseChannel, cueLocal_markResync _ _ _ _, cueOver_occur]
  split <;> rfl

theorem cueLocal_returnChannel (n : Four) (c : Channel) (reason : ReturnReason) : CueLocal (returnChannel n c reason) := by
  intro r e s
  unfold returnChannel
  simp only [cueLocal_endSplice _ _ _ _ _ _, cueLocal_arbitrate _ _ _ _]
  split <;> rfl

theorem cueLocal_enterCue (c : OutCue) (again : Bool) (m : CueMode) : CueLocal (enterCue c again m) := by
  intro r e s
  unfold enterCue
  split <;> rfl

theorem cueLocal_enterUnfilled (c : OutCue) (again : Bool) : CueLocal (enterUnfilled c again) := by
  intro r e s
  simp only [enterUnfilled, cueLocal_enterCue _ _ _ _ _ _, cueOver_countUnfilled, cueOver_occur]

theorem cueLocal_placeCue (c : OutCue) (again : Bool) : CueLocalWith (placeCue c again) := by
  intro r e s
  unfold placeCue
  simp only [cueOver_serviceOf, cueOver_splice, cueOver_planFor, cueOver_serviceBound, cueOver_idleChannel, cueOver_clipUsable]
  by_cases hs : (!((serviceOf s c.service).any Service.eligible)) = true
  · rw [if_pos hs]
    refine (if_pos hs).trans ?_
    cases again
    · simp only [Bool.false_eq_true, if_false, cueOver_countDropped, cueOver_occur]
    · simp only [if_true, cueOver_removeCue, cueOver_countDropped, cueOver_occur]
  · rw [if_neg hs]
    refine (if_neg hs).trans ?_
    by_cases hn : (!again && decide (16 ≤ s.splice.cues.length)) = true
    · rw [if_pos hn]
      refine (if_pos hn).trans ?_
      simp only [cueOver_countMissed, cueOver_occur]
    · rw [if_neg hn]
      refine (if_neg hn).trans ?_
      cases planFor s c.avail c.service with
      | none => simp only [cueLocal_enterUnfilled _ _ _ _ _]
      | some p =>
        have harm : ∀ n, (if clipUsable s p.clip = true then
              match cueOf (enterCue c again .armed s) c.avail with
              | some q => (cueOver r e (bindChannel n q p (enterCue c again .armed s)), CueOutcome.armed)
              | none => (cueOver r e (enterCue c again .armed s), .armed)
            else (cueOver r e (enterUnfilled c again s), .unfilled)) =
            let x := if clipUsable s p.clip = true then
                match cueOf (enterCue c again .armed s) c.avail with
                | some q => (bindChannel n q p (enterCue c again .armed s), CueOutcome.armed)
                | none => (enterCue c again .armed s, .armed)
              else (enterUnfilled c again s, .unfilled)
            (cueOver r e x.1, x.2) := by
          intro n
          cases clipUsable s p.clip with
          | false => rfl
          | true => cases cueOf (enterCue c again .armed s) c.avail <;> rfl
        simp only [cueLocal_enterCue _ _ _ _ _ _, cueLocal_enterUnfilled _ _ _ _ _, cueOver_cueOf, cueOver_bindChannel]
        by_cases hb : serviceBound s c.service = true
        · simp only [hb, if_true]
        · simp only [hb, Bool.false_eq_true, if_false]
          cases idleChannel s with
          | none => rfl
          | some n => exact harm n

theorem cueLocal_judgeNewCue (c : OutCue) : CueLocalWith (judgeNewCue c) := by
  intro r e s
  unfold judgeNewCue
  simp only [cueOver_live]
  by_cases h : Seq.distance c.carrying c.start < s.live.armingLead
  · rw [if_pos h]
    refine (if_pos h).trans ?_
    simp only [cueOver_countMissed, cueOver_occur]
  · rw [if_neg h]
    refine (if_neg h).trans ?_
    exact cueLocal_placeCue ..

theorem cueLocal_reviseCue (c : OutCue) (held : CueEntry) : CueLocalWith (reviseCue c held) := by
  intro r e s
  unfold reviseCue
  simp only [cueOver_countCue, cueOver_splice, cueOver_disarm, cueOver_removeCue]
  split
  · split <;> simp only [cueLocal_judgeNewCue _ _ _ _, cueLocal_arbitrate _ _ _ _]
  · simp only [cueLocal_judgeNewCue _ _ _ _]

theorem cueLocal_judgeOut (c : OutCue) : CueLocalWith (judgeOut c) := by
  intro r e s
  unfold judgeOut
  simp only [cueOver_cueOf, cueOver_countRepeat, cueOver_live, cueOver_countCue, cueLocal_judgeNewCue _ _ _ _,
    cueLocal_placeCue _ _ _ _ _, cueLocal_reviseCue _ _ _ _ _]
  split
  · rfl
  · split
    · split <;> rfl
    · split <;> rfl

theorem cueLocal_judgeIn (avail : Nat) (x : Seq) : CueLocalWith (judgeIn avail x) := by
  intro r e s
  unfold judgeIn
  simp only [cueOver_cueOf, cueOver_splice, cueOver_countCue, cueOver_editCue, cueOver_setChannel]
  split
  · split
    · split
      · split <;> rfl
      · rfl
    · rfl
  · rfl

theorem cueLocal_judgeCancel (avail : Nat) : CueLocalWith (judgeCancel avail) := by
  intro r e s
  unfold judgeCancel
  simp only [cueOver_cueOf, cueOver_splice, cueOver_countCue, cueOver_disarm, cueOver_removeCue, cueLocal_arbitrate _ _ _ _]
  split
  · rfl
  · split
    · rfl
    · split
      · split <;> rfl
      · rfl

theorem cueLocal_judgeCue (d : CueData) (source : CueSource) (q : Seq) : CueLocalWith (judgeCue d source q) := by
  intro r e s
  unfold judgeCue
  split
  · exact cueLocal_judgeOut ..
  · split
    · exact cueLocal_judgeIn ..
    · exact cueLocal_judgeCancel ..

theorem cueLocal_networkCues (q : Seq) (cues : List CueData) : CueLocal (networkCues q cues) := by
  intro r e s
  unfold networkCues
  induction cues generalizing s with
  | nil => rfl
  | cons d rest ih =>
    simp only [List.foldl_cons, cueOver_countDropped, cueLocal_judgeCue _ _ _ _ _ _]
    rw [← ih]
    split <;> rfl

theorem cueLocal_fold {α : Type} {f : State → α → State} (hf : ∀ x r e s, f (cueOver r e s) x = cueOver r e (f s x)) (xs : List α) (r : State)
    (e : Report) (s : State) : xs.foldl f (cueOver r e s) = cueOver r e (xs.foldl f s) := by
  induction xs generalizing s with
  | nil => rfl
  | cons x xs ih =>
    simp only [List.foldl_cons]
    rw [hf, ih]

theorem cueLocal_spliceAnchoring : CueLocal spliceAnchoring := by
  have hone : ∀ n r e s, reAnchorChannel (cueOver r e s) n = cueOver r e (reAnchorChannel s n) := by
    intro n r e s
    unfold reAnchorChannel
    simp only [cueOver_splice, cueLocal_returnChannel _ _ _ _ _ _]
    split
    · split <;> rfl
    · rfl
  intro r e s
  unfold spliceAnchoring
  rw [cueLocal_fold hone, cueOver_clearOffsets]

/-! ## The tests of R48, one equation for each outcome -/

/-- Both runs as an offer that passes every test leaves them (R62, R63). -/
def runsCleared (s : State) : State :=
  s.setStore { s.store with jumpRun := 0, mismatchRun := if s.live.em.singleSite then s.store.mismatchRun else 0 }

theorem settleOffer_held {s : State} {o : Offer} {h : Held} (hs : slotOf s o.timing.seq = .held h) (i : Int) :
    settleOffer o i s = compareCopy o i h (runsCleared s) := by
  have hslot : slotOf (runsCleared s) o.timing.seq = .held h := hs
  unfold settleOffer
  change (match slotOf (runsCleared s) o.timing.seq with | .held h => compareCopy o i h (runsCleared s) | _ => admitCopy o i (runsCleared s)) = _
  rw [hslot]

theorem settleOffer_unheld {s : State} {o : Offer} (hs : ∀ h, slotOf s o.timing.seq ≠ .held h) (i : Int) :
    settleOffer o i s = admitCopy o i (runsCleared s) := by
  have hslot : ∀ h, slotOf (runsCleared s) o.timing.seq ≠ .held h := hs
  unfold settleOffer
  change (match slotOf (runsCleared s) o.timing.seq with | .held h => compareCopy o i h (runsCleared s) | _ => admitCopy o i (runsCleared s)) = _
  split
  · rename_i h heq
    exact absurd heq (hslot h)
  · rfl

/-- Tests 7 to 10, for an offer in the window whose slot is not TAKEN (R49, R53). -/
def judgeInWindow (o : Offer) (a : Anchor) (b : Seq) (s : State) : State :=
  if windowLate s a b o then countOffer o.port (fun c => { c with late := sat 65535 (c.late + 1) }) s
  else if !s.live.em.singleSite && !consistent s a b o then
    mismatchStep (countOffer o.port (fun c => { c with mismatch := sat 65535 (c.mismatch + 1) }) s)
  else settleOffer o (windowInstant s a b o) s

section
variable {s : State} {o : Offer} {a : Anchor} {b : Seq}

theorem judgeWindow_before (hd : Seq.distance b o.timing.seq < 0) : judgeWindow o a b s = staleOffer o s := if_pos hd

theorem judgeWindow_beyond (hd : 64 ≤ Seq.distance b o.timing.seq) : judgeWindow o a b s = aheadOffer o s :=
  (if_neg (by omega)).trans (if_pos hd)

theorem judgeWindow_taken (h0 : 0 ≤ Seq.distance b o.timing.seq) (h64 : Seq.distance b o.timing.seq < 64) {q : Seq} {c : Option Held}
    (hs : slotOf s o.timing.seq = .taken q c) : judgeWindow o a b s = staleOffer o s := by
  refine (if_neg (by omega)).trans ((if_neg (by omega)).trans ?_)
  rw [hs]

theorem judgeWindow_open (h0 : 0 ≤ Seq.distance b o.timing.seq) (h64 : Seq.distance b o.timing.seq < 64)
    (hs : ∀ q c, slotOf s o.timing.seq ≠ .taken q c) : judgeWindow o a b s = judgeInWindow o a b s := by
  refine (if_neg (by omega)).trans ((if_neg (by omega)).trans ?_)
  cases hslot : slotOf s o.timing.seq with
  | taken q c => exact absurd hslot (hs q c)
  | free => rfl
  | held h => rfl

/-- An offer outside OFF, without a step mark, with an anchor and a window (R48, tests 1 to 3). -/
theorem takeOffer_windowed (hm : s.em.mode ≠ .off) (hk : s.store.marks.get o.port = false) (ha : s.em.anchor = some a)
    (hb : s.store.base = some b) : takeOffer o s = judgeWindow o a b s := by
  refine (if_neg hm).trans ((if_neg (by simp [hk])).trans ?_)
  rw [ha, hb]

end

/-- A report without its alarm items and SPLICE occasions. -/
def Report.withoutCues (e : Report) : Report := { e with items := [], splice := [] }

/-- What an operation on the cue table leaves: every other block, and every other part of the report. -/
theorem CueLocal.frame {f : State → State} (hf : CueLocal f) (s : State) : f s = cueOver s s.ev.withoutCues (f s) :=
  hf s s.ev.withoutCues s

/-- What an operation on the cue table reports stands after what was reported before. -/
theorem CueLocal.adds {f : State → State} (hf : CueLocal f) (s : State) : f s = cueOver s s.ev (f (s.setEv s.ev.withoutCues)) := by
  refine Eq.trans (congrArg f ?_) (hf s s.ev (s.setEv s.ev.withoutCues))
  simp only [cueOver, State.setEv, Report.withoutCues, List.append_nil]

/-! ## What was reported before passes through the Frame Store -/

/-- The report `e` set before the items and the occasions that `s` reports. -/
def withEarlier (e : Report) (s : State) : State :=
  s.setEv { e with
    items := e.items ++ s.ev.items, splice := e.splice ++ s.ev.splice, emission := e.emission ++ s.ev.emission }

/-- An operation that neither reads what was reported before it nor changes it. -/
def KeepsEarlier (f : State → State) : Prop := ∀ e s, f (withEarlier e s) = withEarlier e (f s)

theorem CueLocal.earlier {f : State → State} (hf : CueLocal f) : KeepsEarlier f := by
  intro e s
  refine (hf s { e with emission := e.emission ++ s.ev.emission } s).trans ?_
  generalize hx : f s = x
  have hframe := hf.frame s
  rw [hx] at hframe
  rw [hframe]
  rfl

section
variable (e : Report) (s : State)

@[simp] theorem earlier_em : (withEarlier e s).em = s.em := rfl
@[simp] theorem earlier_store : (withEarlier e s).store = s.store := rfl
@[simp] theorem earlier_live : (withEarlier e s).live = s.live := rfl
@[simp] theorem earlier_mem : (withEarlier e s).mem = s.mem := rfl
@[simp] theorem earlier_feed : (withEarlier e s).feed = s.feed := rfl
@[simp] theorem earlier_clock : (withEarlier e s).clock = s.clock := rfl
@[simp] theorem earlier_period : period (withEarlier e s) = period s := rfl
@[simp] theorem earlier_frameInstant (a : Anchor) (k : Nat) : frameInstant (withEarlier e s) a k = frameInstant s a k := rfl
@[simp] theorem earlier_slotOf (q : Seq) : slotOf (withEarlier e s) q = slotOf s q := rfl
@[simp] theorem earlier_clockFit : clockFit (withEarlier e s) = clockFit s := rfl
@[simp] theorem earlier_stampedLate (o : Offer) : stampedLate (withEarlier e s) o = stampedLate s o := rfl
@[simp] theorem earlier_stampedInstant (o : Offer) : stampedInstant (withEarlier e s) o = stampedInstant s o := rfl
@[simp] theorem earlier_anchorInstant (o : Offer) : anchorInstant (withEarlier e s) o = anchorInstant s o := rfl
@[simp] theorem earlier_depthDelay (o : Offer) : depthDelay (withEarlier e s) o = depthDelay s o := rfl
@[simp] theorem earlier_requiredDepth (d : Int) : requiredDepth (withEarlier e s) d = requiredDepth s d := rfl
@[simp] theorem earlier_windowInstant (a : Anchor) (b : Seq) (o : Offer) : windowInstant (withEarlier e s) a b o = windowInstant s a b o := rfl
@[simp] theorem earlier_windowLate (a : Anchor) (b : Seq) (o : Offer) : windowLate (withEarlier e s) a b o = windowLate s a b o := rfl
@[simp] theorem earlier_consistent (a : Anchor) (b : Seq) (o : Offer) : consistent (withEarlier e s) a b o = consistent s a b o := rfl

@[simp] theorem earlier_setEm (x : EmissionState) : (withEarlier e s).setEm x = withEarlier e (s.setEm x) := rfl
@[simp] theorem earlier_setStore (x : StoreState) : (withEarlier e s).setStore x = withEarlier e (s.setStore x) := rfl
@[simp] theorem earlier_writePackets (a : Nat) (ps : List Packet) :
    writePackets (withEarlier e s) a ps = withEarlier e (writePackets s a ps) := rfl
@[simp] theorem earlier_setSlot (q : Seq) (x : Slot) : setSlot q x (withEarlier e s) = withEarlier e (setSlot q x s) := rfl
@[simp] theorem earlier_countOffer (p : PortId) (f : AdmissionCounts → AdmissionCounts) :
    countOffer p f (withEarlier e s) = withEarlier e (countOffer p f s) := rfl
@[simp] theorem earlier_countEmission (f : EmissionCounts → EmissionCounts) :
    countEmission f (withEarlier e s) = withEarlier e (countEmission f s) := rfl
@[simp] theorem earlier_noteEmission (o : Nat) : noteEmission o (withEarlier e s) = withEarlier e (noteEmission o s) := by
  simp only [noteEmission, withEarlier, State.setEv, List.append_assoc]

@[simp] theorem earlier_occur (i : Nat) : occur i (withEarlier e s) = withEarlier e (occur i s) := by
  simp only [occur, withEarlier, State.setEv, List.append_assoc]

@[simp] theorem earlier_setBase (b : Option Seq) : setBase b (withEarlier e s) = withEarlier e (setBase b s) := by cases b <;> rfl

@[simp] theorem earlier_emptyStore : emptyStore (withEarlier e s) = withEarlier e (emptyStore s) := rfl

@[simp] theorem earlier_networkCues (q : Seq) (cues : List CueData) :
    networkCues q cues (withEarlier e s) = withEarlier e (networkCues q cues s) := (cueLocal_networkCues q cues).earlier e s

@[simp] theorem earlier_spliceAnchoring : spliceAnchoring (withEarlier e s) = withEarlier e (spliceAnchoring s) :=
  cueLocal_spliceAnchoring.earlier e s

theorem earlier_ite {e : Report} {c d : Prop} [Decidable c] [Decidable d] {t u t' u' : State} (h : d ↔ c) (ht : t' = withEarlier e t)
    (hu : u' = withEarlier e u) : (if d then t' else u') = withEarlier e (if c then t else u) := by
  by_cases hc : c
  · rw [if_pos hc, if_pos (h.mpr hc), ht]
  · rw [if_neg hc, if_neg (mt h.mp hc), hu]

@[simp] theorem earlier_setMute (m : MuteSet) : setMute m (withEarlier e s) = withEarlier e (setMute m s) :=
  earlier_ite Iff.rfl rfl ((congrArg _ (earlier_setEm ..)).trans (earlier_noteEmission ..))

@[simp] theorem earlier_leaveRunning : leaveRunning (withEarlier e s) = withEarlier e (leaveRunning s) := by
  unfold leaveRunning
  simp only [earlier_em, earlier_frameInstant, earlier_period, earlier_setEm, earlier_countEmission]
  split
  · exact earlier_ite Iff.rfl rfl rfl
  · rfl

@[simp] theorem earlier_dropAnchor : dropAnchor (withEarlier e s) = withEarlier e (dropAnchor s) := by
  simp only [dropAnchor, earlier_leaveRunning, earlier_emptyStore, earlier_em, earlier_setEm, earlier_setMute]

@[simp] theorem earlier_enterAnchoring (o : Nat) : enterAnchoring o (withEarlier e s) = withEarlier e (enterAnchoring o s) := by
  simp only [enterAnchoring, earlier_dropAnchor, earlier_noteEmission, earlier_em, earlier_setEm, earlier_countEmission]
  rw [← earlier_spliceAnchoring]
  exact congrArg spliceAnchoring (earlier_ite Iff.rfl rfl rfl)

@[simp] theorem earlier_reAnchorUnlessOff (o : Nat) : reAnchorUnlessOff o (withEarlier e s) = withEarlier e (reAnchorUnlessOff o s) := by
  exact earlier_ite Iff.rfl rfl (earlier_enterAnchoring ..)

@[simp] theorem earlier_placeCopy (o : Offer) (i : Int) : placeCopy o i (withEarlier e s) = withEarlier e (placeCopy o i s) := by
  simp only [placeCopy, earlier_writePackets, earlier_setSlot, earlier_networkCues, earlier_em, earlier_setEm]

@[simp] theorem earlier_admitCopy (o : Offer) (i : Int) : admitCopy o i (withEarlier e s) = withEarlier e (admitCopy o i s) := by
  simp only [admitCopy, earlier_placeCopy, earlier_countOffer]

@[simp] theorem earlier_takeAnchor (o : Offer) : takeAnchor o (withEarlier e s) = withEarlier e (takeAnchor o s) := by
  simp only [takeAnchor, earlier_anchorInstant, earlier_em, earlier_setEm, earlier_setBase, earlier_admitCopy, earlier_store,
    earlier_setStore, earlier_countEmission, earlier_noteEmission]

@[simp] theorem earlier_judgeCandidate (o : Offer) : judgeCandidate o (withEarlier e s) = withEarlier e (judgeCandidate o s) := by
  unfold judgeCandidate
  dsimp only
  refine earlier_ite Iff.rfl rfl (earlier_ite Iff.rfl rfl (earlier_ite Iff.rfl rfl (earlier_ite Iff.rfl ?_ (earlier_ite Iff.rfl rfl ?_))))
  · rw [earlier_countEmission, earlier_occur]
  · exact earlier_takeAnchor ..

@[simp] theorem earlier_jumpStep (o : Offer) : jumpStep o (withEarlier e s) = withEarlier e (jumpStep o s) := by
  refine earlier_ite Iff.rfl (earlier_ite Iff.rfl ?_ rfl) rfl
  rw [earlier_store, earlier_setStore, earlier_occur, earlier_reAnchorUnlessOff]

@[simp] theorem earlier_mismatchStep : mismatchStep (withEarlier e s) = withEarlier e (mismatchStep s) := by
  refine earlier_ite Iff.rfl ?_ rfl
  rw [earlier_store, earlier_setStore, earlier_occur, earlier_reAnchorUnlessOff]

@[simp] theorem earlier_staleOffer (o : Offer) : staleOffer o (withEarlier e s) = withEarlier e (staleOffer o s) := by
  simp only [staleOffer, earlier_countOffer, earlier_jumpStep]

@[simp] theorem earlier_aheadOffer (o : Offer) : aheadOffer o (withEarlier e s) = withEarlier e (aheadOffer o s) := by
  simp only [aheadOffer, earlier_countOffer, earlier_jumpStep]

@[simp] theorem earlier_compareCopy (o : Offer) (i : Int) (h : Held) :
    compareCopy o i h (withEarlier e s) = withEarlier e (compareCopy o i h s) := by
  unfold compareCopy
  cases h.quality with
  | clean =>
    cases o.quality with
    | clean => exact earlier_ite Iff.rfl rfl (by rw [earlier_countOffer, earlier_occur])
    | flawed => rfl
  | flawed =>
    cases o.quality with
    | clean => exact (congrArg _ (earlier_placeCopy ..)).trans (earlier_countOffer ..)
    | flawed => rfl

@[simp] theorem earlier_settleOffer (o : Offer) (i : Int) : settleOffer o i (withEarlier e s) = withEarlier e (settleOffer o i s) := by
  cases hs : slotOf s o.timing.seq with
  | held h =>
    rw [settleOffer_held hs, settleOffer_held (s := withEarlier e s) hs, ← earlier_compareCopy]
    rfl
  | free =>
    have hno : ∀ h, slotOf s o.timing.seq ≠ .held h := fun h heq => nomatch hs.symm.trans heq
    rw [settleOffer_unheld hno, settleOffer_unheld (s := withEarlier e s) hno, ← earlier_admitCopy]
    rfl
  | taken q c =>
    have hno : ∀ h, slotOf s o.timing.seq ≠ .held h := fun h heq => nomatch hs.symm.trans heq
    rw [settleOffer_unheld hno, settleOffer_unheld (s := withEarlier e s) hno, ← earlier_admitCopy]
    rfl

@[simp] theorem earlier_judgeInWindow (o : Offer) (a : Anchor) (b : Seq) :
    judgeInWindow o a b (withEarlier e s) = withEarlier e (judgeInWindow o a b s) := by
  unfold judgeInWindow
  refine earlier_ite (by rw [earlier_windowLate]) (earlier_countOffer ..) (earlier_ite (by rw [earlier_live, earlier_consistent]) ?_ ?_)
  · rw [earlier_countOffer, earlier_mismatchStep]
  · rw [earlier_windowInstant, earlier_settleOffer]

@[simp] theorem earlier_judgeWindow (o : Offer) (a : Anchor) (b : Seq) :
    judgeWindow o a b (withEarlier e s) = withEarlier e (judgeWindow o a b s) := by
  by_cases h0 : Seq.distance b o.timing.seq < 0
  · rw [judgeWindow_before h0, judgeWindow_before h0, earlier_staleOffer]
  · by_cases h64 : 64 ≤ Seq.distance b o.timing.seq
    · rw [judgeWindow_beyond h64, judgeWindow_beyond h64, earlier_aheadOffer]
    · by_cases hs : ∃ q c, slotOf s o.timing.seq = .taken q c
      · obtain ⟨q, c, hs⟩ := hs
        rw [judgeWindow_taken (by omega) (by omega) hs, judgeWindow_taken (s := withEarlier e s) (by omega) (by omega) hs,
          earlier_staleOffer]
      · have hs' : ∀ q c, slotOf s o.timing.seq ≠ .taken q c := fun q c h => hs ⟨q, c, h⟩
        rw [judgeWindow_open (by omega) (by omega) hs', judgeWindow_open (s := withEarlier e s) (by omega) (by omega) hs',
          earlier_judgeInWindow]

/-- What was reported before an offer is judged stands before what the judging reports. -/
theorem earlier_takeOffer (o : Offer) : takeOffer o (withEarlier e s) = withEarlier e (takeOffer o s) := by
  refine earlier_ite Iff.rfl rfl (earlier_ite Iff.rfl rfl ?_)
  rw [earlier_em, earlier_store]
  cases s.em.anchor with
  | none => exact earlier_judgeCandidate ..
  | some a =>
    cases s.store.base with
    | none => exact earlier_judgeCandidate ..
    | some b => exact earlier_judgeWindow ..

end

end Sys2Proof.Machine
end

section
/-! PROOF of what the Frame Store makes of an offer that is judged with a window (O43, O44), with the entry to ANCHORING that three such
offers in a row bring (R62, R63, R71). -/

namespace Sys2Proof.Machine
open Sys2Proof

/-! ## Leaving for OFF and ANCHORING (R64, R70, R71) -/

/-- The Frame Store emptied (R64). -/
def emptiedStore (x : StoreState) : StoreState :=
  { x with slots := List.replicate 64 .free, base := none, jumpRun := 0, mismatchRun := 0 }

theorem emptyStore_eq (s : State) : emptyStore s = s.setStore (emptiedStore s.store) := rfl

/-- The emission state without its anchor record and with no mute reason but HOST (R70, R71). -/
def droppedEm (s : State) : EmissionState :=
  { (leaveRunning s).em with anchor := none, gapRun := 0, resumeRun := 0, mute := { host := s.em.mute.host } }

/-- The occasion of a change of the mute-reason set to HOST alone (R90). -/
def muteOccasions (s : State) : List Nat := if ({ host := s.em.mute.host } : MuteSet) = s.em.mute then [] else [11]

theorem leaveRunning_eq (s : State) : leaveRunning s = s.setEm (leaveRunning s).em := by
  unfold leaveRunning
  split
  · split <;> rfl
  · rfl

theorem leaveRunning_keeps (s : State) : (leaveRunning s).em = { s.em with
    counts := (leaveRunning s).em.counts, origin := (leaveRunning s).em.origin, freePeriod := (leaveRunning s).em.freePeriod,
    freePacket := (leaveRunning s).em.freePacket } := by
  unfold leaveRunning
  split
  · split <;> rfl
  · rfl

/-- Only the count of cut frames changes with the grids when RUNNING is left (R81). -/
theorem leaveRunning_counts (s : State) : (leaveRunning s).em.counts = { s.em.counts with cut := (leaveRunning s).em.counts.cut } := by
  unfold leaveRunning
  split
  · split <;> rfl
  · rfl

theorem leaveRunning_off {s : State} (h : s.em.mode ≠ .running) : leaveRunning s = s := by
  unfold leaveRunning
  cases hm : s.em.mode with
  | running => exact absurd hm h
  | off => rfl
  | anchoring => rfl

theorem setMute_eq (m : MuteSet) (s : State) : setMute m s =
    (s.setEm { s.em with mute := m }).setEv { s.ev with emission := s.ev.emission ++ if m = s.em.mute then [] else [11] } := by
  unfold setMute
  split
  · rename_i h
    rw [h, List.append_nil]
    rfl
  · rfl

theorem dropAnchor_eq (s : State) : dropAnchor s =
    ((s.setStore (emptiedStore s.store)).setEm (droppedEm s)).setEv { s.ev with emission := s.ev.emission ++ muteOccasions s } := by
  have hmute : (leaveRunning s).em.mute = s.em.mute := by rw [leaveRunning_keeps]
  unfold dropAnchor
  dsimp only
  rw [setMute_eq, emptyStore_eq, leaveRunning_eq]
  unfold droppedEm muteOccasions
  simp only [State.setStore, State.setEm, State.setEv, hmute]

/-- The emission state at entry to ANCHORING (R71). -/
def anchoringEm (s : State) : EmissionState :=
  { droppedEm s with
    mode := .anchoring, offset := s.em.pendingOffset.getD s.em.offset, pendingOffset := none,
    counts :=
      if s.em.mode = .off then (droppedEm s).counts else { (droppedEm s).counts with reAnchors := sat32 ((droppedEm s).counts.reAnchors + 1) } }

/-- The part at entry to ANCHORING, before its return of the channels (R71). -/
def anchoringState (o : Nat) (s : State) : State :=
  ((s.setStore (emptiedStore s.store)).setEm (anchoringEm s)).setEv { s.ev with emission := s.ev.emission ++ muteOccasions s ++ [o] }

theorem enterAnchoring_eq (o : Nat) (s : State) : enterAnchoring o s = spliceAnchoring (anchoringState o s) := by
  have hoffset : (leaveRunning s).em.offset = s.em.offset := by rw [leaveRunning_keeps]
  have hpending : (leaveRunning s).em.pendingOffset = s.em.pendingOffset := by rw [leaveRunning_keeps]
  unfold enterAnchoring
  dsimp only
  refine congrArg spliceAnchoring ?_
  rw [dropAnchor_eq]
  by_cases h : s.em.mode = .off
  · rw [if_pos (by rw [h]; rfl)]
    unfold anchoringState anchoringEm
    rw [if_pos h]
    simp only [noteEmission, State.setStore, State.setEm, State.setEv, droppedEm, hoffset, hpending]
  · rw [if_neg (by simpa using h)]
    unfold anchoringState anchoringEm
    rw [if_neg h]
    simp only [noteEmission, countEmission, State.setStore, State.setEm, State.setEv, droppedEm, hoffset, hpending]

/-- What an entry to ANCHORING leaves beside Splicing and the clips, and the occasion that it notes (R71). -/
theorem enterAnchoring_frame (o : Nat) (s : State) : enterAnchoring o s =
    { s with
      store := emptiedStore s.store, em := anchoringEm s, splice := (enterAnchoring o s).splice, clips := (enterAnchoring o s).clips,
      ev := { s.ev with
        items := (enterAnchoring o s).ev.items, splice := (enterAnchoring o s).ev.splice,
        emission := s.ev.emission ++ muteOccasions s ++ [o] } } := by
  have hframe := cueLocal_spliceAnchoring.frame (anchoringState o s)
  rw [← enterAnchoring_eq] at hframe
  have hlive : (enterAnchoring o s).live = s.live := by rw [show enterAnchoring o s = _ from enterAnchoring_only o s]
  conv_lhs => rw [hframe]
  simp only [cueOver, Report.withoutCues, anchoringState, State.setStore, State.setEm, State.setEv, hlive, List.nil_append]

/-- What was reported before an entry to ANCHORING stands. -/
theorem enterAnchoring_items (o : Nat) (s : State) {i : Nat} (h : i ∈ s.ev.items) : i ∈ (enterAnchoring o s).ev.items := by
  rw [enterAnchoring_eq, cueLocal_spliceAnchoring.adds]
  exact List.mem_append_left _ h

/-! ## A copy placed (R54, R56, R57) -/

/-- The copy of an offer as its slot holds it. -/
def heldCopy (o : Offer) (i : Int) : Held :=
  { seq := o.timing.seq, source := o.port, quality := o.quality, hash := o.hash, arrival := o.arrival, emission := i,
    cues := o.timing.cues, directives := o.timing.directives }

/-- The part with the copy in its slot, before its cues are handed on. -/
def slotFilled (o : Offer) (i : Int) (s : State) : State :=
  setSlot o.timing.seq (.held (heldCopy o i)) (writePackets s (slotAddress (slotIndex o.timing.seq) 0) o.packets)

theorem placeCopy_eq (o : Offer) (i : Int) (s : State) : placeCopy o i s =
    let v := networkCues o.timing.seq o.timing.cues (slotFilled o i s)
    v.setEm { v.em with dLast := o.timing.delay } := rfl

/-- What handing cues on leaves beside the cue tables. -/
theorem networkCues_frame (q : Seq) (cues : List CueData) (s : State) : networkCues q cues s =
    { s with
      splice := (networkCues q cues s).splice, clips := (networkCues q cues s).clips,
      ev := { s.ev with items := (networkCues q cues s).ev.items, splice := (networkCues q cues s).ev.splice } } := by
  have hframe := (cueLocal_networkCues q cues).frame s
  have hlive : (networkCues q cues s).live = s.live := by rw [show networkCues q cues s = _ from networkCues_only q cues s]
  conv_lhs => rw [hframe]
  simp only [cueOver, Report.withoutCues, hlive, List.nil_append]

theorem slotAddress_fits (q : Seq) {n : Nat} (h : n ≤ 4096) : slotAddress (slotIndex q) 0 + 188 * n ≤ Config.memoryBytes := by
  have hi : slotIndex q < 64 := Nat.mod_lt _ (by decide)
  simp only [slotAddress, Config.slotBytes, Config.memoryBytes]
  omega

/-- The packets of a copy read back from its slot. -/
theorem read_slotFilled {o : Offer} (i : Int) (s : State) (hw : o.packets.all Packet.whole = true) (hn : o.packets.length ≤ 4096) {j : Nat}
    (hj : j < o.packets.flatten.length) :
    Memory.read (slotFilled o i s).mem (slotAddress (slotIndex o.timing.seq) 0 + j) = o.packets.flatten[j]? := by
  have hfits := slotAddress_fits o.timing.seq hn
  rw [← Laws.BodyFits.flatten_length_whole _ hw] at hfits
  exact Memory.read_write_inside s.mem _ _ hj (by omega)

theorem slotFilled_keptOutside {o : Offer} (i : Int) (s : State) (hw : o.packets.all Packet.whole = true) :
    MemoryKeptOutside s (slotFilled o i s) (slotAddress (slotIndex o.timing.seq) 0) (188 * o.packets.length) := by
  intro a ha
  rw [← Laws.BodyFits.flatten_length_whole _ hw] at ha
  exact (writePackets_spec s _ o.packets).2 a ha

/-! ## Admission (O43) -/

section
variable {s : State} {o : Offer} {a : Anchor} {b : Seq}

/-- An offer that passes every test with a window is settled (R48). -/
theorem takeOffer_settled (hm : s.em.mode ≠ .off) (hk : s.store.marks.get o.port = false) (ha : s.em.anchor = some a)
    (hb : s.store.base = some b) (h0 : 0 ≤ Seq.distance b o.timing.seq) (h64 : Seq.distance b o.timing.seq < 64)
    (hslot : ∀ q c, slotOf s o.timing.seq ≠ .taken q c) (hlate : windowLate s a b o = false)
    (hfit : s.live.em.singleSite = true ∨ consistent s a b o = true) :
    takeOffer o s = settleOffer o (windowInstant s a b o) s := by
  rw [takeOffer_windowed hm hk ha hb, judgeWindow_open h0 h64 hslot]
  refine (if_neg (by simp [hlate])).trans (if_neg ?_)
  rcases hfit with h | h <;> simp [h]

/-- A copy placed leaves every block but the slot, the packets, the cue tables and the last delay. -/
theorem placeCopy_frame (o : Offer) (i : Int) (s : State) : placeCopy o i s =
    { s with
      store := (slotFilled o i s).store, mem := (slotFilled o i s).mem, em := { s.em with dLast := o.timing.delay },
      splice := (networkCues o.timing.seq o.timing.cues (slotFilled o i s)).splice,
      clips := (networkCues o.timing.seq o.timing.cues (slotFilled o i s)).clips,
      ev := (networkCues o.timing.seq o.timing.cues (slotFilled o i s)).ev } := by
  rw [placeCopy_eq]
  have hframe := networkCues_frame o.timing.seq o.timing.cues (slotFilled o i s)
  generalize networkCues o.timing.seq o.timing.cues (slotFilled o i s) = v at hframe ⊢
  rw [hframe]
  rfl

end

/-- A cue entry is malformed, as the fields say (R111). -/
theorem malformed_iff (d : CueData) : malformed d = true ↔
    d.avail = 0 ∨ d.kind.toNat = 0 ∨ 3 < d.kind.toNat ∨ (d.kind = 1 ∧ (d.service = 0 ∨ d.duration = 0)) := by
  have hkind : (d.kind = 1 ∨ d.kind = 2 ∨ d.kind = 3) ↔ ¬ (d.kind.toNat = 0 ∨ 3 < d.kind.toNat) := by
    simp only [← BitVec.toNat_inj, show (1 : Byte).toNat = 1 from rfl, show (2 : Byte).toNat = 2 from rfl, show (3 : Byte).toNat = 3 from rfl]
    omega
  simp only [malformed, Bool.or_eq_true, Bool.not_eq_true', Bool.or_eq_false_iff, beq_eq_false_iff_ne, beq_iff_eq, Bool.and_eq_true]
  have hkind' : (d.kind ≠ 1 ∧ d.kind ≠ 2 ∧ d.kind ≠ 3) ↔ (d.kind.toNat = 0 ∨ 3 < d.kind.toNat) := by
    rw [← not_iff_not]
    rw [← hkind]
    tauto
  tauto

/-- Settles O43: an offer that passes every test is placed in its FREE slot; its cues go to Splicing one by one. -/
theorem admissionFillsTheSlot : Obligations.AdmissionFillsTheSlot := by
  refine ⟨?_, ?_, ?_⟩
  · intro s o a b hm hk ha hb h0 h64 hslot hlate hfit hlen hw hn u i
    have hopen : ∀ q c, slotOf s o.timing.seq ≠ .taken q c := fun q c h => nomatch hslot.symm.trans h
    have hno : ∀ h, slotOf s o.timing.seq ≠ .held h := fun h heq => nomatch hslot.symm.trans heq
    generalize hi : windowInstant s a b o = w
    have hu : u = countOffer o.port (fun c => { c with admitted := sat 65535 (c.admitted + 1) }) (placeCopy o w (runsCleared s)) := by
      rw [← hi, ← admitCopy, ← settleOffer_unheld hno]
      exact takeOffer_settled hm hk ha hb h0 h64 hopen hlate hfit
    rw [placeCopy_frame] at hu
    have hstore : u.store = { s.store with
        jumpRun := 0, mismatchRun := if s.live.em.singleSite then s.store.mismatchRun else 0,
        slots := s.store.slots.set i (.held (heldCopy o w)),
        counts := s.store.counts.set o.port
          { s.store.counts.get o.port with admitted := min 65535 ((s.store.counts.get o.port).admitted + 1) } } := by
      rw [hu, ← sat_eq_min]
      rfl
    have hmem : u.mem = (slotFilled o w (runsCleared s)).mem := by rw [hu]; rfl
    refine ⟨by rw [hstore]; rfl, fun j hj => ?_, ?_, by rw [hu]; rfl, by rw [hstore], by rw [hstore, ← hb], by rw [hstore], by rw [hstore],
      by rw [hstore], by rw [hu]; rfl, by rw [hu]; rfl, by rw [hu]; rfl, by rw [hu]; rfl, by rw [hu]; rfl, ?_⟩
    · rw [hmem]
      exact read_slotFilled w _ hw hn hj
    · intro x hx
      rw [hmem]
      exact slotFilled_keptOutside w (runsCleared s) hw x hx
    · intro placed v
      have hplaced : placed = slotFilled o w (runsCleared s) := by
        show ({ s with mem := u.mem, store := _ } : State) = _
        rw [hmem, hstore]
        rfl
      have hv : v = networkCues o.timing.seq o.timing.cues (slotFilled o w (runsCleared s)) := by rw [← hplaced]
      rw [hv, hu]
      exact ⟨rfl, rfl, rfl⟩
  · refine fun s seq => ⟨rfl, fun d rest => ?_⟩
    have hone : ∀ u v : State, (if malformed d then u else v) =
        if d.avail = 0 ∨ d.kind.toNat = 0 ∨ 3 < d.kind.toNat ∨ (d.kind = 1 ∧ (d.service = 0 ∨ d.duration = 0)) then u else v :=
      fun u v => if_congr (malformed_iff d) rfl rfl
    rw [← hone, ← sat_eq_min]
    rfl
  · intro s o a b distance expected delay stamped
    have hpredicted : predicted s a b o.timing.seq = expected := rfl
    have hstamped : stampedInstant s o = stamped := rfl
    refine ⟨rfl, ?_, ?_, ?_⟩
    · unfold windowInstant
      rw [hpredicted, hstamped]
    · unfold windowLate stampedLate
      rw [hpredicted, hstamped]
      cases s.live.em.singleSite
      · simp only [Bool.false_eq_true, if_false, Bool.or_eq_true, decide_eq_true_eq, or_assoc]
        exact Iff.rfl
      · simp only [if_true, decide_eq_true_eq]
        exact Iff.rfl
    · unfold consistent
      rw [hpredicted, hstamped, decide_eq_true_eq]

/-! ## Duplicates, upgrades, and offers out of the window (O44) -/

/-- What the third offer of a run leaves, on a state with its count already made (R62, R63, R71). -/
theorem anchoring_after {s c : State} {item occasion : Nat} (hoff : c.em.mode ≠ .off) (hmem : c.mem = s.mem) :
    let u := reAnchorUnlessOff occasion (occur item c)
    item ∈ u.ev.items ∧ occasion ∈ u.ev.emission ∧ u.em.mode = .anchoring ∧ u.em.anchor = none ∧ u.mem = s.mem ∧
      u.store = emptiedStore c.store := by
  intro u
  have hu : u = enterAnchoring occasion (occur item c) := if_neg hoff
  have hitem : item ∈ u.ev.items := by
    rw [hu]
    exact enterAnchoring_items _ _ (List.mem_append_right _ (List.mem_singleton_self _))
  rw [enterAnchoring_frame] at hu
  refine ⟨hitem, ?_, by rw [hu]; rfl, by rw [hu]; rfl, by rw [hu]; exact hmem, by rw [hu]; rfl⟩
  rw [hu]
  exact List.mem_append_right _ (List.mem_singleton_self _)

/-- A STALE or AHEAD offer that has been counted (R62). -/
theorem jumpStep_spec {s : State} {o : Offer} {counts : PerPort AdmissionCounts} (hoff : s.em.mode ≠ .off) :
    let u := jumpStep o (s.setStore { s.store with counts := counts })
    ((s.feed.ports.get o.port).mode ≠ .good → u = { s with store := { s.store with counts := counts } }) ∧
    ((s.feed.ports.get o.port).mode = .good → s.store.jumpRun < 2 →
      u = { s with store := { s.store with jumpRun := s.store.jumpRun + 1, counts := counts } }) ∧
    ((s.feed.ports.get o.port).mode = .good → 2 ≤ s.store.jumpRun →
      15 ∈ u.ev.items ∧ 5 ∈ u.ev.emission ∧ u.em.mode = .anchoring ∧ u.em.anchor = none ∧ u.mem = s.mem ∧
      u.store = { s.store with slots := List.replicate 64 .free, base := none, jumpRun := 0, mismatchRun := 0, counts := counts }) := by
  refine ⟨fun h => if_neg h, fun h hrun => ?_, fun h hrun => ?_⟩
  · exact (if_pos h).trans (if_neg (by change ¬ 3 ≤ s.store.jumpRun + 1; omega))
  · have hu : jumpStep o (s.setStore { s.store with counts := counts }) =
        reAnchorUnlessOff 5 (occur 15 (s.setStore { s.store with counts := counts, jumpRun := 0 })) :=
      (if_pos h).trans (if_pos (by change 3 ≤ s.store.jumpRun + 1; omega))
    have hafter := anchoring_after (s := s) (c := s.setStore { s.store with counts := counts, jumpRun := 0 }) (item := 15) (occasion := 5)
      hoff rfl
    rw [← hu] at hafter
    exact hafter

/-- A MISMATCH that has been counted (R63). -/
theorem mismatchStep_spec {s : State} {counts : PerPort AdmissionCounts} (hoff : s.em.mode ≠ .off) :
    let u := mismatchStep (s.setStore { s.store with counts := counts })
    (s.store.mismatchRun < 2 → u = { s with store := { s.store with mismatchRun := s.store.mismatchRun + 1, counts := counts } }) ∧
    (2 ≤ s.store.mismatchRun →
      14 ∈ u.ev.items ∧ 6 ∈ u.ev.emission ∧ u.em.mode = .anchoring ∧ u.em.anchor = none ∧ u.mem = s.mem ∧
      u.store = { s.store with slots := List.replicate 64 .free, base := none, jumpRun := 0, mismatchRun := 0, counts := counts }) := by
  refine ⟨fun hrun => if_neg (by change ¬ 3 ≤ s.store.mismatchRun + 1; omega), fun hrun => ?_⟩
  have hu : mismatchStep (s.setStore { s.store with counts := counts }) =
      reAnchorUnlessOff 6 (occur 14 (s.setStore { s.store with counts := counts, mismatchRun := 0 })) :=
    if_pos (by change 3 ≤ s.store.mismatchRun + 1; omega)
  have hafter := anchoring_after (s := s) (c := s.setStore { s.store with counts := counts, mismatchRun := 0 }) (item := 14) (occasion := 6)
    hoff rfl
  rw [← hu] at hafter
  exact hafter

/-- Settles O44: by the test of R48 that decides the offer. -/
theorem duplicateAndStaleOffers : Obligations.DuplicateAndStaleOffers := by
  have hheld : ∀ {s : State} {q : Seq} {h : Held}, slotOf s q = .held h → ∀ q' c, slotOf s q ≠ .taken q' c :=
    fun hs q' c heq => nomatch hs.symm.trans heq
  refine ⟨?_, ?_, ?_, ?_, ?_⟩
  · intro s o a b h hm hk ha hb h0 h64 hslot hq ho hlate hfit u c
    have hu : u = compareCopy o (windowInstant s a b o) h (runsCleared s) := by
      rw [← settleOffer_held hslot]
      exact takeOffer_settled hm hk ha hb h0 h64 (hheld hslot) hlate hfit
    unfold compareCopy at hu
    rw [hq, ho] at hu
    dsimp only at hu
    by_cases hh : h.hash = o.hash
    · rw [if_pos hh] at hu
      refine ⟨by rw [hu]; rfl, by rw [hu]; rfl, by rw [hu]; rfl, by rw [hu]; rfl, fun hne => absurd hh hne, fun _ => ⟨by rw [hu]; rfl, ?_⟩⟩
      rw [hu, ← sat_eq_min]
      rfl
    · rw [if_neg hh] at hu
      refine ⟨by rw [hu]; rfl, by rw [hu]; rfl, by rw [hu]; rfl, by rw [hu]; rfl, fun _ => ⟨by rw [hu]; rfl, ?_⟩, fun he => absurd he hh⟩
      rw [hu, ← sat_eq_min]
      rfl
  · intro s o a b h hm hk ha hb h0 h64 hslot ho hlate hfit c
    rw [takeOffer_settled hm hk ha hb h0 h64 (hheld hslot) hlate hfit, settleOffer_held hslot]
    unfold compareCopy
    rw [ho, ← sat_eq_min]
    cases h.quality <;> rfl
  · intro s o a b hm hk ha hb distance hout u c good counted
    have hu : u = jumpStep o (s.setStore { s.store with counts := counted }) := by
      have hwin : u = judgeWindow o a b s := takeOffer_windowed hm hk ha hb
      rw [hwin]
      simp only [counted, ← sat_eq_min]
      by_cases h0 : distance < 0
      · rw [judgeWindow_before h0, if_pos (by omega)]
        rfl
      · by_cases h64 : distance < 64
        · obtain ⟨q, x, hs⟩ : ∃ q x, slotOf s o.timing.seq = .taken q x := by
            rcases hout with h | h | h
            · omega
            · omega
            · exact h
          rw [judgeWindow_taken (by omega) h64 hs, if_pos h64]
          rfl
        · rw [judgeWindow_beyond (by omega), if_neg h64]
          rfl
    rw [hu]
    exact jumpStep_spec hm
  · intro s o a b h hm hk ha hb h0 h64 hslot hq ho hlate hfit hlen hw hn u c i
    generalize hi : windowInstant s a b o = w
    have hu : u = compareCopy o w h (runsCleared s) := by
      rw [← hi, ← settleOffer_held hslot]
      exact takeOffer_settled hm hk ha hb h0 h64 (hheld hslot) hlate hfit
    unfold compareCopy at hu
    rw [hq, ho] at hu
    dsimp only at hu
    rw [placeCopy_frame] at hu
    have hmem : u.mem = (slotFilled o w (runsCleared s)).mem := by rw [hu]; rfl
    refine ⟨?_, fun j hj => ?_, fun x hx => ?_, by rw [hu]; rfl⟩
    · rw [hu, ← sat_eq_min, ← ho]
      rfl
    · rw [hmem]
      exact read_slotFilled w _ hw hn hj
    · rw [hmem]
      exact slotFilled_keptOutside w (runsCleared s) hw x hx
  · intro s o a b hm hk ha hb h0 h64 hslot hlate hsite hfit u c counted
    have hu : u = mismatchStep (s.setStore { s.store with counts := counted }) := by
      have hwin : u = judgeInWindow o a b s := by
        rw [← judgeWindow_open h0 h64 hslot]
        exact takeOffer_windowed hm hk ha hb
      rw [hwin]
      refine (if_neg (by simp [hlate])).trans ((if_pos (by simp [hsite, hfit])).trans ?_)
      simp only [counted, ← sat_eq_min]
      rfl
    rw [hu]
    exact mismatchStep_spec hm

end Sys2Proof.Machine
end

section
/-! PROOF of what an aligned port makes of a packet (02, O37), and of what such a packet can write in attached memory (O42). -/

namespace Sys2Proof.Machine
open Sys2Proof

/-! ## What an offer can change -/

/-- An offer changes neither the ports, the drive, nor any memory but its slot's. -/
def OfferLeaves (o : Offer) (s t : State) : Prop :=
  t.feed = s.feed ∧ (t.mem = s.mem ∨ t.mem = (writePackets s (slotAddress (slotIndex o.timing.seq) 0) o.packets).mem)

section
variable (o : Offer) (s : State)

theorem OfferLeaves.refl : OfferLeaves o s s := ⟨rfl, .inl rfl⟩

theorem offerLeaves_placeCopy (i : Int) : OfferLeaves o s (placeCopy o i s) := by
  rw [placeCopy_frame]
  exact ⟨rfl, .inr rfl⟩

theorem offerLeaves_reAnchorUnlessOff (occasion : Nat) : OfferLeaves o s (reAnchorUnlessOff occasion s) := by
  unfold reAnchorUnlessOff
  split
  · exact .refl o s
  · rw [enterAnchoring_frame]
    exact ⟨rfl, .inl rfl⟩

theorem offerLeaves_jumpStep : OfferLeaves o s (jumpStep o s) := by
  unfold jumpStep
  split
  · split
    · exact offerLeaves_reAnchorUnlessOff o (occur 15 (s.setStore { s.store with jumpRun := 0 })) 5
    · exact .refl o s
  · exact .refl o s

theorem offerLeaves_mismatchStep : OfferLeaves o s (mismatchStep s) := by
  unfold mismatchStep
  split
  · exact offerLeaves_reAnchorUnlessOff o (occur 14 (s.setStore { s.store with mismatchRun := 0 })) 6
  · exact .refl o s

theorem offerLeaves_compareCopy (i : Int) (h : Held) : OfferLeaves o s (compareCopy o i h s) := by
  unfold compareCopy
  split
  · split <;> exact .refl o s
  · exact .refl o s
  · exact offerLeaves_placeCopy o s i
  · exact .refl o s

theorem offerLeaves_settleOffer (i : Int) : OfferLeaves o s (settleOffer o i s) := by
  by_cases hs : ∃ h, slotOf s o.timing.seq = .held h
  · obtain ⟨h, hs⟩ := hs
    rw [settleOffer_held hs]
    exact offerLeaves_compareCopy o (runsCleared s) i h
  · rw [settleOffer_unheld (fun h heq => hs ⟨h, heq⟩)]
    exact offerLeaves_placeCopy o (runsCleared s) i

theorem offerLeaves_judgeInWindow (a : Anchor) (b : Seq) : OfferLeaves o s (judgeInWindow o a b s) := by
  unfold judgeInWindow
  split
  · exact .refl o s
  · split
    · exact offerLeaves_mismatchStep o (countOffer o.port (fun c => { c with mismatch := sat 65535 (c.mismatch + 1) }) s)
    · exact offerLeaves_settleOffer o s _

theorem offerLeaves_staleOffer : OfferLeaves o s (staleOffer o s) :=
  offerLeaves_jumpStep o (countOffer o.port (fun c => { c with stale := sat 65535 (c.stale + 1) }) s)

theorem offerLeaves_judgeWindow (a : Anchor) (b : Seq) : OfferLeaves o s (judgeWindow o a b s) := by
  by_cases h0 : Seq.distance b o.timing.seq < 0
  · rw [judgeWindow_before h0]
    exact offerLeaves_staleOffer o s
  · by_cases h64 : 64 ≤ Seq.distance b o.timing.seq
    · rw [judgeWindow_beyond h64]
      exact offerLeaves_jumpStep o (countOffer o.port (fun c => { c with ahead := sat 65535 (c.ahead + 1) }) s)
    · by_cases hs : ∃ q c, slotOf s o.timing.seq = .taken q c
      · obtain ⟨q, c, hs⟩ := hs
        rw [judgeWindow_taken (by omega) (by omega) hs]
        exact offerLeaves_staleOffer o s
      · rw [judgeWindow_open (by omega) (by omega) (fun q c h => hs ⟨q, c, h⟩)]
        exact offerLeaves_judgeInWindow o s a b

theorem offerLeaves_takeAnchor : OfferLeaves o s (takeAnchor o s) := by
  unfold takeAnchor admitCopy
  dsimp only
  generalize anchorInstant s o = i
  exact offerLeaves_placeCopy o
    (setBase (some o.timing.seq) (s.setEm { s.em with anchor := some { seq := o.timing.seq, instant := i } })) i

theorem offerLeaves_judgeCandidate : OfferLeaves o s (judgeCandidate o s) := by
  unfold judgeCandidate
  dsimp only
  split
  · exact .refl o s
  · split
    · exact .refl o s
    · split
      · exact .refl o s
      · split
        · exact .refl o s
        · split
          · exact .refl o s
          · exact offerLeaves_takeAnchor o s

theorem offerLeaves_takeOffer : OfferLeaves o s (takeOffer o s) := by
  unfold takeOffer
  split
  · exact .refl o s
  · split
    · exact .refl o s
    · split
      · exact offerLeaves_judgeWindow o s _ _
      · exact offerLeaves_judgeCandidate o s

end

/-! ## A timing candidate (R28 to R32) -/

/-- The record that an aligned packet of good sync finds. -/
def arrivedRec (s : State) (x : PortRec) : PortRec := { x with lastByte := s.clock.cycles, firstByte := none, wrongSync := 0 }

/-- The continuity table of a record brought into line with the service streams (R35). -/
def alignedRec (s : State) (y : PortRec) : PortRec :=
  { y with continuity := (feedStreams s).map (fun stream => (stream, (y.continuity.lookup stream).join)) }

/-- The record at entry to HUNTING (R33, R35). -/
def huntingRec (s : State) (y : PortRec) : PortRec := alignedRec s { y with assembling := false, opened := none }

/-- The record after the SHORT verdict of an open frame (R32). -/
def shortRec (s : State) (y : PortRec) : PortRec :=
  scoredPort s { y with opened := none, counts := { y.counts with short := min 65535 (y.counts.short + 1) } } 65535

/-- A verdict other than SILENCE, in the words of the statements (R37 to R39). -/
theorem giveVerdict_scored {s : State} {p : PortId} {y z : PortRec} {v : Verdict} (hv : v ≠ .silence) (note : Option PortNote)
    (items : List Nat) (hz : scoredPort s { y with counts := countVerdict v y.counts } (sampleOf v) = z) :
    giveVerdict p v (portEvent s p y note items) =
      portEvent s p z (noteAfter { y with average := z.average } z.mode note) (items ++ healthItems p y.mode z.mode) := by
  rw [giveVerdict_portEvent]
  simp only [if_neg hv]
  rw [verdictRec_scored, hz]

/-- The record and the report with which a timing candidate is judged: an open frame has ended as SHORT (R32). -/
theorem shortened_portEvent (s : State) (p : PortId) (y : PortRec) : ∃ note,
    (if (portRec (portEvent s p y none []) p).opened.isSome then
        giveVerdict p .short (setPort p { portRec (portEvent s p y none []) p with opened := none } (portEvent s p y none []))
      else portEvent s p y none []) =
    portEvent s p (if y.opened.isSome then shortRec s y else y) note
      (if y.opened.isSome then healthItems p y.mode (shortRec s y).mode else []) := by
  rw [portRec_portEvent, setPort_portEvent]
  by_cases h : y.opened.isSome = true
  · rw [if_pos h, if_pos h, if_pos h,
      giveVerdict_scored (z := shortRec s y) (by decide) none [] (by rw [shortRec, ← sat_eq_min]; rfl)]
    exact ⟨_, rfl⟩
  · rw [if_neg h, if_neg h, if_neg h]
    exact ⟨_, rfl⟩

/-- The assembly record that a candidate opens (R30). -/
def openedFrame (stamp : Int) (k : Packet) : Assembly :=
  { timing := readTiming k, arrival := stamp, count := 1, transportErrors := 0, continuityErrors := 0, hash := crc32 0xFFFFFFFF k,
    buffer := [k] }

theorem openFrame_portEvent (s : State) (p : PortId) (stamp : Int) (k : Packet) (y : PortRec) (note : Option PortNote) (items : List Nat) :
    openFrame p stamp k (portEvent s p y note items) =
      portEvent s p { alignedRec s y with assembling := true, opened := some (openedFrame stamp k) } note items := by
  unfold openFrame
  simp only [alignContinuity_portEvent, portRec_portEvent, setPort_portEvent]
  rfl

/-- The candidate is in format (R29). -/
theorem inFormat_iff {s : State} {c : TimingRec} : inFormat s c = true ↔ c.period = s.live.em.period ∧ c.packets = s.live.em.packets := by
  simp only [inFormat, Bool.and_eq_true, beq_iff_eq]
  exact Iff.rfl

/-- A timing candidate, by whether it is valid and in format (R28 to R30, R32). -/
theorem timingCandidate_portEvent (s : State) (p : PortId) (stamp : Int) (k : Packet) (y : PortRec) :
    let before := if y.opened.isSome then shortRec s y else y
    let beforeItems := if y.opened.isSome then healthItems p y.mode (shortRec s y).mode else []
    let lost (z : PortRec) := ∃ note, timingCandidate p stamp k (portEvent s p y none []) =
      portEvent s p z note (beforeItems ++ healthItems p before.mode z.mode)
    (validTiming k = true → inFormat s (readTiming k) = true → ∃ note,
      timingCandidate p stamp k (portEvent s p y none []) =
        portEvent s p { alignedRec s before with assembling := true, opened := some (openedFrame stamp k) } note beforeItems) ∧
    (validTiming k = false → lost (scoredPort s
      { huntingRec s before with counts := { before.counts with badTiming := min 65535 (before.counts.badTiming + 1) } } 65535)) ∧
    (validTiming k = true → inFormat s (readTiming k) = false → lost (scoredPort s
      { huntingRec s before with counts := { before.counts with format := min 65535 (before.counts.format + 1) } } 65535)) := by
  intro before beforeItems lost
  obtain ⟨note, hshort⟩ := shortened_portEvent s p y
  have hcandidate : timingCandidate p stamp k (portEvent s p y none []) =
      if !validTiming k then giveVerdict p .badTiming (enterHunting p (portEvent s p before note beforeItems))
      else if !inFormat s (readTiming k) then giveVerdict p .format (enterHunting p (portEvent s p before note beforeItems))
      else openFrame p stamp k (portEvent s p before note beforeItems) := by
    unfold timingCandidate
    dsimp only
    rw [hshort]
    rfl
  have hhunt : enterHunting p (portEvent s p before note beforeItems) = portEvent s p (huntingRec s before) note beforeItems :=
    enterHunting_portEvent ..
  have hverdict (v : Verdict) (hv : v ≠ .silence) := giveVerdict_scored (s := s) (p := p) (y := huntingRec s before) hv note beforeItems rfl
  refine ⟨fun hv hf => ⟨note, ?_⟩, fun hv => ?_, fun hv hf => ?_⟩
  · rw [hcandidate, if_neg (by simp [hv]), if_neg (by simp [hf]), openFrame_portEvent]
  · rw [← sat_eq_min]
    refine ⟨_, (hcandidate.trans ((if_pos (by simp [hv])).trans (congrArg _ hhunt))).trans (hverdict .badTiming (by decide))⟩
  · rw [← sat_eq_min]
    refine ⟨_, (hcandidate.trans ((if_neg (by simp [hv])).trans ((if_pos (by simp [hf])).trans (congrArg _ hhunt)))).trans
      (hverdict .format (by decide))⟩

/-! ## Any other packet (R27, R31, R33, R36) -/

/-- A packet that is no timing candidate, kept as `q`, at an aligned port: it joins the open frame; with none open it is a frame alignment
error after a completion, and is not kept in HUNTING (R31, R33). -/
def takenPacket (p : PortId) (q : Packet) (failed : Bool) (s : State) : State :=
  match (portRec s p).opened with
  | some f => addPacket p f q failed s
  | none => if (portRec s p).assembling then alignmentError p s else s

theorem damagedPacket_eq (p : PortId) (s : State) : damagedPacket p s = takenPacket p substitutePacket false s := by
  unfold damagedPacket takenPacket
  cases (portRec s p).opened <;> rfl

theorem ordinaryPacket_portEvent (s : State) (p : PortId) (k : Packet) (y : PortRec) :
    ordinaryPacket p k (portEvent s p y none []) =
      takenPacket p k (checkContinuity y k).2 (portEvent s p (checkContinuity y k).1 none []) := by
  unfold ordinaryPacket takenPacket
  simp only [portRec_portEvent, setPort_portEvent] <;> cases (checkContinuity y k).1.opened <;> rfl

/-- The continuity check changes the table and the count of continuity errors alone. -/
theorem checkContinuity_frame (y : PortRec) (k : Packet) : (checkContinuity y k).1 =
    { y with continuity := (checkContinuity y k).1.continuity, counts := (checkContinuity y k).1.counts } := by
  unfold checkContinuity
  split <;> rfl

/-- The open frame with one more packet (R31). -/
def grownFrame (f : Assembly) (q : Packet) (flawed failed : Bool) : Assembly :=
  { f with
    buffer := f.buffer ++ [q], hash := crc32 f.hash q, count := f.count + 1,
    transportErrors := if flawed then f.transportErrors + 1 else f.transportErrors,
    continuityErrors := if failed then f.continuityErrors + 1 else f.continuityErrors }

/-- The record with the transport error of a packet counted (R31). -/
def talliedRec (y : PortRec) (flawed : Bool) : PortRec :=
  { y with counts := if flawed then { y.counts with transportErrors := min 65535 (y.counts.transportErrors + 1) } else y.counts }

theorem addPacket_portEvent (s : State) (p : PortId) (f : Assembly) (q : Packet) (failed : Bool) (y : PortRec) :
    addPacket p f q failed (portEvent s p y none []) =
      let g := grownFrame f q (transportError q) failed
      let z := portEvent s p { talliedRec y (transportError q) with opened := some g } none []
      if g.count = s.live.em.packets then completeFrame p g z else z := by
  unfold addPacket grownFrame talliedRec
  cases transportError q with
  | true =>
    simp only [if_true, countPort_portEvent, portRec_portEvent, setPort_portEvent, portEvent_perFrame, sat_eq_min]
  | false =>
    simp only [Bool.false_eq_true, if_false, portRec_portEvent, setPort_portEvent, portEvent_perFrame]

/-- The verdict of a completed frame (R31). -/
def frameQuality (g : Assembly) : Quality := if g.transportErrors = 0 ∧ g.continuityErrors = 0 then .clean else .flawed

/-- The record after the verdict of a completed frame (R31, R37 to R39). -/
def completedRec (s : State) (y : PortRec) (quality : Quality) : PortRec :=
  match quality with
  | .clean => scoredPort s { y with opened := none, counts := { y.counts with clean := min 65535 (y.counts.clean + 1) } } 0
  | .flawed => scoredPort s { y with opened := none, counts := { y.counts with flawed := min 65535 (y.counts.flawed + 1) } } 32768

/-- A port is GOOD or IMPAIRED, and its frames are offered (R40). -/
def Usable (y : PortRec) : Prop := y.mode = .good ∨ y.mode = .impaired

theorem giveVerdict_completed (s : State) (p : PortId) (y : PortRec) (quality : Quality) :
    giveVerdict p (if quality = .clean then .clean else .flawed) (portEvent s p { y with opened := none } none []) =
      let z := completedRec s y quality
      portEvent s p z (noteAfter { y with opened := none, average := z.average } z.mode none) (healthItems p y.mode z.mode) := by
  cases quality with
  | clean =>
    refine (giveVerdict_scored (z := completedRec s y .clean) (by decide) none [] ?_).trans rfl
    rw [completedRec, ← sat_eq_min]
    rfl
  | flawed =>
    refine (giveVerdict_scored (z := completedRec s y .flawed) (by decide) none [] ?_).trans rfl
    rw [completedRec, ← sat_eq_min]
    rfl

/-- The offer of a completed frame (R40). -/
def offerOfFrame (p : PortId) (g : Assembly) : Offer :=
  { port := p, quality := frameQuality g, hash := g.hash, arrival := g.arrival, timing := g.timing, packets := g.buffer }

section
variable (s : State) (p : PortId) (g : Assembly) (y : PortRec)

/-- A completed frame that is not offered (R40, R41). -/
theorem completeFrame_kept :
    let z := completedRec s y (frameQuality g)
    let note := noteAfter { y with opened := none, average := z.average } z.mode none
    let items := healthItems p y.mode z.mode
    (¬ Usable z → completeFrame p g (portEvent s p y none []) = portEvent s p z note items) ∧
    (Usable z → heldOut s p = true → completeFrame p g (portEvent s p y none []) =
      portEvent s p { z with counts := { z.counts with heldBack := min 65535 (z.counts.heldBack + 1) } } note items) ∧
    (Usable z → heldOut s p = false → completeFrame p g (portEvent s p y none []) = takeOffer (offerOfFrame p g)
      (portEvent s p { z with counts := { z.counts with offered := min 65535 (z.counts.offered + 1) } } note items)) := by
  intro z note items
  have hframe : completeFrame p g (portEvent s p y none []) = offerFrame p g (frameQuality g) (portEvent s p z note items) := by
    unfold completeFrame
    simp only [portRec_portEvent, setPort_portEvent]
    exact congrArg (offerFrame p g (frameQuality g)) (giveVerdict_completed s p y (frameQuality g))
  have hheld : heldOut (portEvent s p z note items) p = heldOut s p := rfl
  rw [hframe]
  unfold offerFrame
  simp only [portRec_portEvent, hheld, countPort_portEvent, sat_eq_min]
  refine ⟨fun hu => if_neg hu, fun hu hh => (if_pos hu).trans ?_, fun hu hh => (if_pos hu).trans ?_⟩
  · rw [if_pos hh]
  · rw [if_neg (by simp [hh])]
    rfl

end

/-- The FEED notice of a verdict: one where the state changed (R42). -/
theorem portNotice_verdict {p : PortId} {y z ended : PortRec} (hm : ended.mode = z.mode) :
    portNotice p ended (noteAfter { y with opened := none, average := z.average } z.mode none) =
      if z.mode = y.mode then [] else [be 1 p.num ++ be 1 (portCode y.mode) ++ be 1 (portCode z.mode) ++ be 2 z.average] := by
  unfold noteAfter
  by_cases h : z.mode = y.mode
  · rw [if_pos h, if_pos h.symm]
    rfl
  · rw [if_neg h, if_neg (Ne.symm h), portNotice, hm]

/-- The EMISSION notice of a command, in the words of the statements (R90). -/
theorem emissionNotice_eq {u t : State} (ht : t.em = u.em) : emissionNotice u =
    match u.ev.emission.min? with | some occasion => [emissionBody t (BitVec.ofNat 8 occasion)] | none => [] := by
  unfold emissionNotice
  cases u.ev.emission.min? with
  | none => rfl
  | some o =>
    simp only [emissionBody, muteByte_eq, be_one o, ht, List.append_assoc]
    unfold anchorSeq
    cases u.em.anchor <;> rfl

/-- The SPLICE notices of a command, in channel order (R130; log 11). -/
theorem spliceNotices_eq (u : State) : spliceNotices u =
    Four.all.flatMap (fun n => (u.ev.splice.filter (fun note => note.channel = n)).map spliceBody) := by
  unfold spliceNotices
  rw [List.map_flatMap]
  rfl

/-- The report of a verdict at a port, before the offer that may follow it. -/
def verdictReport (p : PortId) (note : Option PortNote) (items : List Nat) : Report :=
  { portNotes := (⟨none, none⟩ : PerPort (Option PortNote)).set p note, items := items }

/-- What a command leaves does not depend on what its effect had reported. -/
theorem AfterEvent.of_ev {items : List Nat} {u t : State} {e : Report} (h : AfterEvent items (u.setEv e) t) : AfterEvent items u t := by
  obtain ⟨ht, htook, hlink⟩ := h
  refine ⟨?_, htook, hlink⟩
  rw [judgePermission_drive_ev] at ht
  exact ht

/-- An event that leaves a verdict's report before what `u` reports. -/
theorem event_earlier {s u : State} {f : State → State} {p : PortId} {note : Option PortNote} {items : List Nat} (hp : Powered s)
    (hf : f (s.setEv {}) = withEarlier (verdictReport p note items) u) (hlive : u.live = s.live) (hlink : u.link = s.link)
    (halarms : u.alarms = s.alarms) (hl : s.alarms.records.length = 36) :
    ∃ t, event f s = .next t ∧ AfterEvent (items ++ u.ev.items) u t ∧ Noticed 2 (portNotice p (u.feed.ports.get p) note) s t ∧
      Noticed 3 (match u.ev.emission.min? with | some occasion => [emissionBody t (BitVec.ofNat 8 occasion)] | none => []) s t ∧
      Noticed 4 (Four.all.flatMap (fun n => (u.ev.splice.filter (fun note => note.channel = n)).map spliceBody)) s t := by
  obtain ⟨t, hstep, hafter⟩ := afterEvent_intro (u := u) hp hf rfl (.inl (by rw [halarms]; exact hl))
  have hem : t.em = u.em := by rw [hafter.1]
  have htx : (withEarlier (verdictReport p note items) u).link.tx = s.link.tx := congrArg LinkState.tx hlink
  have hwaiting : (withEarlier (verdictReport p note items) u).alarms.notices = s.alarms.notices := congrArg AlarmState.notices halarms
  have h2 := noticed_event (kind := 2) (by decide) hp hf hlive htx hwaiting hstep
  have h3 := noticed_event (kind := 3) (by decide) hp hf hlive htx hwaiting hstep
  have h4 := noticed_event (kind := 4) (by decide) hp hf hlive htx hwaiting hstep
  rw [bodiesOf_judgePermission (by decide), bodiesOf_feed] at h2
  rw [bodiesOf_judgePermission (by decide), bodiesOf_emission,
    emissionNotice_eq (show t.em = (withEarlier (verdictReport p note items) u).em from hem)] at h3
  rw [bodiesOf_judgePermission (by decide), bodiesOf_splice, spliceNotices_eq] at h4
  refine ⟨t, hstep, hafter, h2.of_eq ?_, h3, h4⟩
  cases p <;> cases note <;> rfl

/-- An event whose effect completes a frame (R31, R37 to R41). -/
theorem event_completed {s : State} {f : State → State} {p : PortId} {g : Assembly} {base : PortRec} (hp : Powered s)
    (hf : f (s.setEv {}) = completeFrame p g (portEvent s p base none [])) (hl : s.alarms.records.length = 36) :
    let y := completedRec s base (frameQuality g)
    let usable : Prop := y.mode = .good ∨ y.mode = .impaired
    let ended : PortRec :=
      if usable then
        if heldOut s p then { y with counts := { y.counts with heldBack := min 65535 (y.counts.heldBack + 1) } }
        else { y with counts := { y.counts with offered := min 65535 (y.counts.offered + 1) } }
      else y
    let scored : State := { s with feed := { s.feed with ports := s.feed.ports.set p ended }, ev := {} }
    let u := if usable ∧ heldOut s p = false then takeOffer (offerOfFrame p g) scored else scored
    ∃ t, event f s = .next t ∧ t.feed = { s.feed with ports := s.feed.ports.set p ended } ∧
      t.clock = s.clock ∧ t.live = s.live ∧ (¬ usable ∨ heldOut s p = true ∨ s.em.mode = .off →
        AfterEvent (healthItems p base.mode y.mode) { s with feed := { s.feed with ports := s.feed.ports.set p ended } } t) ∧
      AfterEvent (healthItems p base.mode y.mode ++ u.ev.items) u t ∧
      Noticed 2 (if y.mode = base.mode then []
        else [be 1 p.num ++ be 1 (portCode base.mode) ++ be 1 (portCode y.mode) ++ be 2 y.average]) s t ∧
      Noticed 3 (match u.ev.emission.min? with | some occasion => [emissionBody t (BitVec.ofNat 8 occasion)] | none => []) s t ∧
      Noticed 4 (Four.all.flatMap (fun n => (u.ev.splice.filter (fun note => note.channel = n)).map spliceBody)) s t := by
  intro y usable ended scored u
  obtain ⟨hidle, hheld, hoffered⟩ := completeFrame_kept s p g base
  generalize hnote : noteAfter { base with opened := none, average := y.average } y.mode none = note at hidle hheld hoffered
  generalize hitems : healthItems p base.mode y.mode = items at hidle hheld hoffered ⊢
  have hmode : ended.mode = y.mode := by
    simp only [ended]
    split
    · split <;> rfl
    · rfl
  have hscored : ∀ z, z = ended → portEvent s p z note items = withEarlier (verdictReport p note items) scored := by
    rintro z rfl
    simp only [portEvent, withEarlier, verdictReport, State.setFeed, State.setEv, List.append_nil, scored]
  have hu : completeFrame p g (portEvent s p base none []) = withEarlier (verdictReport p note items) u := by
    simp only [u]
    by_cases hus : usable
    · by_cases hho : heldOut s p = true
      · rw [if_neg (by simp [hho]), hheld hus hho]
        exact hscored _ ((if_pos hus).trans (if_pos hho)).symm
      · have hfree : heldOut s p = false := by simpa using hho
        rw [if_pos ⟨hus, hfree⟩, hoffered hus hfree, ← earlier_takeOffer]
        exact congrArg (takeOffer (offerOfFrame p g)) (hscored _ ((if_pos hus).trans (if_neg hho)).symm)
    · rw [if_neg (fun h => hus h.1), hidle hus]
      exact hscored _ (if_neg hus).symm
  have honly : OnlyFeed scored u ∧ u.feed = scored.feed := by
    simp only [u]
    split
    · exact ⟨takeOffer_only _ _, (offerLeaves_takeOffer _ _).1⟩
    · exact ⟨.refl _, rfl⟩
  obtain ⟨honly, hfeed⟩ := honly
  have hsame : u.live = s.live ∧ u.link = s.link ∧ u.alarms = s.alarms ∧ u.clock = s.clock := by
    rw [show u = _ from honly]
    exact ⟨rfl, rfl, rfl, rfl⟩
  obtain ⟨hlive, hlink, halarms, hclock⟩ := hsame
  obtain ⟨t, hstep, hafter, h2, h3, h4⟩ := event_earlier hp (hf.trans hu) hlive hlink halarms hl
  have hport : u.feed.ports.get p = ended := by rw [hfeed]; exact PerPort.get_set _ _ _
  refine ⟨t, hstep, ?_, ?_, ?_, fun hno => ?_, hafter, h2.of_eq ?_, h3, h4⟩
  · rw [hafter.1]
    exact hfeed
  · rw [hafter.1]
    exact hclock
  · rw [hafter.1]
    exact hlive
  · have huscored : u = scored := by
      simp only [u]
      rcases hno with h | h | h
      · exact if_neg (fun hh => h hh.1)
      · exact if_neg (by simp [h])
      · split
        · exact if_pos h
        · rfl
    rw [huscored] at hafter
    rw [show items ++ scored.ev.items = items from List.append_nil _] at hafter
    exact AfterEvent.of_ev (e := {}) hafter
  · rw [hport, ← hnote]
    exact portNotice_verdict hmode

/-! ## An aligned packet (O37) -/

/-- The record with the sync error of a damaged packet counted (R27). -/
def damagedRec (s : State) (x : PortRec) : PortRec :=
  { arrivedRec s x with
    wrongSync := x.wrongSync + 1, counts := { x.counts with syncErrors := min 65535 (x.counts.syncErrors + 1) } }

/-- A packet at an aligned port, by its sync byte and its stream (R27, R28, R31). -/
theorem feedPacketEffect_kinds {s : State} {p : PortId} (k : Packet) (ha : isAligned (s.feed.ports.get p).mode = true) :
    let x := s.feed.ports.get p
    let stamp := x.firstByte.getD s.clock.time
    let u := feedPacketEffect p k (s.setEv {})
    (hasSync k = true → streamOf k = s.live.feed.timingStream →
      u = timingCandidate p stamp k (portEvent s p (arrivedRec s x) none [])) ∧
    (hasSync k = true → streamOf k ≠ s.live.feed.timingStream →
      u = takenPacket p k (checkContinuity (arrivedRec s x) k).2 (portEvent s p (checkContinuity (arrivedRec s x) k).1 none [])) ∧
    (hasSync k = false → x.wrongSync < 2 → u = takenPacket p substitutePacket false (portEvent s p (damagedRec s x) none [])) ∧
    (hasSync k = false → 2 ≤ x.wrongSync → u = loseSync p (portEvent s p (damagedRec s x) none [])) := by
  intro x stamp u
  have hu : u = alignedPacket p stamp k (portEvent s p { x with lastByte := s.clock.cycles, firstByte := none } none []) :=
    feedPacketEffect_aligned k ha
  unfold alignedPacket at hu
  simp only [portRec_portEvent, setPort_portEvent, portEvent_live, sat_eq_min] at hu
  refine ⟨fun hs ht => ?_, fun hs ht => ?_, fun hs hw => ?_, fun hs hw => ?_⟩
  · rw [if_pos hs, if_pos ht] at hu
    exact hu
  · rw [if_pos hs, if_neg ht] at hu
    exact hu.trans (ordinaryPacket_portEvent s p k (arrivedRec s x))
  · rw [if_neg (by simp [hs]), if_neg (by omega), damagedPacket_eq] at hu
    exact hu
  · rw [if_neg (by simp [hs]), if_pos (by omega)] at hu
    exact hu

/-- A packet that is no timing candidate, at a record `base` (R31, R33). -/
theorem takenPacket_portEvent (s : State) (p : PortId) (q : Packet) (failed : Bool) (base : PortRec) :
    let g (f : Assembly) := grownFrame f q (transportError q) failed
    let tallied := talliedRec base (transportError q)
    let u := takenPacket p q failed (portEvent s p base none [])
    (∀ f, base.opened = some f → f.count + 1 ≠ s.live.em.packets → u = portEvent s p { tallied with opened := some (g f) } none []) ∧
    (∀ f, base.opened = some f → f.count + 1 = s.live.em.packets →
      u = completeFrame p (g f) (portEvent s p { tallied with opened := some (g f) } none [])) ∧
    (base.opened = none → base.assembling = true → u = portEvent s p
      { huntingRec s base with counts := { base.counts with frameAlignment := min 65535 (base.counts.frameAlignment + 1) } } none []) ∧
    (base.opened = none → base.assembling = false → u = portEvent s p base none []) := by
  intro g tallied u
  have hu : u = match base.opened with
      | some f => addPacket p f q failed (portEvent s p base none [])
      | none => if base.assembling then alignmentError p (portEvent s p base none []) else portEvent s p base none [] := by
    simp only [u, takenPacket, portRec_portEvent]
  refine ⟨fun f hf hc => ?_, fun f hf hc => ?_, fun hf ha => ?_, fun hf ha => ?_⟩
  · simp only [hf, addPacket_portEvent] at hu
    exact hu.trans (if_neg hc)
  · simp only [hf, addPacket_portEvent] at hu
    exact hu.trans (if_pos hc)
  · simp only [hf, ha, if_true, alignmentError, countPort_portEvent, enterHunting_portEvent, sat_eq_min] at hu
    exact hu
  · simp only [hf, ha, Bool.false_eq_true, if_false] at hu
    exact hu

/-- A frame with one more packet is CLEAN when it was and the packet is neither flawed nor out of continuity (R31). -/
theorem frameQuality_grown (f : Assembly) (q : Packet) (flawed failed : Bool) : frameQuality (grownFrame f q flawed failed) =
    if f.transportErrors = 0 ∧ f.continuityErrors = 0 ∧ flawed = false ∧ failed = false then .clean else .flawed := by
  unfold frameQuality grownFrame
  refine if_congr ?_ rfl rfl
  cases flawed <;> cases failed <;> simp

/-- When the continuity check of a packet fails (R36). -/
theorem continuityFails_iff (entry : Option Nat) (k : Packet) : continuityFails entry k = true ↔
    ∃ c, entry = some c ∧ transportError k = false ∧ continuityOf k ≠ if carriesPayload k then (c + 1) % 16 else c := by
  unfold continuityFails
  cases entry with
  | none => simp
  | some c => cases transportError k <;> cases carriesPayload k <;> simp

/-- Settles O37: by the sync byte, the stream, and what stands open at the port. -/
theorem timingCandidateOpensAFrame : Obligations.TimingCandidateOpensAFrame := by
  intro s p sync rest hp ha hl k x stamp leaves arrived aligned short before beforeItems hunting takes
  obtain ⟨htiming, hordinary, hdamaged, -⟩ := feedPacketEffect_kinds k ha
  have hleaves : ∀ {f : State → State} {y : PortRec} {note : Option PortNote} {items : List Nat},
      f (s.setEv {}) = portEvent s p y note items → ∃ t, event f s = .next t ∧ leaves y items t := by
    intro f y note items hf
    obtain ⟨t, hstep, hafter, -⟩ := event_port hp hf (.inl hl)
    exact ⟨t, hstep, hafter⟩
  have htakes : ∀ (base : PortRec) (q : Packet) (flawed failed : Bool), transportError q = flawed → base.opened = x.opened →
      base.assembling = x.assembling → base.mode = x.mode →
      feedPacketEffect p k (s.setEv {}) = takenPacket p q failed (portEvent s p base none []) → takes base q flawed failed := by
    rintro base q flawed failed rfl hopened hassembling hmode hf
    obtain ⟨hgrows, hcompletes, herror, hnothing⟩ := takenPacket_portEvent s p q failed base
    refine ⟨fun f hx hc => ?_, fun f hx hc => ?_, fun hx has => ?_, fun hx has => ?_⟩
    · exact hleaves (hf.trans (hgrows f (hopened.trans hx) (by omega)))
    · intro clean y usable ended scored offer u
      have hq := frameQuality_grown f q (transportError q) failed
      have hy : y = completedRec s { talliedRec base (transportError q) with opened := some (grownFrame f q (transportError q) failed) }
          (frameQuality (grownFrame f q (transportError q) failed)) := by
        rw [hq]
        simp only [y]
        split <;> rfl
      have hoffer : offer = offerOfFrame p (grownFrame f q (transportError q) failed) := by
        simp only [offer, offerOfFrame, hq]
        rfl
      have hdone := event_completed hp (hf.trans (hcompletes f (hopened.trans hx) hc)) hl
      rw [← hy, ← hoffer] at hdone
      rw [← hmode]
      exact hdone
    · exact hleaves (hf.trans (herror (hopened.trans hx) (hassembling.trans has)))
    · exact hleaves (hf.trans (hnothing (hopened.trans hx) (hassembling.trans has)))
  refine ⟨fun byte => ?_, fun _ hs ht => ?_, fun _ hs ht => ?_, fun hs hw => ?_, fun y entry hy => ?_, fun y hy => ?_⟩
  · have hf : feedByteEffect p byte (s.setEv {}) = portEvent s p { x with lastByte := s.clock.cycles, firstByte := some stamp } none [] := by
      rw [portEvent_start s p]
      have hd : x.mode ≠ .disabled := fun h => by simp [x, h, isAligned] at ha
      have hk : x.mode ≠ .dark := fun h => by simp [x, h, isAligned] at ha
      unfold feedByteEffect
      simp only [portRec_portEvent, setPort_portEvent]
      rw [if_neg hd, if_neg hk, if_pos ha]
      simp only [portRec_portEvent, setPort_portEvent, arrivalStamp_portEvent]
      rfl
    exact hleaves hf
  · obtain ⟨hopens, hbad, hformat⟩ := timingCandidate_portEvent s p stamp k arrived
    refine ⟨fun hv hF hN => ?_, fun hv => ?_, fun hv hne => ?_⟩
    · obtain ⟨note, hc⟩ := hopens hv (inFormat_iff.mpr ⟨hF, hN⟩)
      exact hleaves ((htiming hs ht).trans hc)
    · obtain ⟨note, hc⟩ := hbad hv
      exact hleaves ((htiming hs ht).trans hc)
    · have hno : inFormat s (readTiming k) = false := by
        rw [Bool.eq_false_iff, ne_eq, inFormat_iff]
        tauto
      obtain ⟨note, hc⟩ := hformat hv hno
      exact hleaves ((htiming hs ht).trans hc)
  · intro checked
    have hframe : checked.1 = _ := checkContinuity_frame arrived k
    exact htakes checked.1 k _ checked.2 rfl (by rw [hframe]) (by rw [hframe]) (by rw [hframe]) (hordinary hs ht)
  · exact htakes (damagedRec s x) substitutePacket true false (by decide) rfl rfl rfl (hdamaged hs hw)
  · have hc : checkContinuity y k = ({ y with
        continuity := y.continuity.map (fun e => if e.1 = streamOf k then (e.1, if transportError k then none else some (continuityOf k)) else e)
        counts := if continuityFails entry k then { y.counts with continuityErrors := min 65535 (y.counts.continuityErrors + 1) }
          else y.counts }, continuityFails entry k) := by
      unfold checkContinuity
      rw [hy, ← sat_eq_min]
    rw [hc]
    refine ⟨rfl, continuityFails_iff entry k, ?_⟩
    cases continuityFails entry k <;> rfl
  · unfold checkContinuity
    rw [hy]

/-! ## What a packet at a port writes in attached memory (O42) -/

theorem substitutePacket_whole : Packet.whole substitutePacket = true := by
  simp only [Packet.whole, substitutePacket, List.length_append, List.length_replicate, List.length_cons, List.length_nil]
  rfl

/-- The memory that a completed frame leaves outside its slot. -/
theorem completeFrame_keptOutside {s : State} {p : PortId} {g : Assembly} {y : PortRec} (hw : g.buffer.all Packet.whole = true) :
    MemoryKeptOutside s (completeFrame p g (portEvent s p y none [])) (slotAddress (slotIndex g.timing.seq) 0) (188 * g.buffer.length) := by
  obtain ⟨hidle, hheld, hoffered⟩ := completeFrame_kept s p g y
  by_cases hu : Usable (completedRec s y (frameQuality g))
  · by_cases hh : heldOut s p = true
    · rw [hheld hu hh]
      exact fun _ _ => rfl
    · rw [hoffered hu (by simpa using hh)]
      intro x hx
      rcases (offerLeaves_takeOffer (offerOfFrame p g) _).2 with hm | hm
      · exact congrArg (Memory.read · x) hm
      · rw [hm]
        refine (writePackets_spec _ _ _).2 x ?_
        rw [show (offerOfFrame p g).packets = g.buffer from rfl, Laws.BodyFits.flatten_length_whole _ hw]
        exact hx
  · rw [hidle hu]
    exact fun _ _ => rfl

/-- Settles O42: only a packet that completes a frame is offered, and an offer writes its slot alone. -/
theorem feedPacketWritesOneSlot : Obligations.FeedPacketWritesOneSlot := by
  intro s t p sync rest hwhole hexec
  rw [exec_feedPacket] at hexec
  have hkinds := feedPacketEffect_kinds (s := s) (p := p) (sync :: rest)
  have hsync : hasSync (sync :: rest) = true ↔ sync = 0x47 := by simp [hasSync, pbyte]
  generalize hk : (sync :: rest : Packet) = k at *
  have hmem : t.mem = s.mem ∨ (isAligned (s.feed.ports.get p).mode = true ∧ t.mem = (feedPacketEffect p k (s.setEv {})).mem) := by
    cases hpow : s.powered with
    | false =>
      rw [event_dead _ hpow] at hexec
      cases hexec
      exact .inl rfl
    | true =>
      rw [event_next _ hpow] at hexec
      cases hexec
      rw [transmit_mem, closeEvent_mem]
      by_cases ha : isAligned (s.feed.ports.get p).mode = true
      · exact .inr ⟨ha, rfl⟩
      · have hquiet : feedPacketEffect p k (s.setEv {}) = s.setEv {} := if_neg ha
        exact .inl (by rw [hquiet]; rfl)
  rcases hmem with hmem | ⟨ha, hmem⟩
  · rw [show t.mem = s.mem from hmem]
    exact ⟨fun _ => rfl, fun _ _ => rfl, fun _ _ => rfl, fun _ _ _ => rfl, fun _ _ _ x _ => by rw [hmem]⟩
  obtain ⟨htiming, hordinary, hdamaged, hlost⟩ := hkinds ha
  have hcandidate : hasSync k = true → streamOf k = s.live.feed.timingStream → t.mem = s.mem := by
    intro hs ht
    obtain ⟨hopens, hbad, hformat⟩ := timingCandidate_portEvent s p ((s.feed.ports.get p).firstByte.getD s.clock.time) k
      (arrivedRec s (s.feed.ports.get p))
    rw [hmem, htiming hs ht]
    by_cases hv : validTiming k = true
    · by_cases hf : inFormat s (readTiming k) = true
      · obtain ⟨note, h⟩ := hopens hv hf
        rw [h, portEvent_mem]
      · obtain ⟨note, h⟩ := hformat hv (by simpa using hf)
        rw [h, portEvent_mem]
    · obtain ⟨note, h⟩ := hbad (by simpa using hv)
      rw [h, portEvent_mem]
  have hthird : hasSync k = false → 2 ≤ (s.feed.ports.get p).wrongSync → t.mem = s.mem := by
    intro hs hw
    rw [hmem, hlost hs hw, loseSync_portEvent _ _ _ (by exact not_searching_of_isAligned ha), portEvent_mem]
  have hother : t.mem = s.mem ∨ ∃ base q failed, Packet.whole q = true ∧ base.opened = (s.feed.ports.get p).opened ∧
      t.mem = (takenPacket p q failed (portEvent s p base none [])).mem := by
    by_cases hs : hasSync k = true
    · by_cases ht : streamOf k = s.live.feed.timingStream
      · exact .inl (hcandidate hs ht)
      · have hframe := checkContinuity_frame (arrivedRec s (s.feed.ports.get p)) k
        refine .inr ⟨(checkContinuity (arrivedRec s (s.feed.ports.get p)) k).1, k, _, hwhole, ?_, by rw [hmem, hordinary hs ht]⟩
        rw [hframe]
        rfl
    · by_cases hw : (s.feed.ports.get p).wrongSync < 2
      · refine .inr ⟨damagedRec s (s.feed.ports.get p), substitutePacket, false, substitutePacket_whole, rfl, ?_⟩
        rw [hmem, hdamaged (by simpa using hs) hw]
      · exact .inl (hthird (by simpa using hs) (by omega))
  refine ⟨fun hn => ?_, fun hs ht => hcandidate (hsync.mpr hs) ht, fun hs hw => hthird (Bool.eq_false_iff.mpr (mt hsync.mp hs)) hw,
    fun f hf hc => ?_, fun f hf hb => ?_⟩
  · rcases hother with h | ⟨base, q, failed, -, hopened, h⟩
    · exact h
    · obtain ⟨-, -, herror, hnothing⟩ := takenPacket_portEvent s p q failed base
      cases hass : base.assembling with
      | true => rw [h, herror (hopened.trans hn) hass, portEvent_mem]
      | false => rw [h, hnothing (hopened.trans hn) hass, portEvent_mem]
  · rcases hother with h | ⟨base, q, failed, -, hopened, h⟩
    · exact h
    · rw [h, (takenPacket_portEvent s p q failed base).1 f (hopened.trans hf) hc, portEvent_mem]
  · rcases hother with h | ⟨base, q, failed, hq, hopened, h⟩
    · exact fun x _ => by rw [h]
    · by_cases hc : f.count + 1 = s.live.em.packets
      · rw [(takenPacket_portEvent s p q failed base).2.1 f (hopened.trans hf) hc] at h
        have hkept := completeFrame_keptOutside (s := s) (p := p) (g := grownFrame f q (transportError q) failed)
          (y := { talliedRec base (transportError q) with opened := some (grownFrame f q (transportError q) failed) })
          (by simp [grownFrame, hb, hq])
        intro x hx
        rw [h]
        refine hkept x ?_
        simpa [grownFrame] using hx
      · rw [(takenPacket_portEvent s p q failed base).1 f (hopened.trans hf) hc] at h
        exact fun x _ => by rw [h, portEvent_mem]

end Sys2Proof.Machine
end

section
/-! PROOF of the entries to OFF and ANCHORING (O45): what the Splicing operations that they make leave, and the three requests. -/

namespace Sys2Proof.Machine
open Sys2Proof

/-! ## Arbitration, returns and disarming (R119, R124) -/

/-- What arbitration for channel n leaves: the other tables and channels, and on channel n at most a binding, which is not yet ACTIVE. -/
def Arbitrated (n : Four) (s t : State) : Prop :=
  t.splice = { s.splice with cues := t.splice.cues, channels := t.splice.channels, counts := t.splice.counts } ∧
  (∀ m, m ≠ n → t.splice.channels.get m = s.splice.channels.get m) ∧
  (t.splice.channels.get n = s.splice.channels.get n ∨ ∃ c, t.splice.channels.get n = some c ∧ c.active = false)

theorem Arbitrated.refl (n : Four) (s : State) : Arbitrated n s s := ⟨rfl, fun _ _ => rfl, .inl rfl⟩

theorem Arbitrated.trans {n : Four} {s t u : State} (h : Arbitrated n s t) (k : Arbitrated n t u) : Arbitrated n s u := by
  obtain ⟨h1, h2, h3⟩ := h
  obtain ⟨k1, k2, k3⟩ := k
  refine ⟨by rw [k1, h1], fun m hm => (k2 m hm).trans (h2 m hm), ?_⟩
  rcases k3 with k3 | k3
  · rcases h3 with h3 | ⟨c, hc, ha⟩
    · exact .inl (k3.trans h3)
    · exact .inr ⟨c, k3.trans hc, ha⟩
  · exact .inr k3

theorem bindChannel_arbitrated (n : Four) (e : CueEntry) (p : Plan) (s : State) : Arbitrated n s (bindChannel n e p s) := by
  refine ⟨rfl, fun m hm => PerFour.get_set_ne _ hm _, .inr ⟨_, PerFour.get_set_self _ _ _, rfl⟩⟩

theorem turnUnfilled_arbitrated (n : Four) (a : Nat) (s : State) : Arbitrated n s (turnUnfilled a s) := ⟨rfl, fun _ _ => rfl, .inl rfl⟩

theorem arbitrateLoop_arbitrated (fuel : Nat) (n : Four) (s : State) : Arbitrated n s (arbitrateLoop fuel n s) := by
  induction fuel generalizing s with
  | zero => exact .refl n s
  | succ fuel ih =>
    unfold arbitrateLoop
    split
    · exact .refl n s
    · split
      · exact Arbitrated.trans ⟨rfl, fun _ _ => rfl, .inl rfl⟩ (ih _)
      · split
        · exact (turnUnfilled_arbitrated n _ s).trans (ih _)
        · split
          · exact bindChannel_arbitrated n _ _ s
          · exact (turnUnfilled_arbitrated n _ s).trans (ih _)

theorem arbitrate_arbitrated (n : Four) (s : State) : Arbitrated n s (arbitrate n s) := by
  unfold arbitrate
  split
  · exact arbitrateLoop_arbitrated _ n s
  · exact .refl n s

/-- An offset record cleared (R129). -/
def clearedOffset (r : OffsetRec) : OffsetRec := { r with last := none, offset := 0, resync := false }

/-- What freeing channels leaves of Splicing: the services, the plans, the reference and the acceptance counter stand, and the offset
records differ at most in what clearing them drops. -/
def FreesOnly (s t : State) : Prop :=
  t.splice.services = s.splice.services ∧ t.splice.plans = s.splice.plans ∧ t.splice.cueRef = s.splice.cueRef ∧
  t.splice.accepted = s.splice.accepted ∧ t.splice.offsets.map clearedOffset = s.splice.offsets.map clearedOffset

theorem FreesOnly.refl (s : State) : FreesOnly s s := ⟨rfl, rfl, rfl, rfl, rfl⟩

theorem FreesOnly.trans {s t u : State} (h : FreesOnly s t) (k : FreesOnly t u) : FreesOnly s u := by
  obtain ⟨h1, h2, h3, h4, h5⟩ := h
  obtain ⟨k1, k2, k3, k4, k5⟩ := k
  exact ⟨k1.trans h1, k2.trans h2, k3.trans h3, k4.trans h4, k5.trans h5⟩

theorem Arbitrated.frees {n : Four} {s t : State} (h : Arbitrated n s t) : FreesOnly s t := by
  unfold FreesOnly
  rw [h.1]
  exact ⟨rfl, rfl, rfl, rfl, rfl⟩

theorem markResync_frees (service : Nat) (s : State) : FreesOnly s (markResync service s) := by
  unfold markResync
  split
  · refine ⟨rfl, rfl, rfl, rfl, ?_⟩
    simp only [State.setSplice_splice, List.map_map]
    refine List.map_congr_left fun r _ => ?_
    simp only [Function.comp_apply, clearedOffset]
    split <;> rfl
  · exact .refl s

theorem releaseChannel_frees (n : Four) (c : Channel) (s : State) : FreesOnly s (releaseChannel n c s) := .refl s

theorem endSplice_frees (n : Four) (c : Channel) (reason : ReturnReason) (s : State) : FreesOnly s (endSplice n c reason s) := by
  unfold endSplice
  dsimp only
  have h := markResync_frees c.service (releaseChannel n c (noteChannel n c 3 (reasonCode reason) s))
  split
  · exact h
  · exact h

theorem endSplice_channels (n : Four) (c : Channel) (reason : ReturnReason) (s : State) :
    (endSplice n c reason s).splice.channels = s.splice.channels.set n none := by
  have h := markResync_channels c.service (releaseChannel n c (noteChannel n c 3 (reasonCode reason) s))
  unfold endSplice
  dsimp only
  split
  · exact h
  · exact h

/-- A return frees its channel, which arbitration may bind again, and touches no other (R124). -/
theorem returnChannel_channels (n : Four) (c : Channel) (reason : ReturnReason) (s : State) :
    FreesOnly s (returnChannel n c reason s) ∧
    (∀ m, m ≠ n → (returnChannel n c reason s).splice.channels.get m = s.splice.channels.get m) ∧
    (∀ d, (returnChannel n c reason s).splice.channels.get n = some d → d.active = false) ∧
    (reason = .stopped → (returnChannel n c reason s).splice.channels.get n = none) := by
  have hends := endSplice_frees n c reason s
  have hchannels := endSplice_channels n c reason s
  unfold returnChannel
  dsimp only
  split
  · rename_i hr
    rw [hchannels, PerFour.get_set_self]
    exact ⟨hends, fun m hm => PerFour.get_set_ne _ hm _, nofun, fun _ => rfl⟩
  · rename_i hr
    have harb := arbitrate_arbitrated n (endSplice n c reason s)
    obtain ⟨-, hother, hown⟩ := id harb
    rw [hchannels] at hother hown
    refine ⟨hends.trans harb.frees, fun m hm => (hother m hm).trans (PerFour.get_set_ne _ hm _), fun d hd => ?_, fun h => absurd h hr⟩
    rcases hown with h | ⟨e, he, ha⟩
    · rw [h, PerFour.get_set_self] at hd
      exact nomatch hd
    · rw [he] at hd
      cases hd
      exact ha

/-- One channel after another is treated; what holds of each when its turn has come holds of all at the end. -/
theorem fold_channels {f : State → Four → State} {P : Option Channel → Prop}
    (hf : ∀ s n, FreesOnly s (f s n) ∧ (∀ m, m ≠ n → (f s n).splice.channels.get m = s.splice.channels.get m) ∧
      P ((f s n).splice.channels.get n)) (s : State) :
    FreesOnly s (Four.all.foldl f s) ∧ ∀ n, P ((Four.all.foldl f s).splice.channels.get n) := by
  have hall : ∀ (ns : List Four) (s : State), FreesOnly s (ns.foldl f s) ∧
      ∀ n, (P (s.splice.channels.get n) ∨ n ∈ ns) → P ((ns.foldl f s).splice.channels.get n) := by
    intro ns
    induction ns with
    | nil => exact fun s => ⟨.refl s, fun n h => h.resolve_right (List.not_mem_nil)⟩
    | cons k ns ih =>
      intro s
      obtain ⟨hfree, hother, hown⟩ := hf s k
      obtain ⟨ihfree, ihall⟩ := ih (f s k)
      refine ⟨hfree.trans ihfree, fun n h => ihall n ?_⟩
      by_cases hn : n = k
      · exact .inl (hn ▸ hown)
      · rcases h with h | h
        · exact .inl ((hother n hn).symm ▸ h)
        · exact .inr ((List.mem_cons.mp h).resolve_left hn)
  obtain ⟨hfree, hP⟩ := hall Four.all s
  exact ⟨hfree, fun n => hP n (.inr (Four.mem_all n))⟩

/-- Entry to ANCHORING at Splicing leaves no channel ACTIVE (R126). -/
theorem spliceAnchoring_channels (s : State) :
    (∀ n c, (spliceAnchoring s).splice.channels.get n = some c → c.active = false) ∧ (spliceAnchoring s).splice.lastStarted = none ∧
    (spliceAnchoring s).splice.offsets = s.splice.offsets.map clearedOffset := by
  have hone : ∀ s n, FreesOnly s (reAnchorChannel s n) ∧ (∀ m, m ≠ n → (reAnchorChannel s n).splice.channels.get m = s.splice.channels.get m) ∧
      ∀ c, (reAnchorChannel s n).splice.channels.get n = some c → c.active = false := by
    intro s n
    unfold reAnchorChannel
    cases hc : s.splice.channels.get n with
    | none => exact ⟨.refl s, fun _ _ => rfl, fun c h => nomatch hc.symm.trans h⟩
    | some c =>
      dsimp only
      by_cases ha : c.active = true
      · rw [if_pos ha]
        obtain ⟨h1, h2, h3, -⟩ := returnChannel_channels n c .reAnchor s
        exact ⟨h1, h2, h3⟩
      · rw [if_neg ha]
        refine ⟨.refl s, fun _ _ => rfl, fun d hd => ?_⟩
        cases hc.symm.trans hd
        simpa using ha
  obtain ⟨⟨-, -, -, -, hoffsets⟩, hall⟩ := fold_channels (P := fun x => ∀ c, x = some c → c.active = false) hone s
  exact ⟨hall, rfl, hoffsets⟩

/-- With no channel ACTIVE, entry to ANCHORING clears the offset table and the last started sequence alone (R126, R129). -/
theorem spliceAnchoring_idle {s : State} (h : ∀ n c, s.splice.channels.get n = some c → c.active = false) :
    spliceAnchoring s = s.setSplice { s.splice with lastStarted := none, offsets := s.splice.offsets.map clearedOffset } := by
  have hone : ∀ n, reAnchorChannel s n = s := by
    intro n
    unfold reAnchorChannel
    cases hc : s.splice.channels.get n with
    | none => rfl
    | some c =>
      dsimp only
      rw [if_neg (by simp [h n c hc])]
  unfold spliceAnchoring
  simp only [Four.all, List.foldl_cons, List.foldl_nil, hone]
  rfl

theorem cueLocal_stopChannel (n : Four) (r : State) (e : Report) (s : State) :
    stopChannel (cueOver r e s) n = cueOver r e (stopChannel s n) := by
  unfold stopChannel
  simp only [cueOver_splice, cueOver_disarm, cueLocal_returnChannel _ _ _ _ _ _]
  split
  · split <;> rfl
  · rfl

theorem cueLocal_spliceOff : CueLocal spliceOff := by
  intro r e s
  unfold spliceOff
  rw [cueLocal_fold cueLocal_stopChannel, cueOver_setCues, cueOver_clearOffsets]

/-- Entry to OFF at Splicing leaves every channel IDLE and no cue entry (R126). -/
theorem spliceOff_channels (s : State) :
    (spliceOff s).splice.cues = [] ∧ (∀ n, (spliceOff s).splice.channels.get n = none) ∧ (spliceOff s).splice.lastStarted = none ∧
    (spliceOff s).splice.offsets = s.splice.offsets.map clearedOffset := by
  have hone : ∀ s n, FreesOnly s (stopChannel s n) ∧ (∀ m, m ≠ n → (stopChannel s n).splice.channels.get m = s.splice.channels.get m) ∧
      (stopChannel s n).splice.channels.get n = none := by
    intro s n
    unfold stopChannel
    cases hc : s.splice.channels.get n with
    | none => exact ⟨.refl s, fun _ _ => rfl, hc⟩
    | some c =>
      dsimp only
      by_cases ha : c.active = true
      · rw [if_pos ha]
        obtain ⟨h1, h2, -, h4⟩ := returnChannel_channels n c .stopped s
        exact ⟨h1, h2, h4 rfl⟩
      · rw [if_neg ha]
        exact ⟨.refl s, fun m hm => PerFour.get_set_ne _ hm _, PerFour.get_set_self _ _ _⟩
  obtain ⟨⟨-, -, -, -, hoffsets⟩, hall⟩ := fold_channels (P := fun x => x = none) hone s
  exact ⟨rfl, hall, rfl, hoffsets⟩

/-! ## The drive at an entry (R136, R139) -/

/-- The ceiling recomputed adds DRIVE occasions alone to the report. -/
theorem recomputeCeiling_ev (s : State) : ∃ os, (recomputeCeiling s).ev = { s.ev with drive := os } := by
  have hsteady (o : Nat) (u : State) (hu : ∃ os, u.ev = { s.ev with drive := os }) : ∃ os, (steadyAtCeiling o u).ev = { s.ev with drive := os } := by
    obtain ⟨os, hu⟩ := hu
    unfold steadyAtCeiling
    split
    · exact ⟨_, by simp only [enterSteady, noteDrive, State.setEv_ev, State.setDrive_ev, hu]; rfl⟩
    · exact ⟨os, hu⟩
  have hlower : (lowerToCeiling s).ev = s.ev := by
    unfold lowerToCeiling
    split <;> rfl
  unfold recomputeCeiling followCeiling
  split
  · refine hsteady 3 _ ⟨s.ev.drive, ?_⟩
    split <;> exact hlower
  · split
    · unfold enterRamping
      refine hsteady 3 _ ⟨s.ev.drive ++ [3], ?_⟩
      split <;> simp only [noteDrive, setLevel, State.setDrive_ev, State.setEv_ev, hlower]
    · exact ⟨s.ev.drive, hlower⟩
  · exact ⟨s.ev.drive, hlower⟩

/-- Where permission is refused the level is 0 (R139). -/
theorem Left.silent {u t : State} (h : Left u t) (hu : LevelOk u) (hno : permitted u = false) : t.drive.level = 0 ∧ t.drive.line = 0 := by
  obtain ⟨hlevel, hzero⟩ := judgePermission_driveOk hu
  have hsame : permitted (judgePermission u) = false := by
    rw [judgePermission_refused hno]
    split
    · rename_i hm
      rw [← hno]
      refine permitted_of_drive rfl rfl rfl rfl rfl ?_
      rcases hm with hm | hm <;> rw [hm] <;> rfl
    · exact hno
  have h0 := hzero hsame
  rw [h.drive]
  exact ⟨h0, hlevel.1.trans h0⟩

/-- Outside RUNNING the drive is not permitted (R68, R139). -/
theorem permitted_notRunning {u : State} (h : u.em.mode ≠ .running) : permitted u = false := by
  rw [← Bool.not_eq_true, permitted_iff]
  rintro ⟨hp, -⟩
  simp only [permission, Bool.and_eq_true, beq_iff_eq] at hp
  exact h hp.1

/-! ## The requests (R69, R70, R72) -/

theorem exec_startEmission (tag : Byte) (s : State) : exec (.startEmission tag) s = request 0x20 tag [] reqStartEmission s := rfl
theorem exec_stopEmission (tag : Byte) (s : State) : exec (.stopEmission tag) s = request 0x21 tag [] reqStopEmission s := rfl
theorem exec_reAnchor (tag : Byte) (s : State) : exec (.reAnchor tag) s = request 0x22 tag [] reqReAnchor s := rfl

/-- The occasion of an entry comes before that of the change of the mute-reason set (R90). -/
theorem muteOccasions_min (s : State) {o : Nat} (h : o ≤ 11) : (muteOccasions s ++ [o]).min? = some o := by
  unfold muteOccasions
  split
  · rfl
  · simp [List.min?, h]

/-- The EMISSION notice of an answered request whose owner noted these occasions. -/
theorem noticed_emission {code tag : Byte} {bytes : List Byte} {op : State → Answer} {s t u : State} {r : Result} {body : List Byte} {o : Nat}
    (hs : Ready s) (hf : op (s.setEv {}) = ⟨u, r, body⟩) (hl : u.live = s.live) (hlink : u.link = s.link) (ha : u.alarms = s.alarms)
    (ho : u.ev.emission.min? = some o) (hem : t.em = u.em) (h : request code tag bytes op s = .next t) :
    Noticed 3 [emissionBody t (BitVec.ofNat 8 o)] s t := by
  have hn := noticed_request (kind := 3) (by decide) code tag bytes hs hf hl (congrArg _ hlink) (congrArg _ ha) h
  rw [bodiesOf_judgePermission (by decide), bodiesOf_emission, emissionNotice_eq (t := t) hem, ho] at hn
  exact hn

/-- An entry to OFF, before the directive power returns (R70). -/
def offState (s : State) : State :=
  ((s.setStore (emptiedStore s.store)).setEm { droppedEm s with mode := .off }).setEv
    { s.ev with emission := s.ev.emission ++ muteOccasions s ++ [3] }

theorem enterOff_eq (s : State) : enterOff s = setDirectivePower 1000 (spliceOff (offState s)) := by
  unfold enterOff
  dsimp only
  rw [dropAnchor_eq]
  rfl

/-- What an entry to OFF leaves beside Splicing, the clips and the drive (R70). -/
theorem enterOff_frame (s : State) : enterOff s =
    { s with
      store := emptiedStore s.store, em := { droppedEm s with mode := .off }, splice := (spliceOff (offState s)).splice,
      clips := (enterOff s).clips, drive := (enterOff s).drive, ev := (enterOff s).ev } ∧
    (enterOff s).ev.emission = s.ev.emission ++ muteOccasions s ++ [3] ∧ (enterOff s).drive.directive = 1000 := by
  have hframe := cueLocal_spliceOff.frame (offState s)
  have hlive : (spliceOff (offState s)).live = s.live := by
    rw [show spliceOff (offState s) = _ from spliceOff_only (offState s)]
    rfl
  rw [enterOff_eq]
  generalize spliceOff (offState s) = v at hframe hlive ⊢
  unfold setDirectivePower
  generalize hw : v.setDrive { v.drive with directive := (clamp 0 1000 1000).toNat } = w
  have honly := recomputeCeiling_only w
  obtain ⟨os, hev⟩ := recomputeCeiling_ev w
  have hdir : (recomputeCeiling w).drive.directive = 1000 := by
    rw [show (recomputeCeiling w).drive = _ from recomputeCeiling_level w, ← hw]
    rfl
  refine ⟨?_, ?_, hdir⟩
  · conv_lhs => rw [show recomputeCeiling w = _ from honly]
    conv_rhs => rw [show (recomputeCeiling w).clips = w.clips by rw [show recomputeCeiling w = _ from honly]]
    rw [← hw, show v = _ from hframe]
    simp only [State.setDrive, cueOver, offState, State.setStore, State.setEm, State.setEv, hlive]
  · rw [hev, ← hw, show v = _ from hframe]
    rfl

/-- Settles O45: by the request and by whether emission is OFF. -/
theorem emissionEntries : Obligations.EmissionEntries := by
  intro s tag hs emptied cleared
  have hoff0 : (s.setEv {}).em.mode = s.em.mode := rfl
  refine ⟨fun hoff hidle => ?_, fun hon => ?_, fun hoff => ?_, fun hon => ?_, fun hon => ?_, fun hoff => ?_⟩
  · have hrun : (s.setEv {}).em.mode ≠ .running := fun h => by rw [hoff0, hoff] at h; exact nomatch h
    have hem : anchoringEm (s.setEv {}) = { s.em with
        mode := .anchoring, anchor := none, gapRun := 0, resumeRun := 0, mute := { host := s.em.mute.host },
        offset := s.em.pendingOffset.getD s.em.offset, pendingOffset := none } := by
      unfold anchoringEm droppedEm
      rw [leaveRunning_off hrun, if_pos (by exact hoff)]
      rfl
    have hop : reqStartEmission (s.setEv {}) = ⟨({ s with
        store := emptied
        em := { s.em with
          mode := .anchoring, anchor := none, gapRun := 0, resumeRun := 0, mute := { host := s.em.mute.host },
          offset := s.em.pendingOffset.getD s.em.offset, pendingOffset := none }
        splice := { s.splice with lastStarted := none, offsets := cleared } } : State).setEv { emission := muteOccasions (s.setEv {}) ++ [1] },
        .ok, []⟩ := by
      refine (if_pos hoff).trans ?_
      rw [enterAnchoring_eq, spliceAnchoring_idle (by exact hidle)]
      unfold anchoringState
      rw [hem]
      rfl
    obtain ⟨t, hstep, hreply, hafter⟩ := afterRequest_intro (is := []) 0x20 tag [] hs hop rfl (.inr rfl)
    have htem : t.em = _ := congrArg State.em hafter.1
    refine ⟨t, (exec_startEmission ..).trans hstep, hreply, hafter, ?_⟩
    exact noticed_emission hs hop rfl rfl rfl (muteOccasions_min (s.setEv {}) (by decide)) htem hstep
  · have hop : reqStopEmission (s.setEv {}) = ⟨enterOff (s.setEv {}), .ok, []⟩ := if_neg hon
    obtain ⟨hframe, hoccasions, hdirective⟩ := enterOff_frame (s.setEv {})
    obtain ⟨hcues, hchannels, hstarted, hoffsets⟩ := spliceOff_channels (offState (s.setEv {}))
    obtain ⟨t, hstep, hreply, hleft⟩ := request_left 0x21 tag [] hs hop
    have hsplice : (enterOff (s.setEv {})).splice = (spliceOff (offState (s.setEv {}))).splice := by rw [hframe]
    have hlevel : LevelOk s → LevelOk (enterOff (s.setEv {})) := fun h => (keeps_enterOff (s.setEv {})).level h
    generalize enterOff (s.setEv {}) = u at *
    have hem : u.em = { droppedEm (s.setEv {}) with mode := .off } := by rw [hframe]
    refine ⟨t, (exec_stopEmission ..).trans hstep, hreply, ?_, ?_, ?_, ?_, ?_, ?_, ?_, ?_, ?_, ?_, ?_, ?_, ?_⟩
    · rw [hleft.store, hframe]
      rfl
    · rw [hleft.em, hem]
      unfold droppedEm
      rw [leaveRunning_keeps]
      rfl
    · rw [hleft.splice, hsplice, hcues]
    · intro n
      rw [hleft.splice, hsplice, hchannels]
    · rw [hleft.splice, hsplice, hstarted]
    · rw [hleft.splice, hsplice, hoffsets]
      rfl
    · rw [hleft.level]
      exact hdirective
    · refine noticed_emission hs hop (by rw [hframe]; rfl) (by rw [hframe]; rfl) (by rw [hframe]; rfl) ?_ hleft.em hstep
      rw [hoccasions]
      exact muteOccasions_min (s.setEv {}) (by decide)
    · exact fun h => (hleft.silent (hlevel h) (permitted_notRunning (by rw [hem]; exact nofun))).1
    · rw [hleft.clock, hframe]
      rfl
    · rw [hleft.feed, hframe]
      rfl
    · rw [hleft.live, hframe]
      rfl
    · rw [hleft.mem, hframe]
      rfl
  · have hop : reqStopEmission (s.setEv {}) = ⟨s.setEv {}, .ok, []⟩ := if_pos hoff
    obtain ⟨t, hstep, hreply, hafter⟩ := afterRequest_intro (u := s) (is := []) 0x21 tag [] hs hop rfl (.inr rfl)
    have hn := noticed_request (kind := 3) (by decide) 0x21 tag [] hs hop rfl rfl rfl hstep
    rw [bodiesOf_judgePermission (by decide), noticesOf_quiet rfl] at hn
    exact ⟨t, (exec_stopEmission ..).trans hstep, hreply, hafter, hn⟩
  · have hop : reqReAnchor (s.setEv {}) = ⟨enterAnchoring 4 (s.setEv {}), .ok, []⟩ := if_neg hon
    have hframe := enterAnchoring_frame 4 (s.setEv {})
    obtain ⟨hchannels, hstarted, hoffsets⟩ := spliceAnchoring_channels (anchoringState 4 (s.setEv {}))
    rw [← enterAnchoring_eq] at hchannels hstarted hoffsets
    obtain ⟨t, hstep, hreply, hleft⟩ := request_left 0x22 tag [] hs hop
    have hlevel : LevelOk s → LevelOk (enterAnchoring 4 (s.setEv {})) := fun h => (keeps_enterAnchoring 4 (s.setEv {})).level h
    generalize enterAnchoring 4 (s.setEv {}) = u at *
    have hem : u.em = anchoringEm (s.setEv {}) := by rw [hframe]
    have hcounts : (anchoringEm (s.setEv {})).counts.reAnchors = min 4294967295 (s.em.counts.reAnchors + 1) := by
      unfold anchoringEm
      rw [if_neg (by exact hon)]
      unfold droppedEm
      dsimp only
      rw [leaveRunning_counts]
      exact sat_eq_min _ _
    refine ⟨t, (exec_reAnchor ..).trans hstep, hreply, ?_, ?_, ?_, ?_, ?_, ?_, ?_, ?_, ?_, ?_, ?_, ?_, ?_, ?_, ?_, ?_⟩
    · rw [hleft.store, hframe]
      rfl
    · rw [hleft.em, hem]
      rfl
    · rw [hleft.em, hem]
      rfl
    · rw [hleft.em, hem]
      rfl
    · rw [hleft.em, hem]
      rfl
    · rw [hleft.em, hem]
      rfl
    · rw [hleft.em, hem, hcounts]
    · rw [hleft.splice]
      exact hchannels
    · rw [hleft.splice, hstarted]
    · rw [hleft.splice, hoffsets]
      rfl
    · refine noticed_emission hs hop (by rw [hframe]; rfl) (by rw [hframe]; rfl) (by rw [hframe]; rfl) ?_ hleft.em hstep
      rw [hframe]
      exact muteOccasions_min (s.setEv {}) (by decide)
    · exact fun h => (hleft.silent (hlevel h) (permitted_notRunning (by rw [hem]; exact nofun))).1
    · rw [hleft.clock, hframe]
      rfl
    · rw [hleft.feed, hframe]
      rfl
    · rw [hleft.live, hframe]
      rfl
    · rw [hleft.mem, hframe]
      rfl
  · have hop : reqStartEmission (s.setEv {}) = ⟨s.setEv {}, .refusedState, []⟩ := if_neg hon
    obtain ⟨t, hstep, hreply, hafter⟩ := afterRequest_intro (u := s) (is := []) 0x20 tag [] hs hop rfl (.inr rfl)
    exact ⟨t, (exec_startEmission ..).trans hstep, hreply, hafter⟩
  · have hop : reqReAnchor (s.setEv {}) = ⟨s.setEv {}, .refusedState, []⟩ := if_pos hoff
    obtain ⟨t, hstep, hreply, hafter⟩ := afterRequest_intro (u := s) (is := []) 0x22 tag [] hs hop rfl (.inr rfl)
    exact ⟨t, (exec_reAnchor ..).trans hstep, hreply, hafter⟩

end Sys2Proof.Machine
end

section
/-! PROOF of mutes, offsets and directives (O46), takes and the anchor (O47), and null frames (O48): what a frame's start leaves. -/

namespace Sys2Proof.Machine
open Sys2Proof

/-! ## Splicing at frame starts and ends touches its tables alone (R120, R123, R126) -/

theorem cueLocal_returnsAt (seq : Seq) (r : State) (e : Report) (s : State) (n : Four) :
    returnsAt seq (cueOver r e s) n = cueOver r e (returnsAt seq s n) := by
  unfold returnsAt
  simp only [cueOver_splice, cueLocal_returnChannel _ _ _ _ _ _]
  split
  · split
    · split
      · rfl
      · split <;> rfl
    · rfl
  · rfl

theorem cueLocal_activate (x : CueEntry) : CueLocal (activate x) := by
  intro r e s
  unfold activate
  simp only [cueOver_splice, cueOver_setChannel, cueOver_editCue, cueOver_noteChannel]
  split
  · split <;> rfl
  · rfl

theorem cueLocal_startEntry (r : State) (e : Report) (s : State) (x : CueEntry) :
    startEntry (cueOver r e s) x = cueOver r e (startEntry s x) := by
  unfold startEntry
  split
  · exact cueLocal_activate x r e s
  · simp only [cueOver_removeCue, cueOver_countMissed, cueOver_occur]
  · rfl
  · rfl

theorem cueLocal_spliceFrameStart (seq : Seq) : CueLocal (spliceFrameStart seq) := by
  intro r e s
  unfold spliceFrameStart
  simp only [cueOver_splice, cueOver_setSplice]
  rw [cueLocal_fold (fun n r e s => cueLocal_returnsAt seq r e s n)]
  simp only [cueOver_orderedCues]
  rw [cueLocal_fold (fun x r e s => cueLocal_startEntry r e s x)]
  rfl

theorem cueLocal_passedEntry (r : State) (e : Report) (s : State) (x : CueEntry) :
    passedEntry (cueOver r e s) x = cueOver r e (passedEntry s x) := by
  unfold passedEntry
  split
  · rfl
  · simp only [cueOver_removeCue, cueOver_countMissed, cueOver_occur]
  · simp only [cueOver_splice, cueOver_removeCue, cueOver_disarm]
    split
    · split <;> simp only [cueOver_countMissed, cueOver_occur]
    · simp only [cueOver_countMissed, cueOver_occur]
  · rfl

theorem cueLocal_spliceRunning (b : Seq) : CueLocal (spliceRunning b) := by
  intro r e s
  unfold spliceRunning
  simp only [cueOver_splice, cueOver_orderedCues]
  rw [cueLocal_fold (fun x r e s => cueLocal_passedEntry r e s x)]
  refine cueLocal_fold (fun n r e u => ?_) _ r e _
  by_cases h : (s.splice.channels.get n).isSome = true
  · exact (if_pos h).trans ((cueLocal_arbitrate n r e u).trans (congrArg (cueOver r e) (if_pos h).symm))
  · exact (if_neg h).trans (congrArg (cueOver r e) (if_neg h).symm)

/-- What an operation on the cue table leaves, written out. -/
theorem CueLocal.leaves {f : State → State} (hf : CueLocal f) (hlive : ∀ u, (f u).live = u.live) (s : State) : f s =
    { s with
      splice := (f s).splice, clips := (f s).clips, ev := { s.ev with items := (f s).ev.items, splice := (f s).ev.splice } } := by
  have hframe := hf.frame s
  conv_lhs => rw [hframe]
  simp only [cueOver, Report.withoutCues, hlive, List.nil_append]

theorem spliceFrameStart_live (q : Seq) (s : State) : (spliceFrameStart q s).live = s.live := by
  rw [show spliceFrameStart q s = _ from spliceFrameStart_only q s]

theorem spliceRunning_live (q : Seq) (s : State) : (spliceRunning q s).live = s.live := by
  rw [show spliceRunning q s = _ from spliceRunning_only q s]

/-- The last started sequence after a frame's start (R120). -/
theorem spliceFrameStart_started (seq : Seq) (s : State) : (spliceFrameStart seq s).splice.lastStarted = some seq := by
  have hreturn : ∀ (n : Four) (c : Channel) (r : ReturnReason) (u : State),
      (returnChannel n c r u).splice.lastStarted = u.splice.lastStarted := by
    intro n c r u
    have hmark : (markResync c.service (releaseChannel n c (noteChannel n c 3 (reasonCode r) u))).splice.lastStarted = u.splice.lastStarted := by
      unfold markResync
      split <;> rfl
    have hend : (endSplice n c r u).splice.lastStarted = u.splice.lastStarted := by
      unfold endSplice
      dsimp only
      split
      · exact hmark
      · exact hmark
    unfold returnChannel
    dsimp only
    split
    · exact hend
    · rw [(arbitrate_arbitrated n (endSplice n c r u)).1]
      exact hend
  have hreturns : ∀ (u : State) (n : Four), (returnsAt seq u n).splice.lastStarted = u.splice.lastStarted := by
    intro u n
    unfold returnsAt
    split
    · split
      · split
        · exact hreturn ..
        · split
          · exact hreturn ..
          · exact hreturn ..
          · rfl
      · rfl
    · rfl
  have hstart : ∀ (u : State) (e : CueEntry), (startEntry u e).splice.lastStarted = u.splice.lastStarted := by
    intro u e
    unfold startEntry activate
    split
    · split
      · split <;> rfl
      · rfl
    · rfl
    · rfl
    · rfl
  have hfold : ∀ {α : Type} (f : State → α → State) (_ : ∀ u x, (f u x).splice.lastStarted = u.splice.lastStarted) (xs : List α) (u : State),
      (xs.foldl f u).splice.lastStarted = u.splice.lastStarted := by
    intro α f hf xs
    induction xs with
    | nil => exact fun _ => rfl
    | cons x xs ih => exact fun u => (ih (f u x)).trans (hf u x)
  unfold spliceFrameStart
  dsimp only [State.setSplice_splice]
  rw [hfold startEntry hstart, hfold (returnsAt seq) hreturns]
  rfl

/-- With no channel ACTIVE and no cue entry, a frame's start leaves the last started sequence alone (R120). -/
theorem spliceFrameStart_idle {s : State} (seq : Seq) (hcues : s.splice.cues = [])
    (h : ∀ n c, s.splice.channels.get n = some c → c.active = false) :
    spliceFrameStart seq s = s.setSplice { s.splice with lastStarted := some seq } := by
  generalize hu : s.setSplice { s.splice with lastStarted := some seq } = u
  have hactive : ∀ n c, u.splice.channels.get n = some c → c.active = false := by rw [← hu]; exact h
  have hone : ∀ n, returnsAt seq u n = u := by
    intro n
    unfold returnsAt
    cases hc : u.splice.channels.get n with
    | none => rfl
    | some c => exact if_neg (by simp [hactive n c hc])
  have hnone : orderedCues u = [] := by
    rw [← hu]
    simp [orderedCues, hcues]
  have hdue : u.splice.channels.map (fun c => c.map makeDue) = u.splice.channels := by
    have hid : ∀ n, (u.splice.channels.get n).map makeDue = u.splice.channels.get n := by
      intro n
      cases hc : u.splice.channels.get n with
      | none => rfl
      | some c => exact congrArg some (if_neg (by simp [hactive n c hc]))
    have h1 := hid .n1
    have h2 := hid .n2
    have h3 := hid .n3
    have h4 := hid .n4
    generalize u.splice.channels = x at h1 h2 h3 h4 ⊢
    obtain ⟨a, b, c, d⟩ := x
    simp only [PerFour.get] at h1 h2 h3 h4
    simp only [PerFour.map, h1, h2, h3, h4]
  have hfirst : Four.all.foldl (returnsAt seq) u = u := by simp only [Four.all, List.foldl_cons, List.foldl_nil, hone]
  unfold spliceFrameStart
  rw [hu]
  dsimp only
  rw [hfirst, hnone]
  simp only [List.filter_nil, List.foldl_nil]
  rw [hdue]
  rfl

/-! ## A frame's start (R79, R83, R86) -/

/-- The emission state once packet 0 of frame k has left (R79, R90). -/
def startedEm (a : Anchor) (k : Nat) (s : State) : EmissionState :=
  { s.em with
    out := some ⟨frameInstant s a k, timingPacket s a k⟩, lastCount := continuityOf (timingPacket s a k), runFrame := k, runPacket := 1,
    counts :=
      if (frameContent s (frameSeq a k)).isSome then { s.em.counts with real := sat32 (s.em.counts.real + 1) }
      else { s.em.counts with null := sat32 (s.em.counts.null + 1) } }

/-- The part when Splicing has seen the frame's start. -/
def spliceStarted (a : Anchor) (k : Nat) (s : State) : State := spliceFrameStart (frameSeq a k) (s.setEm (startedEm a k s))

theorem startFrame_null {a : Anchor} {k : Nat} {s : State} (h : frameContent s (frameSeq a k) = none) :
    startFrame a k s = gapAccounting false (spliceStarted a k s) := by
  unfold startFrame spliceStarted startedEm
  dsimp only
  rw [h]
  rfl

theorem startFrame_real {a : Anchor} {k : Nat} {s : State} {x : Held} (h : frameContent s (frameSeq a k) = some x) :
    startFrame a k s = x.directives.foldl actDirective (gapAccounting true (spliceStarted a k s)) := by
  unfold startFrame spliceStarted startedEm
  dsimp only
  rw [h]
  rfl

theorem spliceStarted_leaves (a : Anchor) (k : Nat) (s : State) : spliceStarted a k s =
    { s with
      em := startedEm a k s, splice := (spliceStarted a k s).splice, clips := (spliceStarted a k s).clips,
      ev := { s.ev with items := (spliceStarted a k s).ev.items, splice := (spliceStarted a k s).ev.splice } } :=
  (cueLocal_spliceFrameStart (frameSeq a k)).leaves (spliceFrameStart_live _) (s.setEm (startedEm a k s))

/-- The gap run after a null frame's start (R83). -/
theorem gapAccounting_null {s : State} (hfeed : s.em.mute.feed = false) :
    let gap := min 255 (s.em.gapRun + 1)
    gapAccounting false s =
      if s.live.em.gapLimit ≤ gap then
        (s.setEm { s.em with gapRun := gap, resumeRun := 0, mute := { s.em.mute with feed := true } }).setEv
          { s.ev with emission := s.ev.emission ++ [11], items := s.ev.items ++ [13] }
      else s.setEm { s.em with gapRun := gap, resumeRun := 0 } := by
  intro gap
  have hgap : sat 255 (s.em.gapRun + 1) = gap := sat_eq_min _ _
  unfold gapAccounting
  simp only [hgap, Bool.false_eq_true, if_false, State.setEm_em, State.setEm_live, hfeed, Bool.not_false, Bool.true_and, decide_eq_true_eq]
  refine if_congr Iff.rfl ?_ rfl
  have hne : ({ s.em.mute with feed := true } : MuteSet) ≠ s.em.mute := fun h => by
    have := congrArg MuteSet.feed h
    simp [hfeed] at this
  rw [setMute_eq, if_neg (by exact hne)]
  rfl

/-- A real frame's start with FEED not in the set leaves both runs at 0 (R83). -/
theorem gapAccounting_fed {s : State} (hfeed : s.em.mute.feed = false) :
    gapAccounting true s = s.setEm { s.em with gapRun := 0, resumeRun := 0 } := by
  unfold gapAccounting
  simp only [if_true, hfeed, Bool.false_and, Bool.false_eq_true, if_false]

/-- The gap accounting of a real frame's start changes the two runs and FEED alone (R83). -/
theorem gapAccounting_real (s : State) : ∃ resume feed notes, gapAccounting true s =
    (s.setEm { s.em with gapRun := 0, resumeRun := resume, mute := { s.em.mute with feed := feed } }).setEv { s.ev with emission := notes } := by
  unfold gapAccounting
  simp only [if_true]
  generalize (if s.em.mute.feed = true then sat 15 (s.em.resumeRun + 1) else 0) = resume
  by_cases h : (s.em.mute.feed && decide (s.live.em.resume ≤ resume)) = true
  · rw [if_pos h, setMute_eq]
    exact ⟨0, false, _, rfl⟩
  · rw [if_neg h]
    exact ⟨resume, s.em.mute.feed, s.ev.emission, rfl⟩

/-! ## MUTE, UNMUTE, SET OFFSET and directives (R85 to R87, O46) -/

theorem exec_mute (tag : Byte) (s : State) : exec (.mute tag) s = request 0x23 tag [] reqMute s := rfl
theorem exec_unmute (tag : Byte) (s : State) : exec (.unmute tag) s = request 0x24 tag [] reqUnmute s := rfl
theorem exec_setOffset (tag : Byte) (o : BitVec 32) (s : State) :
    exec (.setOffset tag o) s = request 0x25 tag (word32Bytes o) (reqSetOffset o) s := rfl
theorem exec_packetDeparture (s : State) : exec .packetDeparture s = event departureEffect s := rfl

/-- While a mute reason stands the drive is not permitted (R68, R139). -/
theorem permitted_muted {u : State} (h : u.em.mute.isEmpty = false) : permitted u = false := by
  rw [← Bool.not_eq_true, permitted_iff]
  rintro ⟨hp, -⟩
  simp only [permission, h, Bool.and_false, Bool.false_eq_true] at hp

/-- A request that writes the mute-reason set (R85, R90). -/
theorem request_setMute {s : State} {op : State → Answer} {m : MuteSet} {code tag : Byte} (hs : Ready s)
    (hop : op (s.setEv {}) = ok (setMute m (s.setEv {}))) :
    ∃ t, request code tag [] op s = .next t ∧ Replied t code tag .ok [] ∧ AfterRequest [] { s with em := { s.em with mute := m } } t ∧
      Noticed 3 (if m = s.em.mute then [] else [emissionBody t 11]) s t := by
  have hf : op (s.setEv {}) = ⟨({ s with em := { s.em with mute := m } } : State).setEv
      { emission := if m = s.em.mute then [] else [11] }, .ok, []⟩ := by
    rw [hop, setMute_eq]
    rfl
  obtain ⟨t, hstep, hreply, hafter⟩ := afterRequest_intro (is := []) code tag [] hs hf rfl (.inr rfl)
  refine ⟨t, hstep, hreply, hafter, ?_⟩
  have hem : t.em = _ := congrArg State.em hafter.1
  by_cases h : m = s.em.mute
  · have hn := noticed_request (kind := 3) (by decide) code tag [] hs hf rfl rfl rfl hstep
    rw [bodiesOf_judgePermission (by decide), bodiesOf_emission] at hn
    refine hn.of_eq ?_
    simp only [emissionNotice, State.setEv_ev, if_pos h]
    rfl
  · rw [if_neg h]
    exact noticed_emission (o := 11) hs hf rfl rfl rfl (by simp only [State.setEv_ev, if_neg h]; rfl) hem hstep

theorem clamp_offset (o : Int) : clamp (-500000) 500000 o = if o < -500000 then -500000 else if 500000 < o then 500000 else o := rfl

/-- What an answered request leaves, in the words of `Left`. -/
theorem AfterRequest.left {items : List Nat} {u t : State} (h : AfterRequest items u t) : Left u t := h.1

theorem mute_eq_iff_host (m : MuteSet) (b : Bool) : ({ m with host := b } : MuteSet) = m ↔ m.host = b := by
  constructor
  · intro h
    exact (congrArg MuteSet.host h).symm
  · rintro rfl
    rfl

/-- The count of a directive beside what it did. -/
theorem countActed_eq (s : State) : countActed s =
    s.setEm { s.em with counts := { s.em.counts with directivesActed := min 4294967295 (s.em.counts.directivesActed + 1) } } := by
  rw [← sat_eq_min]
  rfl

theorem countPassed_eq (s : State) : countPassed s =
    s.setEm { s.em with counts := { s.em.counts with directivesPassed := min 4294967295 (s.em.counts.directivesPassed + 1) } } := by
  rw [← sat_eq_min]
  rfl

/-- A directive that is addressed to this site or to every site (R183). -/
def DirectiveHere (s : State) (d : Directive) : Prop := d.target = 0 ∨ d.target.toNat = s.live.em.siteId

section
variable {s : State} {d : Directive}

theorem actDirective_elsewhere (h : ¬ DirectiveHere s d) : actDirective s d = countPassed s := if_neg h

theorem actDirective_mute (h : DirectiveHere s d) (hk : d.kind = 1) :
    actDirective s d = countActed (setMute { s.em.mute with network := true } s) := (if_pos h).trans (if_pos hk)

theorem actDirective_unmute (h : DirectiveHere s d) (hk : d.kind = 2) :
    actDirective s d = countActed (setMute { s.em.mute with network := false } s) :=
  (if_pos h).trans ((if_neg (by rw [hk]; decide)).trans (if_pos hk))

theorem actDirective_power (h : DirectiveHere s d) (hk : d.kind = 3) :
    actDirective s d = countActed (setDirectivePower d.value.toInt s) :=
  (if_pos h).trans ((if_neg (by rw [hk]; decide)).trans ((if_neg (by rw [hk]; decide)).trans (if_pos hk)))

theorem actDirective_offset (h : DirectiveHere s d) (hk : d.kind = 4) :
    actDirective s d = countActed (setPendingOffset d.value.toInt s) :=
  (if_pos h).trans ((if_neg (by rw [hk]; decide)).trans ((if_neg (by rw [hk]; decide)).trans ((if_neg (by rw [hk]; decide)).trans (if_pos hk))))

theorem actDirective_unknown (h : DirectiveHere s d) (h1 : d.kind ≠ 1) (h2 : d.kind ≠ 2) (h3 : d.kind ≠ 3) (h4 : d.kind ≠ 4) :
    actDirective s d = countPassed s :=
  (if_pos h).trans ((if_neg h1).trans ((if_neg h2).trans ((if_neg h3).trans (if_neg h4))))

end

/-- A directive changes the Emission Scheduler, the drive and the report alone. -/
theorem actDirective_frame (s : State) (d : Directive) : actDirective s d =
    { s with em := (actDirective s d).em, drive := (actDirective s d).drive, ev := (actDirective s d).ev } := by
  by_cases h : DirectiveHere s d
  · by_cases h1 : d.kind = 1
    · rw [actDirective_mute h h1, setMute_eq]
      rfl
    · by_cases h2 : d.kind = 2
      · rw [actDirective_unmute h h2, setMute_eq]
        rfl
      · by_cases h3 : d.kind = 3
        · rw [actDirective_power h h3]
          unfold setDirectivePower
          rw [show recomputeCeiling _ = _ from recomputeCeiling_only _]
          rfl
        · by_cases h4 : d.kind = 4
          · rw [actDirective_offset h h4]
            rfl
          · rw [actDirective_unknown h h1 h2 h3 h4]
            rfl
  · rw [actDirective_elsewhere h]
    rfl

/-- What a directive does, by its address and its kind (R86, R136, R183). -/
theorem actDirective_spec (s : State) (d : Directive) :
    let u := actDirective s d
    let k := s.em.counts
    let passed : State :=
      { s with em := { s.em with counts := { k with directivesPassed := min 4294967295 (k.directivesPassed + 1) } } }
    let acted : EmissionCounts := { k with directivesActed := min 4294967295 (k.directivesActed + 1) }
    (¬ DirectiveHere s d → u = passed) ∧ (DirectiveHere s d → d.kind.toNat = 0 ∨ 4 < d.kind.toNat → u = passed) ∧
    (DirectiveHere s d → d.kind = 1 → u.em = { s.em with mute := { s.em.mute with network := true }, counts := acted } ∧ u.drive = s.drive) ∧
    (DirectiveHere s d → d.kind = 2 → u.em = { s.em with mute := { s.em.mute with network := false }, counts := acted } ∧ u.drive = s.drive) ∧
    (DirectiveHere s d → d.kind = 3 → u.em = { s.em with counts := acted } ∧ u.drive.ceiling = ceilingOf u ∧ (LevelOk s → LevelOk u) ∧
      (u.drive.directive : Int) = (if d.value.toInt < 0 then 0 else if 1000 < d.value.toInt then 1000 else d.value.toInt)) ∧
    (DirectiveHere s d → d.kind = 4 → u.drive = s.drive ∧ u.em = { s.em with
      pendingOffset := some
        (if d.value.toInt < -500000 then -500000 else if 500000 < d.value.toInt then 500000 else d.value.toInt)
      counts := acted }) := by
  intro u k passed acted
  refine ⟨fun h => ?_, fun h hk => ?_, fun h hk => ?_, fun h hk => ?_, fun h hk => ?_, fun h hk => ?_⟩
  · exact (actDirective_elsewhere h).trans (countPassed_eq s)
  · have hne (n : Byte) (hn : 1 ≤ n.toNat) (hn4 : n.toNat ≤ 4) : d.kind ≠ n := by
      rintro rfl
      omega
    exact (actDirective_unknown h (hne 1 (by decide) (by decide)) (hne 2 (by decide) (by decide)) (hne 3 (by decide) (by decide))
      (hne 4 (by decide) (by decide))).trans (countPassed_eq s)
  · have hu : u = _ := actDirective_mute h hk
    rw [setMute_eq, countActed_eq] at hu
    rw [hu]
    exact ⟨rfl, rfl⟩
  · have hu : u = _ := actDirective_unmute h hk
    rw [setMute_eq, countActed_eq] at hu
    rw [hu]
    exact ⟨rfl, rfl⟩
  · have hu : u = _ := actDirective_power h hk
    rw [countActed_eq] at hu
    have hlevel : LevelOk s → LevelOk (setDirectivePower d.value.toInt s) := fun hs => (keeps_setDirectivePower d.value.toInt s).level hs
    have hfresh := recomputeCeiling_fresh (s.setDrive { s.drive with directive := (clamp 0 1000 d.value.toInt).toNat })
    have hdir := (recomputeCeiling_level (s.setDrive { s.drive with directive := (clamp 0 1000 d.value.toInt).toNat }))
    have honly := recomputeCeiling_only (s.setDrive { s.drive with directive := (clamp 0 1000 d.value.toInt).toNat })
    change LevelOk s → LevelOk (recomputeCeiling _) at hlevel
    unfold setDirectivePower at hu
    generalize recomputeCeiling (s.setDrive { s.drive with directive := (clamp 0 1000 d.value.toInt).toNat }) = v at *
    have hem : v.em = s.em := by rw [show v = _ from honly]; rfl
    refine ⟨?_, ?_, fun hs => ?_, ?_⟩
    · rw [hu, State.setEm_em, hem]
    · rw [hu, State.setEm_drive, hfresh]
      exact ceilingOf_congr rfl rfl rfl rfl rfl rfl
    · rw [hu]
      exact (hlevel hs).of_same rfl rfl rfl rfl
    · have hd : u.drive.directive = (clamp 0 1000 d.value.toInt).toNat := by
        rw [hu, State.setEm_drive, show v.drive = _ from hdir]
        rfl
      rw [hd]
      unfold clamp
      split
      · rfl
      · split
        · rfl
        · exact Int.toNat_of_nonneg (by omega)
  · have hu : u = _ := actDirective_offset h hk
    rw [countActed_eq] at hu
    rw [hu]
    exact ⟨rfl, rfl⟩

/-- The slot of a sequence, read from the list. -/
theorem slotOf_of_getElem {s : State} {q : Seq} {x : Slot} (h : s.store.slots[q.toNat % 64]? = some x) : slotOf s q = x := by
  unfold slotOf slotIndex
  rw [List.getD_eq_getElem?_getD, show Config.slots = 64 from rfl, h]
  rfl

theorem frameContent_of_taken {s : State} {q q' : Seq} {c : Option Held} (h : s.store.slots[q.toNat % 64]? = some (.taken q' c)) :
    frameContent s q = c := by
  unfold frameContent
  rw [slotOf_of_getElem h]

theorem packetOffset_zero (s : State) : packetOffset s 0 = 0 := by simp [packetOffset]

/-- A due departure at packet 0 starts a frame (R79). -/
theorem departureEffect_start {s : State} {a : Anchor} (ha : s.em.anchor = some a) (hm : s.em.mode = .running) (h0 : s.em.runPacket = 0)
    (hn : s.em.runFrame < a.next) (hdue : frameInstant s a s.em.runFrame ≤ s.clock.time) : departureEffect s = startFrame a s.em.runFrame s := by
  have hd : departureDue s a = true := by
    unfold departureDue gridInstant
    rw [h0, packetOffset_zero]
    simp [hm, hn, hdue]
  unfold departureEffect
  rw [ha]
  exact (if_pos hd).trans (if_pos h0)

/-- Settles O46: MUTE and UNMUTE write the set, SET OFFSET the pending offset, and a directive what its kind says. -/
theorem hostMuteAndOffset : Obligations.HostMuteAndOffset := by
  refine ⟨fun s tag hs => ⟨?_, ?_, fun o => ?_⟩, fun s d => ?_, ?_⟩
  · obtain ⟨t, hstep, hreply, hafter, hn⟩ := request_setMute (op := reqMute) (code := 0x23) (tag := tag) hs rfl
    refine ⟨t, (exec_mute ..).trans hstep, hreply, hafter, hn.of_eq ?_, fun hlevel => ?_⟩
    · exact if_congr (mute_eq_iff_host _ _) rfl rfl
    · exact hafter.left.silent (hlevel.of_same rfl rfl rfl rfl) (permitted_muted (by simp [MuteSet.isEmpty]))
  · obtain ⟨t, hstep, hreply, hafter, hn⟩ := request_setMute (op := reqUnmute) (code := 0x24) (tag := tag) hs rfl
    refine ⟨t, (exec_unmute ..).trans hstep, hreply, hafter, hn.of_eq ?_⟩
    show (if ({ s.em.mute with host := false } : MuteSet) = s.em.mute then [] else _) = _
    rw [if_congr (mute_eq_iff_host s.em.mute false) rfl rfl]
    cases s.em.mute.host <;> rfl
  · intro held
    have hop : reqSetOffset o (s.setEv {}) = ⟨({ s with em := { s.em with pendingOffset := some held } } : State).setEv {},
        if held = o.toInt then .ok else .adjusted, be 4 held⟩ := rfl
    obtain ⟨t, hstep, hreply, hafter⟩ := afterRequest_intro (is := []) 0x25 tag (word32Bytes o) hs hop rfl (.inr rfl)
    refine ⟨t, (exec_setOffset ..).trans hstep, ?_, hafter⟩
    have hanswered : (if held = o.toInt then Result.ok else .adjusted) = .ok ∨ (if held = o.toInt then Result.ok else .adjusted) = .adjusted := by
      by_cases h : held = o.toInt
      · exact .inl (if_pos h)
      · exact .inr (if_neg h)
    rw [if_pos hanswered] at hreply
    exact hreply
  · obtain ⟨h1, h2, h3, h4, h5, h6⟩ := actDirective_spec s d
    intro u k passed acted here
    have hu : u = _ := actDirective_frame s d
    refine ⟨h1, h2, h3, h4, h5, h6, ?_⟩
    rw [hu]
    exact ⟨rfl, rfl, rfl, rfl, rfl, rfl, rfl⟩
  · intro s a seq h d hp ha hm h0 hn hdue hslot hdir htarget hkind
    have hcontent : frameContent (s.setEv {}) (frameSeq a s.em.runFrame) = some h := frameContent_of_taken hslot
    have hf : departureEffect (s.setEv {}) = actDirective (gapAccounting true (spliceStarted a s.em.runFrame (s.setEv {}))) d := by
      rw [departureEffect_start (s := s.setEv {}) ha hm h0 hn hdue]
      refine (startFrame_real (s := s.setEv {}) hcontent).trans ?_
      rw [hdir]
      rfl
    obtain ⟨resume, feed, notes, hgap⟩ := gapAccounting_real (spliceStarted a s.em.runFrame (s.setEv {}))
    have hlevel : LevelOk s → LevelOk (departureEffect (s.setEv {})) := fun hs => (keeps_departureEffect (s.setEv {})).level hs
    obtain ⟨t, hstep, hleft⟩ := event_left hp hf
    rw [hf] at hlevel
    have hem := ((actDirective_spec (gapAccounting true (spliceStarted a s.em.runFrame (s.setEv {}))) d).2.2.1 (.inl htarget) hkind).1
    generalize actDirective (gapAccounting true (spliceStarted a s.em.runFrame (s.setEv {}))) d = u at *
    rw [hgap, spliceStarted_leaves] at hem
    have hreal : (startedEm a s.em.runFrame (s.setEv {})).counts.real = min 4294967295 (s.em.counts.real + 1) := by
      unfold startedEm
      rw [if_pos (by rw [hcontent]; rfl)]
      exact sat_eq_min _ _
    have hacted : (startedEm a s.em.runFrame (s.setEv {})).counts.directivesActed = s.em.counts.directivesActed := by
      unfold startedEm
      split <;> rfl
    refine ⟨t, (exec_packetDeparture s).trans hstep, by rw [hleft.em, hem], by rw [hleft.em, hem]; rfl, ?_, ?_, fun hs => ?_⟩
    · rw [hleft.em, hem]
      exact congrArg (fun n => min 4294967295 (n + 1)) hacted
    · rw [hleft.em, hem]
      exact hreal
    · exact (hleft.silent (hlevel hs) (permitted_muted (by rw [hem]; simp [MuteSet.isEmpty]))).1

end Sys2Proof.Machine
end

section
/-! PROOF of null frames (O48) and of takes and the anchor (O47). -/

namespace Sys2Proof.Machine
open Sys2Proof

/-- The EMISSION notice of an event. -/
theorem event_emission {f : State → State} {s t u : State} (hp : Powered s) (hf : f (s.setEv {}) = u) (hl : u.live = s.live)
    (hlink : u.link = s.link) (ha : u.alarms = s.alarms) (hem : t.em = u.em) (h : event f s = .next t) :
    Noticed 3 (match u.ev.emission.min? with | some occasion => [emissionBody t (BitVec.ofNat 8 occasion)] | none => []) s t := by
  have hn := noticed_event (kind := 3) (by decide) hp hf hl (congrArg _ hlink) (congrArg _ ha) h
  rw [bodiesOf_judgePermission (by decide), bodiesOf_emission, emissionNotice_eq (t := t) hem] at hn
  exact hn

/-- What the start of a null frame leaves, where FEED is not in the set (R79, R83). -/
theorem startFrame_null_spec {s : State} {a : Anchor} {k : Nat} (hnull : frameContent s (frameSeq a k) = none)
    (hfeed : s.em.mute.feed = false) :
    let gap := min 255 (s.em.gapRun + 1)
    let u := startFrame a k s
    u.em = { startedEm a k s with gapRun := gap, resumeRun := 0, mute := { s.em.mute with feed := decide (s.live.em.gapLimit ≤ gap) } } ∧
    u.ev.emission = s.ev.emission ++ (if s.live.em.gapLimit ≤ gap then [11] else []) ∧
    u.ev.items = (spliceStarted a k s).ev.items ++ (if s.live.em.gapLimit ≤ gap then [13] else []) ∧
    u = { s with em := u.em, splice := u.splice, clips := u.clips, ev := u.ev } := by
  intro gap u
  have hmute : (startedEm a k s).mute = s.em.mute := rfl
  have hu : u = _ := startFrame_null hnull
  have hv := spliceStarted_leaves a k s
  generalize spliceStarted a k s = v at hu hv ⊢
  have hvem : v.em = startedEm a k s := by rw [hv]
  have hvlive : v.live = s.live := by rw [hv]
  have hgap : min 255 (v.em.gapRun + 1) = gap := by rw [hvem]; rfl
  rw [gapAccounting_null (by rw [hvem, hmute, hfeed]), hgap, hvlive] at hu
  by_cases hlimit : s.live.em.gapLimit ≤ gap
  · rw [if_pos hlimit] at hu
    simp only [if_pos hlimit, decide_eq_true hlimit]
    refine ⟨by rw [hu, hvem, hmute]; rfl, by rw [hu, hv]; rfl, by rw [hu]; rfl, ?_⟩
    rw [hu, hv]
    rfl
  · rw [if_neg hlimit] at hu
    simp only [if_neg hlimit, decide_eq_false hlimit, List.append_nil]
    refine ⟨?_, by rw [hu, hv]; rfl, by rw [hu]; rfl, ?_⟩
    · rw [hu, hvem]
      show _ = ({ startedEm a k s with gapRun := gap, resumeRun := 0, mute := { s.em.mute with feed := false } } : EmissionState)
      rw [← hfeed]
      rfl
    · rw [hu, hv]
      rfl

/-- Settles O48: the start of a null frame is counted, and at the gap limit mutes emission. -/
theorem nullFramesMuteEmission : Obligations.NullFramesMuteEmission := by
  intro s a seq hp ha hm h0 hn hdue hslot hfeed hl gap limit
  have hcontent : frameContent (s.setEv {}) (frameSeq a s.em.runFrame) = none := frameContent_of_taken hslot
  have hf : departureEffect (s.setEv {}) = startFrame a s.em.runFrame (s.setEv {}) :=
    departureEffect_start (s := s.setEv {}) ha hm h0 hn hdue
  obtain ⟨hem, hnotes, hitems, hframe⟩ := startFrame_null_spec hcontent hfeed
  have hlevel : LevelOk s → LevelOk (startFrame a s.em.runFrame (s.setEv {})) := fun hs => (keeps_startFrame a s.em.runFrame (s.setEv {})).level hs
  have hidle : s.splice.cues = [] → (∀ n c, s.splice.channels.get n = some c → c.active = false) →
      (spliceStarted a s.em.runFrame (s.setEv {})).ev.items = [] := by
    intro hcues hactive
    unfold spliceStarted
    rw [spliceFrameStart_idle (s := (s.setEv {}).setEm (startedEm a s.em.runFrame (s.setEv {}))) _ hcues hactive]
    rfl
  obtain ⟨t, hstep, hleft⟩ := event_left hp hf
  generalize startFrame a s.em.runFrame (s.setEv {}) = u at *
  have hemission := event_emission hp hf (by rw [hframe]; rfl) (by rw [hframe]; rfl) (by rw [hframe]; rfl) hleft.em hstep
  have hcounts : (startedEm a s.em.runFrame (s.setEv {})).counts =
      { s.em.counts with null := min 4294967295 (s.em.counts.null + 1) } := by
    unfold startedEm
    rw [hcontent, ← sat_eq_min]
    rfl
  refine ⟨t, (exec_packetDeparture s).trans hstep, ?_, ?_, ?_, ?_, ?_, fun hlim => ⟨?_, fun hs => ?_⟩, hemission.of_eq ?_,
    fun hlim hcues hactive => ?_, ?_, ?_, ?_⟩
  · rw [hleft.em, hem]
    rfl
  · rw [hleft.em, hem]
  · rw [hleft.em, hem]
    rfl
  · rw [hleft.em, hem]
    rfl
  · rw [hleft.em, hem]
    exact hcounts
  · have halarms : u.alarms = s.alarms := by rw [hframe]; rfl
    refine event_latches hp hf (by rw [halarms]; exact hl) hstep (by decide) (by decide) ?_
    rw [hitems, if_pos (by exact hlim)]
    exact List.mem_append_right _ (List.mem_singleton_self _)
  · refine (hleft.silent (hlevel hs) (permitted_muted ?_)).1
    rw [hem]
    simp [MuteSet.isEmpty, show s.live.em.gapLimit ≤ min 255 (s.em.gapRun + 1) from hlim]
  · rw [hnotes]
    by_cases hlim : limit ≤ gap
    · rw [if_pos hlim, if_pos (by exact hlim)]
      rfl
    · rw [if_neg hlim, if_neg (by exact hlim)]
      rfl
  · refine occurred_event (item := 13) (by decide) (by decide) hp hf ?_ (by rw [hframe]; rfl) (by rw [hframe]; rfl) (by rw [hframe]; rfl) hl hstep
    rw [hitems, hidle hcues hactive]
    exact if_pos hlim
  · rw [hleft.store, hframe]
    rfl
  · rw [hleft.clock, hframe]
    rfl
  · rw [hleft.mem, hframe]
    rfl

/-! ## Takes (R59, R78) -/

theorem exec_take (s : State) : exec .take s = event takeEffect s := rfl
theorem exec_anchorReached (s : State) : exec .anchorReached s = event anchorReachedEffect s := rfl

/-- A take that is due turns its slot TAKEN (R59). -/
theorem takeEffect_due {s : State} {a : Anchor} {x : Slot} (ha : s.em.anchor = some a) (hd : takeDue s a = true)
    (hslot : takeSlot (frameSeq a a.next) s = setSlot (frameSeq a a.next) x s) :
    takeEffect s = { s with
      store := { s.store with slots := s.store.slots.set ((a.seq + BitVec.ofNat 16 a.next).toNat % 64) x }
      em := { s.em with anchor := some { a with next := a.next + 1 } } } := by
  unfold takeEffect
  rw [ha]
  refine (if_pos hd).trans ?_
  dsimp only
  rw [hslot]
  rfl

theorem takeSlot_held {s : State} {q : Seq} {h : Held} (hs : slotOf s q = .held h) : takeSlot q s = setSlot q (.taken q (some h)) s := by
  unfold takeSlot
  rw [hs]

theorem takeSlot_free {s : State} {q : Seq} (hs : slotOf s q = .free) : takeSlot q s = setSlot q (.taken q none) s := by
  unfold takeSlot
  rw [hs]

/-! ## The anchor reached (R77, R84) -/

/-- In RUNNING, with TIME not in the set, the clock's fitness is judged (R84). -/
theorem judgeFit_running {s : State} (hm : s.em.mode = .running) (ht : s.em.mute.time = false) :
    let unfit := !s.live.em.singleSite && !clockFit s
    judgeFit s = (s.setEm { s.em with mute := { s.em.mute with time := unfit } }).setEv
      { s.ev with emission := s.ev.emission ++ if unfit then [11] else [] } := by
  intro unfit
  have hsame : ({ s.em.mute with time := false } : MuteSet) = s.em.mute := by rw [← ht]
  have hstill : ∀ u : State, u = s → u = (s.setEm { s.em with mute := { s.em.mute with time := false } }).setEv
      { s.ev with emission := s.ev.emission ++ [] } := by
    rintro u rfl
    rw [hsame, List.append_nil]
    rfl
  unfold judgeFit
  cases hsite : s.live.em.singleSite with
  | true =>
    have hfit : unfit = false := by simp [unfit, hsite]
    rw [hfit]
    exact hstill _ rfl
  | false =>
    have hfit : unfit = !clockFit s := by simp [unfit, hsite]
    rw [hfit, hm]
    simp only [Bool.false_eq_true, if_false]
    cases hc : clockFit s with
    | true =>
      refine hstill _ ?_
      rw [Bool.not_true, hsame]
      exact if_pos rfl
    | false =>
      rw [setMute_eq]
      have hne : ({ s.em.mute with time := true } : MuteSet) ≠ s.em.mute := fun h => by
        have := congrArg MuteSet.time h
        simp [ht] at this
      rw [Bool.not_false, if_neg hne]
      rfl

/-- The start of a real frame without directives, where FEED is not in the set (R79, R83). -/
theorem startFrame_plain {s : State} {a : Anchor} {k : Nat} {h : Held} (hc : frameContent s (frameSeq a k) = some h) (hd : h.directives = [])
    (hfeed : s.em.mute.feed = false) :
    startFrame a k s = (spliceStarted a k s).setEm { startedEm a k s with gapRun := 0, resumeRun := 0 } := by
  have hem : (spliceStarted a k s).em = startedEm a k s := by rw [spliceStarted_leaves]
  rw [startFrame_real hc, hd, List.foldl_nil, gapAccounting_fed (by rw [hem]; exact hfeed), hem]

/-- Entry to RUNNING, before the anchor frame's start (R77). -/
def runningState (a : Anchor) (s : State) : State :=
  let s := noteEmission 8 (setMute { host := s.em.mute.host } s)
  spliceRunning a.seq (s.setEm { s.em with mode := .running, gapRun := 0, resumeRun := 0, runFrame := 0, runPacket := 0 })

theorem runningState_leaves (a : Anchor) (s : State) : runningState a s =
    { s with
      em := { s.em with mode := .running, mute := { host := s.em.mute.host }, gapRun := 0, resumeRun := 0, runFrame := 0, runPacket := 0 }
      splice := (runningState a s).splice, clips := (runningState a s).clips,
      ev := { s.ev with
        items := (runningState a s).ev.items, splice := (runningState a s).ev.splice,
        emission := s.ev.emission ++ muteOccasions s ++ [8] } } := by
  have hrunning : runningState a s = spliceRunning a.seq ((s.setEm
      { s.em with mode := .running, mute := { host := s.em.mute.host }, gapRun := 0, resumeRun := 0, runFrame := 0, runPacket := 0 }).setEv
      { s.ev with emission := s.ev.emission ++ muteOccasions s ++ [8] }) := by
    unfold runningState
    dsimp only
    rw [setMute_eq]
    rfl
  rw [hrunning]
  exact (cueLocal_spliceRunning a.seq).leaves (spliceRunning_live _) _

/-- A packet read from memory depends on the memory alone. -/
theorem readPacket_congr {s t : State} (hm : t.mem = s.mem) (hs : t.starts = s.starts) (a : Nat) : readPacket t a = readPacket s a := by
  unfold readPacket
  rw [hm, hs]

/-- What the anchor reached leaves, with a frame and no directives (R77, R79, R84). -/
theorem anchorReachedEffect_spec {s : State} {a : Anchor} {h : Held} (ha : s.em.anchor = some a) (hm : s.em.mode = .anchoring)
    (hdue : a.instant ≤ s.clock.time) (hn : 1 ≤ a.next) (hc : frameContent s a.seq = some h) (hd : h.directives = []) :
    let p := readPacket s (slotAddress (a.seq.toNat % 64) 0)
    let u := anchorReachedEffect s
    u.em = { s.em with
      mode := .running, mute := { host := s.em.mute.host, time := !s.live.em.singleSite && !clockFit s }, gapRun := 0,
      resumeRun := 0, runFrame := 0, runPacket := 1, lastCount := continuityOf p, out := some ⟨a.instant, p⟩,
      counts := { s.em.counts with real := min 4294967295 (s.em.counts.real + 1) } } ∧
    u.splice.lastStarted = some a.seq ∧
    u.ev.emission = s.ev.emission ++ muteOccasions s ++ [8] ++ (if !s.live.em.singleSite && !clockFit s then [11] else []) ∧
    u = { s with em := u.em, splice := u.splice, clips := u.clips, ev := u.ev } := by
  intro p u
  have hanchor : anchorDue s a = true := by simp [anchorDue, hm, hdue, hn]
  have hu : u = startFrame a 0 (judgeFit (runningState a s)) := by
    simp only [u, anchorReachedEffect]
    rw [ha]
    exact if_pos hanchor
  have hr := runningState_leaves a s
  generalize runningState a s = r at hu hr
  have hmode : r.em.mode = .running := by rw [hr]
  have htime : r.em.mute.time = false := by rw [hr]
  have hfit : (!r.live.em.singleSite && !clockFit r) = (!s.live.em.singleSite && !clockFit s) := by rw [hr]; rfl
  rw [judgeFit_running hmode htime, hfit] at hu
  generalize hv : (r.setEm { r.em with mute := { r.em.mute with time := !s.live.em.singleSite && !clockFit s } }).setEv
    { r.ev with emission := r.ev.emission ++ if (!s.live.em.singleSite && !clockFit s) = true then [11] else [] } = v at hu
  have hseq : frameSeq a 0 = a.seq := by simp [frameSeq]
  have hcv : frameContent v (frameSeq a 0) = some h := by
    rw [hseq, ← hc, ← hv, hr]
    rfl
  have hfeed : v.em.mute.feed = false := by rw [← hv, hr]; rfl
  have hp : timingPacket v a 0 = p := by
    unfold timingPacket
    dsimp only
    rw [hcv, hseq]
    exact readPacket_congr (by rw [← hv, hr]; rfl) (by rw [← hv, hr]; rfl) _
  have hinstant : frameInstant v a 0 = a.instant := by simp [frameInstant]
  have hstarted : startedEm a 0 v = { s.em with
      mode := .running, mute := { host := s.em.mute.host, time := !s.live.em.singleSite && !clockFit s }, gapRun := 0,
      resumeRun := 0, runFrame := 0, runPacket := 1, lastCount := continuityOf p, out := some ⟨a.instant, p⟩,
      counts := { s.em.counts with real := min 4294967295 (s.em.counts.real + 1) } } := by
    unfold startedEm
    rw [hcv, hp, hinstant, ← sat_eq_min, ← hv, hr]
    rfl
  rw [startFrame_plain hcv hd hfeed, hstarted] at hu
  have hstart : (spliceStarted a 0 v).splice.lastStarted = some (frameSeq a 0) := spliceFrameStart_started ..
  have hleaves := spliceStarted_leaves a 0 v
  generalize spliceStarted a 0 v = w at hu hstart hleaves
  refine ⟨by rw [hu]; rfl, by rw [hu, State.setEm_splice, hstart, hseq], ?_, ?_⟩
  · rw [hu, State.setEm_ev, hleaves, ← hv, hr]
    rfl
  · rw [hu, hleaves, ← hv, hr]
    rfl

/-! ## The anchor candidate (R50, R73 to R75) -/

/-- A required depth above 64, as the delay (R73). -/
theorem requiredDepth_deep {s : State} {d : Int} (hp : 1 ≤ s.live.em.period) :
    64 < requiredDepth s d ↔ 63 * (s.live.em.period : Int) < d := by
  have hpos : (0 : Int) < period s := by exact_mod_cast hp
  have hdiv : -d / (period s : Int) < -63 ↔ -d < -63 * (period s : Int) := Int.ediv_lt_iff_lt_mul hpos
  unfold requiredDepth
  have hper : (period s : Int) = s.live.em.period := rfl
  rw [hper] at hdiv ⊢
  omega

/-- A candidate taken as anchor (R75). -/
theorem takeAnchor_spec (o : Offer) (s : State) :
    let u := takeAnchor o s
    u.em = { s.em with
      anchor := some { seq := o.timing.seq, instant := anchorInstant s o, counter := 0, next := 0 }, dLast := o.timing.delay,
      counts := { s.em.counts with anchorsTaken := min 4294967295 (s.em.counts.anchorsTaken + 1) } } ∧
    u.store = { s.store with
      base := some o.timing.seq, jumpRun := 0, mismatchRun := 0,
      counts := s.store.counts.set o.port
        { s.store.counts.get o.port with admitted := min 65535 ((s.store.counts.get o.port).admitted + 1) },
      slots := s.store.slots.set (slotIndex o.timing.seq) (.held (heldCopy o (anchorInstant s o))) } ∧
    u.ev.emission = s.ev.emission ++ [9] ∧ u.clock = s.clock ∧ u.feed = s.feed ∧ u.drive = s.drive := by
  intro u
  have hu : u = takeAnchor o s := rfl
  unfold takeAnchor at hu
  dsimp only at hu
  generalize anchorInstant s o = i at hu ⊢
  generalize hb : setBase (some o.timing.seq) (s.setEm { s.em with anchor := some { seq := o.timing.seq, instant := i } }) = b at hu
  unfold admitCopy at hu
  have hnotes : (networkCues o.timing.seq o.timing.cues (slotFilled o i b)).ev.emission = s.ev.emission := by
    rw [networkCues_frame, ← hb]
    rfl
  rw [placeCopy_frame] at hu
  generalize networkCues o.timing.seq o.timing.cues (slotFilled o i b) = v at hu hnotes
  rw [← sat_eq_min, ← sat_eq_min]
  refine ⟨?_, ?_, ?_, ?_, ?_, ?_⟩
  · rw [hu, ← hb]
    rfl
  · rw [hu, ← hb]
    rfl
  · rw [hu]
    exact congrArg (· ++ [9]) hnotes
  · rw [hu, ← hb]
    rfl
  · rw [hu, ← hb]
    rfl
  · rw [hu, ← hb]
    rfl

/-- Settles O47: takes by their cut-off, the anchor reached with its frame, and the candidate by the tests of R74 in order. -/
theorem takesAndTheAnchor : Obligations.TakesAndTheAnchor := by
  refine ⟨fun s a hp ha => ?_, ?_⟩
  · intro seq taken
    have hframe : frameInstant (s.setEv {}) a a.next = a.instant + (a.next * s.live.em.period : Nat) := rfl
    have htake : a.instant + (a.next * s.live.em.period : Nat) - 2000 ≤ s.clock.time → a.next ≤ a.counter + 1 →
        a.next = 0 ∨ s.em.mode = .running → ∀ x, takeSlot (frameSeq a a.next) (s.setEv {}) = setSlot (frameSeq a a.next) x (s.setEv {}) →
        ∃ t, exec .take s = .next t ∧ AfterEvent [] (taken x) t := by
      intro hdue hnext hmode x hx
      have hd : takeDue (s.setEv {}) a = true := by
        simp only [takeDue, hframe, Bool.and_eq_true, Bool.or_eq_true, decide_eq_true_eq, beq_iff_eq]
        exact ⟨⟨hdue, hnext⟩, hmode⟩
      obtain ⟨t, hstep, hafter⟩ := afterEvent_intro (u := taken x) (is := []) (e := {}) hp (takeEffect_due (s := s.setEv {}) ha hd hx) rfl (.inr rfl)
      exact ⟨t, (exec_take s).trans hstep, hafter⟩
    refine ⟨fun hdue hnext hmode => ⟨fun h hslot => ?_, fun hslot => ?_⟩, fun hearly => ?_, fun q h hm hdue hn hslot hd => ?_⟩
    · exact htake hdue hnext hmode _ (takeSlot_held (slotOf_of_getElem (s := s.setEv {}) hslot))
    · exact htake hdue hnext hmode _ (takeSlot_free (slotOf_of_getElem (s := s.setEv {}) hslot))
    · have hd : takeDue (s.setEv {}) a = false := by
        rw [Bool.eq_false_iff]
        simp only [takeDue, hframe, ne_eq, Bool.and_eq_true, decide_eq_true_eq]
        rintro ⟨⟨h, -⟩, -⟩
        exact absurd h (not_le.mpr hearly)
      have hf : takeEffect (s.setEv {}) = s.setEv {} := by
        unfold takeEffect
        rw [show (s.setEv {}).em.anchor = some a from ha]
        exact if_neg (by simp [hd])
      obtain ⟨t, hstep, hafter⟩ := afterEvent_intro (u := s) (is := []) hp hf rfl (.inr rfl)
      exact ⟨t, (exec_take s).trans hstep, hafter⟩
    · intro p
      have hc : frameContent (s.setEv {}) a.seq = some h := frameContent_of_taken hslot
      obtain ⟨hem, hstarted, hnotes, hleaves⟩ := anchorReachedEffect_spec (s := s.setEv {}) ha hm hdue hn hc hd
      generalize hf : anchorReachedEffect (s.setEv {}) = v at hem hstarted hnotes hleaves
      obtain ⟨t, hstep, hleft⟩ := event_left hp hf
      have hemission := event_emission hp hf (by rw [hleaves]; rfl) (by rw [hleaves]; rfl) (by rw [hleaves]; rfl) hleft.em hstep
      refine ⟨t, (exec_anchorReached s).trans hstep, by rw [hleft.em, hem]; rfl, by rw [hleft.splice, hstarted],
        by rw [hleft.store, hleaves]; rfl, by rw [hleft.clock, hleaves]; rfl, by rw [hleft.feed, hleaves]; rfl,
        by rw [hleft.live, hleaves]; rfl, by rw [hleft.mem, hleaves]; rfl, hemission.of_eq ?_⟩
      have hmin : v.ev.emission.min? = some 8 := by
        rw [hnotes]
        unfold muteOccasions
        split <;> split <;> rfl
      rw [hmin]
      rfl
  · intro s o hm hk ha u k c stamped delay instant late unfit held deep passed hp
    have hu : u = judgeCandidate o s := by
      refine (if_neg (by rw [hm]; decide)).trans ((if_neg (by simp [hk])).trans ?_)
      rw [ha]
    have hinstant : anchorInstant s o = instant := rfl
    have hdeep : 64 < requiredDepth s (depthDelay s o) ↔ deep := requiredDepth_deep hp
    have hlate : (!s.live.em.singleSite && stampedLate s o) = true ↔ late := by
      simp only [Bool.and_eq_true, Bool.not_eq_true', stampedLate, Bool.or_eq_true, decide_eq_true_eq, late, stamped, or_assoc]
      refine and_congr_right fun h => ?_
      simp only [instant, h, Bool.false_eq_true, if_false]
      exact Iff.rfl
    have hunfit : (!s.live.em.singleSite && !clockFit s) = true ∨
        (!s.live.em.singleSite && decide (stampedInstant s o - o.arrival < s.live.em.lead)) = true ↔ unfit := by
      simp only [Bool.and_eq_true, Bool.not_eq_true', decide_eq_true_eq, unfit, stamped, ← and_or_left]
      refine and_congr_right fun h => ?_
      simp only [instant, h, Bool.false_eq_true, if_false]
      exact Iff.rfl
    have hrest : ¬ late → ¬ unfit → u = if 64 < requiredDepth s (depthDelay s o) then
        occur 16 (countEmission (fun c => { c with depthRefusals := sat32 (c.depthRefusals + 1) }) s)
        else if anchorInstant s o - Config.stageLead ≤ s.clock.time then s else takeAnchor o s := by
      intro hl hun
      obtain ⟨h1, h2⟩ := not_or.mp (mt hunfit.mp hun)
      rw [hu]
      exact (if_neg (mt hlate.mp hl)).trans ((if_neg h1).trans (if_neg h2))
    refine ⟨fun hl => ?_, fun hl hun => ?_, fun hl hun hdp => ?_, fun hl hun hdp hps => ?_, fun hl hun hdp hps => ?_⟩
    · rw [hu, ← sat_eq_min]
      exact if_pos (hlate.mpr hl)
    · rw [hu]
      refine (if_neg (mt hlate.mp hl)).trans ?_
      by_cases h1 : (!s.live.em.singleSite && !clockFit s) = true
      · exact if_pos h1
      · exact (if_neg h1).trans (if_pos ((hunfit.mpr hun).resolve_left h1))
    · rw [hrest hl hun, if_pos (hdeep.mpr hdp), ← sat_eq_min]
      exact ⟨List.mem_append_right _ (List.mem_singleton_self _), rfl⟩
    · rw [hrest hl hun, if_neg (mt hdeep.mp hdp)]
      exact if_pos hps
    · have htaken : u = takeAnchor o s := by
        rw [hrest hl hun, if_neg (mt hdeep.mp hdp)]
        exact if_neg hps
      rw [htaken]
      exact takeAnchor_spec o s

end Sys2Proof.Machine
end

section
/-! PROOF of the packets that leave (O49). -/

namespace Sys2Proof.Machine
open Sys2Proof

/-! ## Due departures -/

/-- A due departure at a packet after the first (R79). -/
theorem departureEffect_within {s : State} {a : Anchor} (ha : s.em.anchor = some a) (hm : s.em.mode = .running) (h1 : 1 ≤ s.em.runPacket)
    (hdue : gridInstant s a s.em.runFrame s.em.runPacket ≤ s.clock.time) :
    departureEffect s = departPacket a s.em.runFrame s.em.runPacket s := by
  have h0 : s.em.runPacket ≠ 0 := Nat.one_le_iff_ne_zero.mp h1
  have hd : departureDue s a = true := by simp [departureDue, hm, hdue, h0]
  unfold departureEffect
  rw [ha]
  exact (if_pos hd).trans (if_neg h0)

/-- The packet of a held frame. -/
theorem framePacket_of_taken {s : State} {a : Anchor} {k : Nat} {q : Seq} {h : Held}
    (hs : s.store.slots[(frameSeq a k).toNat % 64]? = some (.taken q (some h))) (j : Nat) :
    framePacket s a k j = readPacket s (slotAddress ((frameSeq a k).toNat % 64) j) := by
  unfold framePacket
  dsimp only
  rw [frameContent_of_taken hs]
  rfl

/-- A packet before the frame's last leaves as Splicing gives it back. -/
theorem departPacket_within {s v : State} {a : Anchor} {k j : Nat} {q : Packet} (hsub : substitute (framePacket s a k j) s = (q, v))
    (hlive : v.live = s.live) (hj : j + 1 < s.live.em.packets) :
    departPacket a k j s = v.setEm { v.em with out := some ⟨gridInstant s a k j, q⟩, runPacket := j + 1 } := by
  have hn : j + 1 ≠ perFrame (sendPacket (gridInstant s a k j) q v) := by
    show j + 1 ≠ v.live.em.packets
    rw [hlive]
    exact Nat.ne_of_lt hj
  unfold departPacket
  dsimp only
  rw [hsub, if_neg hn]
  rfl

/-- The frame's last packet ends the frame (R61, R79). -/
theorem departPacket_last {s v : State} {a : Anchor} {k j : Nat} {q : Packet} (hsub : substitute (framePacket s a k j) s = (q, v))
    (hlive : v.live = s.live) (hj : j + 1 = s.live.em.packets) :
    departPacket a k j s = finishFrame (sendPacket (gridInstant s a k j) q v) := by
  have hn : j + 1 = perFrame (sendPacket (gridInstant s a k j) q v) := by
    show j + 1 = v.live.em.packets
    rw [hlive]
    exact hj
  unfold departPacket
  dsimp only
  rw [hsub, if_pos hn]

/-! ## The end of a frame -/

def NoneActive (s : State) : Prop := ∀ n c, s.splice.channels.get n = some c → c.active = false

/-- With no channel ACTIVE the end of a frame does nothing at Splicing (R123). -/
theorem spliceFrameEnd_idle {s : State} (h : NoneActive s) : spliceFrameEnd s = s := by
  have hone : ∀ n, backlogAt s n = s := fun n => by
    unfold backlogAt
    cases hc : s.splice.channels.get n with
    | none => rfl
    | some c => exact if_neg (by simp [h n c hc])
  unfold spliceFrameEnd
  generalize Four.all = ns
  induction ns with
  | nil => rfl
  | cons n ns ih => rw [List.foldl_cons, hone, ih]

theorem endFrame_eq {s : State} {b : Seq} {a : Anchor} (hb : s.store.base = some b) (ha : s.em.anchor = some a) : endFrame s =
    { s with
      store := { s.store with slots := s.store.slots.set (b.toNat % 64) .free, base := some (b + 1) }
      splice := { s.splice with cueRef := b + 1 }
      em := { s.em with anchor := some { a with counter := a.counter + 1 } } } := by
  unfold endFrame
  rw [hb, ha]
  rfl

theorem rebase_early {s : State} {a : Anchor} (ha : s.em.anchor = some a) (hc : a.counter < 2147483648) : rebase s = s := by
  unfold rebase
  rw [ha]
  exact if_neg (Nat.ne_of_lt hc)

theorem finishFrame_idle {s : State} {b : Seq} {a : Anchor} (hb : s.store.base = some b) (ha : s.em.anchor = some a)
    (hc : a.counter + 1 < 2147483648) (hidle : NoneActive s) : finishFrame s =
    { s with
      store := { s.store with slots := s.store.slots.set (b.toNat % 64) .free, base := some (b + 1) }
      splice := { s.splice with cueRef := b + 1 }
      em := { s.em with runFrame := s.em.runFrame + 1, runPacket := 0, anchor := some { a with counter := a.counter + 1 } } } := by
  unfold finishFrame
  rw [endFrame_eq (s := s.setEm { s.em with runFrame := s.em.runFrame + 1, runPacket := 0 }) hb ha]
  refine (congrArg spliceFrameEnd (rebase_early rfl hc)).trans (spliceFrameEnd_idle ?_)
  exact hidle

/-! ## Substitution and the continuity rewrite -/

theorem freedBy_active {s : State} {stream : Nat} {n : Four} {c : Channel} (h : freedBy s stream = some (n, c)) :
    s.splice.channels.get n = some c ∧ c.active = true := by
  obtain ⟨m, -, hm⟩ := List.exists_of_findSome?_eq_some h
  split at hm
  · rename_i c' hc
    split at hm
    · obtain ⟨rfl, rfl⟩ := Prod.mk.inj (Option.some.inj hm)
      rename_i ha
      simp only [Bool.and_eq_true] at ha
      exact ⟨hc, ha.1⟩
    · cases hm
  · cases hm

theorem harvester_active {s : State} {n : Four} {c : Channel} (h : harvester s = some (n, c)) :
    s.splice.channels.get n = some c ∧ c.active = true ∧ 0 < c.due := by
  obtain ⟨m, -, hm⟩ := List.exists_of_findSome?_eq_some h
  split at hm
  · rename_i c' hc
    split at hm
    · obtain ⟨rfl, rfl⟩ := Prod.mk.inj (Option.some.inj hm)
      rename_i ha
      simp only [Bool.and_eq_true, decide_eq_true_eq] at ha
      exact ⟨hc, ha.1.1, ha.2⟩
    · cases hm
  · cases hm

theorem harvester_none {s : State} (h : NoneActive s) : harvester s = none := by
  refine Option.eq_none_iff_forall_ne_some.mpr fun ⟨n, c⟩ hc => ?_
  obtain ⟨hget, hactive, -⟩ := harvester_active hc
  rw [h n c hget] at hactive
  cases hactive

theorem freedBy_none {s : State} (h : NoneActive s) (stream : Nat) : freedBy s stream = none := by
  refine Option.eq_none_iff_forall_ne_some.mpr fun ⟨n, c⟩ hc => ?_
  obtain ⟨hget, hactive⟩ := freedBy_active hc
  rw [h n c hget] at hactive
  cases hactive

theorem rewrite_none {s : State} {p : Packet} (h : offsetRec s (streamOf p) = none) (inserted : Bool) : rewrite inserted p s = (p, s) := by
  unfold rewrite
  rw [h]

theorem substitute_unchanged {s : State} {p : Packet} (h : NoneActive s) (hp : streamOf p = 8191 ∨ offsetRec s (streamOf p) = none) :
    substitute p s = (p, s) := by
  unfold substitute
  rw [harvester_none h, freedBy_none h]
  by_cases hn : streamOf p = 8191
  · exact if_pos hn
  · exact (if_neg hn).trans (rewrite_none (hp.resolve_left hn) _)

/-- A channel that frees the stream, or that harvests a null packet, takes the position (R121, R122). -/
theorem substitute_taken {s : State} {p : Packet} {n : Four} {c : Channel}
    (h : (streamOf p ≠ 8191 ∧ freedBy s (streamOf p) = some (n, c)) ∨ (streamOf p = 8191 ∧ harvester s = some (n, c))) :
    substitute p s = takePosition n c s := by
  unfold substitute
  rcases h with ⟨hn, hf⟩ | ⟨hn, hf⟩
  · exact (if_neg hn).trans (by rw [hf])
  · exact (if_pos hn).trans (by rw [hf])

theorem substitute_network {s : State} {p : Packet} (hn : streamOf p ≠ 8191) (hf : freedBy s (streamOf p) = none) :
    substitute p s = rewrite false p s := by
  unfold substitute
  exact (if_neg hn).trans (by rw [hf])

theorem lookup_eq_find? (m : List (Nat × Nat)) (k : Nat) : m.lookup k = (m.find? (fun x => x.1 = k)).map (·.2) := by
  induction m with
  | nil => rfl
  | cons x m ih =>
    rw [List.lookup_cons, List.find?_cons]
    by_cases h : x.1 = k
    · simp [h]
    · have hk : (k == x.1) = false := by simp [Ne.symm h]
      simp [h, hk, ih]

theorem offsetRec_stream {s : State} {stream : Nat} {r : OffsetRec} (h : offsetRec s stream = some r) : r.stream = stream := by
  simpa using List.find?_some h

/-- The record of a stream after its record has been set. -/
theorem offsetRec_setOffsetRec {s : State} {stream : Nat} {r r' : OffsetRec} (h : offsetRec s stream = some r) (hr : r'.stream = stream) :
    offsetRec (setOffsetRec r' s) stream = some r' := by
  unfold offsetRec setOffsetRec at *
  simp only [State.setSplice_splice, List.find?_map]
  have hsame : (fun x : OffsetRec => decide (x.stream = stream)) ∘ (fun x => if x.stream = r'.stream then r' else x) =
      fun x => decide (x.stream = stream) := by
    funext x
    simp only [Function.comp_apply]
    split
    · simp_all
    · rfl
  rw [hsame, h]
  have : r.stream = stream := by simpa using List.find?_some h
  simp [this, hr]

theorem length_readPacket (s : State) (a : Nat) : (readPacket s a).length = 188 := by simp [readPacket]

/-- The stream bytes read back (10.1). -/
theorem streamOf_setStream {p : Packet} (hp : 3 ≤ p.length) {stream : Nat} (hs : stream < 8192) : streamOf (setStream p stream) = stream := by
  unfold streamOf setStream pbyte
  have h1 : 1 < p.length := by omega
  have h2 : 2 < p.length := by omega
  simp only [List.getD_eq_getElem?_getD, List.getElem?_set, List.length_set, h1, h2, if_true, OfNat.ofNat_ne_one, if_false,
    Option.getD_some, BitVec.toNat_ofNat]
  omega

theorem pbyte_three_setStream (p : Packet) (stream : Nat) : pbyte (setStream p stream) 3 = pbyte p 3 := by
  unfold setStream pbyte
  simp [List.getD_eq_getElem?_getD]

theorem takePosition_idle {n : Four} {c : Channel} (h : c.due = 0) (s : State) : takePosition n c s = (nullPacket, s) := if_pos h

theorem takePosition_unmapped {n : Four} {c : Channel} {s : State} (hd : 0 < c.due)
    (hm : c.map.lookup (streamOf (readPacket s (clipAddress ((clipRec s c.clip).base + c.read)))) = none) :
    takePosition n c s = (nullPacket, setChannel n (some { c with read := c.read + 1, due := c.due - 1 }) s) := by
  rw [lookup_eq_find?, Option.map_eq_none_iff] at hm
  refine (if_neg (Nat.pos_iff_ne_zero.mp hd)).trans ?_
  dsimp only
  rw [hm]

theorem takePosition_mapped {n : Four} {c : Channel} {s : State} {stream : Nat} {r : OffsetRec} (hd : 0 < c.due)
    (hm : c.map.lookup (streamOf (readPacket s (clipAddress ((clipRec s c.clip).base + c.read)))) = some stream) (hs : stream ≤ 8190)
    (hr : offsetRec s stream = some r) :
    let q := readPacket s (clipAddress ((clipRec s c.clip).base + c.read))
    takePosition n c s = (setContinuity (setStream q stream) (insertedCount r q),
      setOffsetRec { r with last := some (insertedCount r q) } (setChannel n (some { c with read := c.read + 1, due := c.due - 1 }) s)) := by
  intro q
  rw [lookup_eq_find?, Option.map_eq_some_iff] at hm
  obtain ⟨x, hx, rfl⟩ := hm
  refine (if_neg (Nat.pos_iff_ne_zero.mp hd)).trans ?_
  dsimp only
  rw [hx]
  have hstream : streamOf (setStream q x.2) = x.2 := streamOf_setStream (by rw [length_readPacket]; decide) (by omega)
  have hcount : insertedCount r (setStream q x.2) = insertedCount r q := by
    unfold insertedCount carriesPayload continuityOf
    rw [pbyte_three_setStream]
  show rewrite true (setStream q x.2) _ = _
  unfold rewrite
  rw [hstream, show offsetRec (setChannel n (some { c with read := c.read + 1, due := c.due - 1 }) s) x.2 = some r from hr]
  simp only [if_true, hcount]

theorem rewrite_network {s : State} {p : Packet} {r : OffsetRec} (hr : offsetRec s (streamOf p) = some r) :
    rewrite false p s = (setContinuity p (networkCount (resynced r p) p),
      setOffsetRec { resynced r p with last := some (networkCount (resynced r p) p) } s) := by
  unfold rewrite
  rw [hr]
  rfl

/-! ## The free grid (R80) -/

theorem exec_freeGridPacket (s : State) : exec .freeGridPacket s = event freeGridEffect s := rfl

theorem freeGridEffect_due {s : State} (hm : s.em.mode ≠ .running) (ha : s.em.anchor = none) (hdue : freeInstant s ≤ s.clock.time) :
    freeGridEffect s = s.setEm { s.em with
      out := some ⟨freeInstant s, nullPacket⟩
      freePeriod := if perFrame s ≤ s.em.freePacket + 1 then s.em.freePeriod + 1 else s.em.freePeriod
      freePacket := if perFrame s ≤ s.em.freePacket + 1 then 0 else s.em.freePacket + 1 } := by
  have hw : freeWithheld s = false := by
    unfold freeWithheld
    rw [ha]
  refine (if_pos ⟨hm, hdue⟩).trans ?_
  rw [hw]
  show (if perFrame s ≤ s.em.freePacket + 1 then _ else _) = _
  by_cases h : perFrame s ≤ s.em.freePacket + 1
  · simp only [if_pos h]
    rfl
  · simp only [if_neg h]
    rfl

/-- Settles O49: a packet within a frame leaves as Splicing gives it back, by who takes its position, and null packets on the free grid. -/
theorem packetsLeaveAtTheirInstants : Obligations.PacketsLeaveAtTheirInstants := by
  intro s hp null
  refine ⟨fun a seq h ha hm h1 hslot => ?_, ?_⟩
  · intro j at_ p hdue
    have hpacket : framePacket (s.setEv {}) a s.em.runFrame j = p :=
      framePacket_of_taken (s := s.setEv {}) hslot j
    have hinstant : gridInstant (s.setEv {}) a s.em.runFrame j = at_ := rfl
    have hdepart : departureEffect (s.setEv {}) = departPacket a s.em.runFrame j (s.setEv {}) :=
      departureEffect_within (s := s.setEv {}) ha hm h1 hdue
    have hwithin : ∀ q v, substitute p (s.setEv {}) = (q, v) → v.live = s.live → j + 1 < s.live.em.packets →
        departureEffect (s.setEv {}) = v.setEm { v.em with out := some ⟨at_, q⟩, runPacket := j + 1 } := by
      intro q v hsub hlive hj
      rw [hdepart, departPacket_within (s := s.setEv {}) (q := q) (v := v) (j := j) (by rw [hpacket]; exact hsub) hlive hj, hinstant]
    refine ⟨fun hidle hplain => ⟨fun hj => ?_, fun b hj hb hc => ?_⟩, fun n c htake hj => ?_, fun n c hn hf h0 hj => ?_,
      fun r hn hf hr hj => ?_⟩
    · have hu := hwithin p (s.setEv {}) (substitute_unchanged hidle hplain) rfl hj
      obtain ⟨t, hstep, hafter⟩ := afterEvent_intro (u := { s with em := { s.em with out := some ⟨at_, p⟩, runPacket := j + 1 } })
        (is := []) (e := {}) hp hu rfl (.inr rfl)
      exact ⟨t, (exec_packetDeparture s).trans hstep, hafter⟩
    · have hlast : departureEffect (s.setEv {}) = finishFrame (sendPacket at_ p (s.setEv {})) := by
        rw [hdepart, departPacket_last (s := s.setEv {}) (j := j) (by rw [hpacket]; exact substitute_unchanged hidle hplain) rfl hj, hinstant]
      rw [finishFrame_idle (s := sendPacket at_ p (s.setEv {})) hb ha hc hidle] at hlast
      obtain ⟨t, hstep, hafter⟩ := afterEvent_intro (is := []) (e := {}) hp (hlast.trans
        (show _ = ({ s with
          em := { s.em with
            out := some ⟨at_, p⟩, runFrame := s.em.runFrame + 1, runPacket := 0,
            anchor := some { a with counter := a.counter + 1 } }
          store := { s.store with slots := s.store.slots.set (b.toNat % 64) .free, base := some (b + 1) }
          splice := { s.splice with cueRef := b + 1 } } : State).setEv {} from rfl)) rfl (.inr rfl)
      exact ⟨t, (exec_packetDeparture s).trans hstep, hafter⟩
    · intro q
      have hdue : 0 < c.due := by
        rcases htake with ⟨-, -, h⟩ | ⟨-, h⟩
        · exact h
        · exact (harvester_active h).2.2
      have hsub : substitute p (s.setEv {}) = takePosition n c (s.setEv {}) :=
        substitute_taken (s := s.setEv {}) (htake.imp (fun ⟨h1, h2, _⟩ => ⟨h1, h2⟩) id)
      refine ⟨fun stream r hmap hstream hr => ?_, fun hmap => ?_⟩
      · intro count
        have hpos := takePosition_mapped (s := s.setEv {}) (n := n) hdue hmap hstream hr
        have hcount : insertedCount r q = count := by
          cases hl : r.last <;> simp [insertedCount, count, hl]
        have hu := hwithin _ _ (hsub.trans hpos) rfl hj
        have hoffset := offsetRec_setOffsetRec (s := setChannel n (some { c with read := c.read + 1, due := c.due - 1 }) (s.setEv {}))
          (r' := { r with last := some (insertedCount r q) }) hr (show r.stream = stream from offsetRec_stream hr)
        rw [show insertedCount r (readPacket (s.setEv {}) (clipAddress ((clipRec (s.setEv {}) c.clip).base + c.read))) = count from hcount] at hu
        rw [hcount] at hoffset
        obtain ⟨t, hstep, hleft⟩ := event_left hp hu
        refine ⟨t, (exec_packetDeparture s).trans hstep, hleft.em, by rw [hleft.splice]; rfl, ?_, by rw [hleft.splice]; rfl, hleft.store,
          hleft.clips, hleft.clock, hleft.mem⟩
        exact (show offsetRec t stream = offsetRec (setOffsetRec { r with last := some count }
          (setChannel n (some { c with read := c.read + 1, due := c.due - 1 }) (s.setEv {}))) stream by
            unfold offsetRec; rw [hleft.splice]; rfl).trans hoffset
      · have hu := hwithin _ _ (hsub.trans (takePosition_unmapped (s := s.setEv {}) hdue hmap)) rfl hj
        obtain ⟨t, hstep, hafter⟩ := afterEvent_intro (is := []) (e := {}) hp (hu.trans
          (show _ = ({ s with
            em := { s.em with out := some ⟨at_, null⟩, runPacket := j + 1 }
            splice := { s.splice with channels := s.splice.channels.set n (some { c with read := c.read + 1, due := c.due - 1 }) } } :
              State).setEv {} from rfl)) rfl (.inr rfl)
        exact ⟨t, (exec_packetDeparture s).trans hstep, hafter⟩
    · have hsub : substitute p (s.setEv {}) = (nullPacket, s.setEv {}) :=
        (substitute_taken (s := s.setEv {}) (.inl ⟨hn, hf⟩)).trans (takePosition_idle h0 _)
      obtain ⟨t, hstep, hafter⟩ := afterEvent_intro (u := { s with em := { s.em with out := some ⟨at_, null⟩, runPacket := j + 1 } })
        (is := []) (e := {}) hp (hwithin _ _ hsub rfl hj) rfl (.inr rfl)
      exact ⟨t, (exec_packetDeparture s).trans hstep, hafter⟩
    · intro resyncs offset count
      have hsub : substitute p (s.setEv {}) = _ := (substitute_network (s := s.setEv {}) hn hf).trans (rewrite_network hr)
      have hrec : resynced r p = { r with offset := offset, resync := if resyncs then false else r.resync } := by
        unfold resynced
        by_cases hc : resyncs
        · have hb : (r.resync && carriesPayload p) = true := by simpa [resyncs] using hc
          rw [if_pos hb]
          cases hl : r.last <;> simp [offset, if_pos hc, hl]
        · have hb : ¬ (r.resync && carriesPayload p) = true := by simpa [resyncs] using hc
          simp only [offset, if_neg hc, if_neg hb]
      have hcount : networkCount (resynced r p) p = count := by
        rw [hrec]
        simp only [networkCount, count]
        by_cases hc : resyncs
        · rw [if_pos hc, if_neg (by simp), if_neg (fun h => h.2 hc)]
        · rw [if_neg hc]
          by_cases hy : r.resync = true
          · rw [if_pos hy, if_pos ⟨hy, hc⟩]
            cases r.last <;> rfl
          · rw [if_neg hy, if_neg (fun h => hy h.1)]
      rw [hcount, hrec] at hsub
      have hstream : r.stream = streamOf p := offsetRec_stream hr
      obtain ⟨t, hstep, hafter⟩ := afterEvent_intro (is := []) (e := {}) hp ((hwithin _ _ hsub rfl hj).trans
        (show _ = ({ s with
          em := { s.em with out := some ⟨at_, setContinuity p count⟩, runPacket := j + 1 }
          splice := { s.splice with offsets := s.splice.offsets.map (fun x =>
            if x.stream = streamOf p then
              { r with last := some count, offset := offset, resync := if resyncs then false else r.resync }
            else x) } } : State).setEv {} by rw [← hstream]; rfl)) rfl (.inr rfl)
      exact ⟨t, (exec_packetDeparture s).trans hstep, hafter⟩
  · intro hm ha i at_ hdue
    obtain ⟨t, hstep, hafter⟩ := afterEvent_intro (is := []) (e := {}) hp ((freeGridEffect_due (s := s.setEv {}) hm ha hdue).trans
      (show _ = ({ s with em := { s.em with
          out := some ⟨at_, null⟩
          freePeriod := if s.live.em.packets ≤ i + 1 then s.em.freePeriod + 1 else s.em.freePeriod
          freePacket := if s.live.em.packets ≤ i + 1 then 0 else i + 1 } } : State).setEv {} from rfl)) rfl (.inr rfl)
    exact ⟨t, (exec_freeGridPacket s).trans hstep, hafter⟩

end Sys2Proof.Machine
end

section
/-! PROOF of the second boundary (O35). -/

namespace Sys2Proof.Machine
open Sys2Proof

theorem exec_secondBoundary (s : State) : exec .secondBoundary s = event secondBoundaryEffect s := rfl

/-- What the clock is after one second in HOLDOVER or EXPIRED, before Emission judges it (R17, R18). -/
def grownState (s : State) : State :=
  judgeGuard (s.setClock { s.clock with
    boundary := s.clock.boundary + 1, u := sat maxUncertainty (s.clock.u + s.live.clock.holdoverRate) })

/-- HOLDOVER becomes EXPIRED, with its item and its notice, exactly beyond the guard limit. -/
theorem grownState_eq (s : State) :
    let u := min 4294967295 (s.clock.u + s.live.clock.holdoverRate)
    let expires := s.clock.mode = .holdover ∧ s.live.clock.guardLimit * 1000 < u
    grownState s = (s.setClock { s.clock with
      boundary := s.clock.boundary + 1, u := u, mode := if expires then .expired else s.clock.mode }).setEv { s.ev with
        items := if expires then s.ev.items ++ [2] else s.ev.items, clockNote := if expires then true else s.ev.clockNote } := by
  intro u expires
  have hu : sat maxUncertainty (s.clock.u + s.live.clock.holdoverRate) = u := sat_eq_min _ _
  unfold grownState judgeGuard
  rw [hu]
  by_cases h : expires
  · have hb : s.clock.mode = .holdover ∧ beyondGuard (s.setClock { s.clock with boundary := s.clock.boundary + 1, u := u }) = true :=
      ⟨h.1, decide_eq_true h.2⟩
    rw [if_pos h, if_pos h, if_pos h]
    exact if_pos hb
  · have hb : ¬ (s.clock.mode = .holdover ∧
        beyondGuard (s.setClock { s.clock with boundary := s.clock.boundary + 1, u := u }) = true) :=
      fun hb => h ⟨hb.1, of_decide_eq_true hb.2⟩
    rw [if_neg h, if_neg h, if_neg h]
    exact if_neg hb

theorem secondBoundaryEffect_due {s : State} (hm : s.clock.mode = .holdover ∨ s.clock.mode = .expired)
    (hdue : s.clock.boundary < s.clock.time / 10000000) : secondBoundaryEffect s = judgeFit (grownState s) :=
  (if_pos hdue).trans (if_pos hm)

/-! ## The clock's fitness at Emission -/

theorem judgeFit_unstamped {s : State} (h : s.live.em.singleSite = true ∨ s.em.mode = .off) : judgeFit s = s := by
  unfold judgeFit
  rcases h with h | h
  · exact if_pos h
  · split
    · rfl
    · rw [h]

theorem judgeFit_onAir {s : State} (hs : s.live.em.singleSite = false) (hm : s.em.mode = .running) :
    judgeFit s = setMute { s.em.mute with time := !clockFit s } s := by
  unfold judgeFit
  rw [hs, hm]
  rfl

theorem judgeFit_fitAnchor {s : State} (hm : s.em.mode = .anchoring) (hf : clockFit s = true) : judgeFit s = s := by
  unfold judgeFit
  rw [hm, hf]
  split
  · rfl
  · simp

/-- An unfit clock abandons the anchor (R76). -/
theorem judgeFit_abandons {s : State} {a : Anchor} (hs : s.live.em.singleSite = false) (hm : s.em.mode = .anchoring)
    (ha : s.em.anchor = some a) (hf : clockFit s = false) :
    judgeFit s = ((s.setStore (emptiedStore s.store)).setEm { s.em with
      anchor := none, counts := { s.em.counts with anchorsAbandoned := min 4294967295 (s.em.counts.anchorsAbandoned + 1) } }).setEv
      { s.ev with emission := s.ev.emission ++ [10] } := by
  unfold judgeFit
  rw [hs, hm, ha, hf, ← sat_eq_min]
  rfl

theorem judgeFit_items (s : State) : (judgeFit s).ev.items = s.ev.items := by
  unfold judgeFit
  split
  · rfl
  · split
    · split <;> rfl
    · unfold setMute
      split <;> rfl
    · rfl

theorem judgeFit_alarms (s : State) : (judgeFit s).alarms = s.alarms := by rw [show judgeFit s = _ from judgeFit_only s]
theorem judgeFit_live (s : State) : (judgeFit s).live = s.live := by rw [show judgeFit s = _ from judgeFit_only s]
theorem judgeFit_link (s : State) : (judgeFit s).link = s.link := by rw [show judgeFit s = _ from judgeFit_only s]
theorem judgeFit_feed (s : State) : (judgeFit s).feed = s.feed := by rw [show judgeFit s = _ from judgeFit_only s]
theorem judgeFit_clips (s : State) : (judgeFit s).clips = s.clips := by
  unfold judgeFit
  split
  · rfl
  · split
    · split <;> rfl
    · rw [setMute_eq]
      rfl
    · rfl
theorem judgeFit_mem (s : State) : (judgeFit s).mem = s.mem := by rw [show judgeFit s = _ from judgeFit_only s]

/-- The clock's fitness depends on the clock and its guard limit alone. -/
theorem clockFit_congr {s t : State} (hc : t.clock = s.clock) (hl : t.live = s.live) : clockFit t = clockFit s := by
  unfold clockFit beyondGuard
  rw [hc, hl]

/-- Settles O35: the second's growth of u and its guard, then the clock's fitness as Emission takes it in each of its modes. -/
theorem secondBoundaryGrowsUncertainty : Obligations.SecondBoundaryGrowsUncertainty := by
  intro s hp hm hdue hlen u expires
  have hf : secondBoundaryEffect (s.setEv {}) = judgeFit (grownState (s.setEv {})) := secondBoundaryEffect_due hm hdue
  have hgrown : grownState (s.setEv {}) = _ := grownState_eq (s.setEv {})
  rw [show grownState (s.setEv {}) = (s.setClock { s.clock with
      boundary := s.clock.boundary + 1, u := u, mode := if expires then .expired else s.clock.mode }).setEv
      { items := if expires then [2] else [], clockNote := if expires then true else false } from hgrown] at hf
  clear hgrown
  generalize hg : (s.setClock { s.clock with
      boundary := s.clock.boundary + 1, u := u, mode := if expires then .expired else s.clock.mode }).setEv
      { items := if expires then [2] else [], clockNote := if expires then true else false } = g at hf
  obtain ⟨t, hstep, hleft⟩ := event_left hp hf
  have hclock : t.clock = g.clock := by rw [hleft.clock, judgeFit_clock]
  have hlive : t.live = g.live := by rw [hleft.live, judgeFit_live]
  have hfit : clockFit t = clockFit g := clockFit_congr hclock hlive
  have hemission : t.em = (judgeFit g).em → Noticed 3 (match (judgeFit g).ev.emission.min? with
      | some occasion => [emissionBody t (BitVec.ofNat 8 occasion)] | none => []) s t := fun hem =>
    event_emission hp hf (by rw [judgeFit_live, ← hg]; rfl) (by rw [judgeFit_link, ← hg]; rfl) (by rw [judgeFit_alarms, ← hg]; rfl) hem hstep
  have hgem : g.em = s.em := by rw [← hg]; rfl
  have hglive : g.live = s.live := by rw [← hg]; rfl
  have hgnotes : g.ev.emission = [] := by rw [← hg]; rfl
  refine ⟨t, (exec_secondBoundary s).trans hstep, by rw [hclock, ← hg]; rfl, fun he => ?_, ?_, by rw [hleft.feed, judgeFit_feed, ← hg]; rfl,
    by rw [hleft.clips, judgeFit_clips, ← hg]; rfl, by rw [hlive, hglive], by rw [hleft.mem, judgeFit_mem, ← hg]; rfl, fun he => ?_,
    fun hs => ?_, fun hs hrun => ⟨?_, ?_⟩, fun a hs hanch ha => ⟨fun hfit' => ?_, fun hfit' => ?_⟩⟩
  · refine event_latches hp hf (by rw [judgeFit_alarms, ← hg]; exact hlen) hstep (by decide) (by decide) ?_
    rw [judgeFit_items, ← hg]
    show 2 ∈ if expires then [2] else []
    rw [if_pos he]
    exact List.mem_singleton_self 2
  · have hn := noticed_event (kind := 1) (by decide) hp hf (by rw [judgeFit_live, hglive]) (by rw [judgeFit_link, ← hg]; rfl)
      (by rw [judgeFit_alarms, ← hg]; rfl) hstep
    rw [bodiesOf_judgePermission (by decide), bodiesOf_clock, judgeFit_clockNotices, clockNotices_quiet (by rw [← hg]; rfl)] at hn
    refine hn.of_eq ?_
    rw [← hg]
    by_cases he : expires
    · simp only [if_pos he, clockNotice, State.setEv_ev, State.setEv_clock, State.setClock_clock, Bool.true_or, if_true]
      rfl
    · simp only [if_neg he]
      rfl
  · rw [hfit, ← hg]
    simp only [if_pos he]
    rfl
  · have hstill : judgeFit g = g := judgeFit_unstamped (by rw [hglive, hgem]; exact hs)
    rw [hleft.em, hleft.store, hleft.splice, hstill, ← hg]
    exact ⟨rfl, rfl, rfl⟩
  · rw [hleft.em, judgeFit_onAir (by rw [hglive]; exact hs) (by rw [hgem]; exact hrun), setMute_eq, hfit, hgem]
    rfl
  · refine (hemission hleft.em).of_eq ?_
    have hmute : t.em.mute = { s.em.mute with time := !clockFit g } := by
      rw [hleft.em, judgeFit_onAir (by rw [hglive]; exact hs) (by rw [hgem]; exact hrun), setMute_eq, hgem]
      rfl
    rw [judgeFit_onAir (by rw [hglive]; exact hs) (by rw [hgem]; exact hrun), setMute_eq, hgem, hmute]
    simp only [State.setEv_ev, hgnotes, List.nil_append]
    by_cases hsame : ({ s.em.mute with time := !clockFit g } : MuteSet) = s.em.mute
    · simp only [if_pos hsame]
      rfl
    · simp only [if_neg hsame]
      rfl
  · have hstill : judgeFit g = g := judgeFit_fitAnchor (by rw [hgem]; exact hanch) (by rw [← hfit]; exact hfit')
    rw [hleft.em, hleft.store, hstill, ← hg]
    exact ⟨rfl, rfl⟩
  · have hleaves : judgeFit g = _ := judgeFit_abandons (a := a) (by rw [hglive]; exact hs) (by rw [hgem]; exact hanch)
      (by rw [hgem]; exact ha) (by rw [← hfit]; exact hfit')
    refine ⟨by rw [hleft.em, hleaves, hgem]; rfl, by rw [hleft.store, hleaves, ← hg]; rfl, (hemission hleft.em).of_eq ?_⟩
    rw [hleaves]
    simp only [State.setEv_ev, hgnotes, List.nil_append]
    rfl

end Sys2Proof.Machine
end

section
/-! PROOF of ALARM CLEAR (O60). Behind an accepted epoch Er, distances to the current epoch decide what is cleared, and a latch set again
moves every distance by one; so no latch set by the request itself changes what a later item of its set meets. -/

namespace Sys2Proof.Machine
open Sys2Proof

theorem exec_alarmClear (tag : Byte) (er : BitVec 32) (set : BitVec 40) (s : State) :
    exec (.alarmClear tag er set) s = request 0x51 tag (alarmClearBody er set) (reqAlarmClear er set) s := rfl

/-! ## Distances behind the epoch (R158) -/

/-- How far a set-epoch lies behind an epoch. -/
def behind (e y : BitVec 32) : Nat := (e - y).toNat

/-- Among epochs less than 2^31 behind the current one, the earlier lies farther behind. -/
theorem atOrBefore_iff {e y er : BitVec 32} (hr : behind e er < 2147483648) (hy : behind e y < 2147483648) :
    (y - er).toInt ≤ 0 ↔ behind e er ≤ behind e y := by
  unfold behind at *
  rw [BitVec.toInt_eq_toNat_cond]
  have h := BitVec.toNat_sub y er
  have h1 := BitVec.toNat_sub e er
  have h2 := BitVec.toNat_sub e y
  have b1 := y.isLt
  have b2 := er.isLt
  have b3 := e.isLt
  split <;> omega

theorem behind_next {e y : BitVec 32} (h : behind e y < 2147483648) : behind (e + 1) y = behind e y + 1 := by
  unfold behind at *
  bv_omega

/-- Ageing keeps a set-epoch within its limit and moves it no farther than the epoch moved. -/
theorem behind_age {e : BitVec 32} {r : AlarmRec} (hl : r.latched = true) (h : behind e r.setEpoch < 2147483648) :
    behind (e + 1) (ageRecord (e + 1) r).setEpoch = min (behind e r.setEpoch + 1) 2147483647 := by
  have hnext := behind_next h
  unfold ageRecord
  by_cases hc : (r.latched && decide (0x80000000 ≤ (e + 1 - r.setEpoch).toNat)) = true
  · rw [if_pos hc]
    have hfar : 2147483648 ≤ behind (e + 1) r.setEpoch := by simpa [hl, behind] using hc
    have hself : behind (e + 1) (e + 1 - 0x80000000 + 1) = 2147483647 := by
      unfold behind
      bv_omega
    show behind (e + 1) (e + 1 - 0x80000000 + 1) = _
    omega
  · rw [if_neg hc]
    have hnear : behind (e + 1) r.setEpoch < 2147483648 := by simpa [hl, behind] using hc
    omega

theorem ageRecord_setEpoch {e : BitVec 32} {r : AlarmRec} (h : behind e r.setEpoch < 2147483648) :
    (ageRecord e r).setEpoch = r.setEpoch := by
  unfold ageRecord
  rw [if_neg]
  simp only [Bool.and_eq_true, decide_eq_true_eq, not_and, not_le]
  exact fun _ => h

theorem epochsOk_rec {s : State} (h : EpochsOk s) {i : Nat} (hl : (alarmRec s i).latched = true) :
    behind s.alarms.epoch (alarmRec s i).setEpoch < 2147483648 := by
  rcases alarmRec_mem_or s i with hm | hm
  · exact h _ hm hl
  · rw [hm] at hl
    cases hl

/-! ## One item of the set -/

/-- The item is cleared: it is latched at or before Er (R160). -/
def clearHit (er : BitVec 32) (s : State) (i : Nat) : Bool := (alarmRec s i).latched && epochAtOrBefore (alarmRec s i).setEpoch er

theorem clearHit_iff {er : BitVec 32} {s : State} {i : Nat} (hs : EpochsOk s) (hr : behind s.alarms.epoch er < 2147483648) :
    clearHit er s i = true ↔
      (alarmRec s i).latched = true ∧ behind s.alarms.epoch er ≤ behind s.alarms.epoch (alarmRec s i).setEpoch := by
  simp only [clearHit, epochAtOrBefore, Bool.and_eq_true, decide_eq_true_eq]
  exact and_congr_right fun hl => atOrBefore_iff hr (epochsOk_rec hs hl)

/-- What ALARM CLEAR makes of one item, without its tally of the counts. -/
def clearedItem (er : BitVec 32) (s : State) (i : Nat) : State :=
  if clearHit er s i then
    let s' := s.setAlarms { s.alarms with records := s.alarms.records.set (i - 1) {} }
    if liveCondition s i then setLatch i s' else s'
  else s

theorem liveCondition_setAlarms (a : AlarmState) (s : State) (i : Nat) : liveCondition (s.setAlarms a) i = liveCondition s i := rfl

theorem clearItem_state (er : BitVec 32) (acc : State × List (Nat × Nat)) (i : Nat) :
    (clearItem er acc i).1 = clearedItem er acc.1 i := by
  unfold clearItem clearedItem clearHit
  dsimp only
  split <;> rfl

theorem clearItems_state (er : BitVec 32) (is : List Nat) (acc : State × List (Nat × Nat)) :
    (is.foldl (clearItem er) acc).1 = is.foldl (clearedItem er) acc.1 := by
  induction is generalizing acc with
  | nil => rfl
  | cons i is ih => rw [List.foldl_cons, List.foldl_cons, ih, clearItem_state]

theorem clearedItem_missed {er : BitVec 32} {s : State} {i : Nat} (h : clearHit er s i = false) : clearedItem er s i = s :=
  if_neg (by simp [h])

theorem clearedItem_silent {er : BitVec 32} {s : State} {i : Nat} (h : clearHit er s i = true) (hl : liveCondition s i = false) :
    clearedItem er s i = s.setAlarms { s.alarms with records := s.alarms.records.set (i - 1) {} } :=
  (if_pos h).trans (if_neg (by simp [hl]))

theorem clearedItem_live {er : BitVec 32} {s : State} {i : Nat} (h : clearHit er s i = true) (hl : liveCondition s i = true) :
    clearedItem er s i = setLatch i (s.setAlarms { s.alarms with records := s.alarms.records.set (i - 1) {} }) :=
  (if_pos h).trans (if_pos hl)

theorem alarmRec_set_self {s : State} {i : Nat} (hlen : s.alarms.records.length = 36) (h36 : i ≤ 36) (h1 : 1 ≤ i) (r : AlarmRec) :
    alarmRec (s.setAlarms { s.alarms with records := s.alarms.records.set (i - 1) r }) i = r := by
  have : i - 1 < 36 := by omega
  simp [alarmRec, hlen, this]

theorem alarmRec_set_other {s : State} {i k : Nat} (h : k - 1 ≠ i - 1) (r : AlarmRec) :
    alarmRec (s.setAlarms { s.alarms with records := s.alarms.records.set (k - 1) r }) i = alarmRec s i := by
  simp [alarmRec, List.getElem?_set_ne h]

theorem alarmRec_setLatch_self {s : State} {i : Nat} (hlen : s.alarms.records.length = 36) (h36 : i ≤ 36) (h1 : 1 ≤ i) :
    alarmRec (setLatch i s) i = { latched := true, setEpoch := s.alarms.epoch + 1, count := 1 } := by
  have : i - 1 < 36 := by omega
  simp [alarmRec, setLatch_records, hlen, this]

theorem alarmRec_setLatch_other {s : State} {i k : Nat} (h : k - 1 ≠ i - 1) :
    alarmRec (setLatch k s) i = ageRecord (s.alarms.epoch + 1) (alarmRec s i) := by
  simp only [alarmRec, setLatch_records, List.getD_eq_getElem?_getD, List.getElem?_set_ne h, List.getElem?_map]
  cases s.alarms.records[i - 1]? with
  | none => simp [ageRecord]
  | some r => rfl

/-! ## What joins the notice queue -/

/-- Bodies offered one after the other. -/
theorem joining_cons {kind : Nat} {s t : State} (b : List Byte) (bs : List (List Byte)) (hl : t.live = s.live)
    (hn : t.alarms.notices = s.alarms.notices ++ joining kind [b] s) : joining kind (b :: bs) s = joining kind [b] s ++ joining kind bs t := by
  unfold joining at *
  rw [noticeEnabled_congr hl]
  cases he : noticeEnabled s kind with
  | false => simp
  | true =>
    simp only [he, if_true] at hn ⊢
    by_cases hroom : s.alarms.notices.length < 16
    · obtain ⟨m, hm⟩ : ∃ m, 16 - s.alarms.notices.length = m + 1 := ⟨15 - s.alarms.notices.length, by omega⟩
      rw [hm] at hn ⊢
      have hlen : t.alarms.notices.length = s.alarms.notices.length + 1 := by rw [hn]; simp
      have hm' : 16 - t.alarms.notices.length = m := by omega
      rw [hm']
      simp
    · have hzero : 16 - s.alarms.notices.length = 0 := by omega
      have hsame : t.alarms.notices = s.alarms.notices := by rw [hn, hzero]; simp
      rw [hsame, hzero]
      simp

/-- The ALARM notice of an item that is set. -/
def latchBodies (s : State) (i : Nat) (e : BitVec 32) : List (List Byte) :=
  if reportEnabled s i then [be 1 i ++ be 4 e.toNat] else []

theorem setLatch_notices (i : Nat) (s : State) :
    (setLatch i s).alarms.notices = s.alarms.notices ++ joining 0 (latchBodies s i (s.alarms.epoch + 1)) s := by
  unfold setLatch latchBodies
  dsimp only
  by_cases hr : reportEnabled s i = true
  · have hr' : ∀ a, reportEnabled (s.setAlarms a) i = true := fun _ => hr
    rw [if_pos (hr' _), if_pos hr]
    unfold offerNotice joining
    cases hn : noticeEnabled s 0 with
    | false =>
      have hn' : ∀ a, noticeEnabled (s.setAlarms a) 0 = false := fun _ => hn
      simp [hn']
    | true =>
      have hn' : ∀ a, noticeEnabled (s.setAlarms a) 0 = true := fun _ => hn
      rw [if_pos (hn' _)]
      by_cases hroom : s.alarms.notices.length < 16
      · obtain ⟨m, hm⟩ : ∃ m, 16 - s.alarms.notices.length = m + 1 := ⟨15 - s.alarms.notices.length, by omega⟩
        rw [hm]
        refine (congrArg (fun x : State => x.alarms.notices) (if_pos hroom)).trans ?_
        simp
      · have hzero : 16 - s.alarms.notices.length = 0 := by omega
        rw [hzero]
        refine (congrArg (fun x : State => x.alarms.notices) (if_neg hroom)).trans ?_
        simp
  · have hr' : ∀ a, ¬ reportEnabled (s.setAlarms a) i = true := fun _ => hr
    rw [if_neg (hr' _), if_neg hr]
    simp

/-! ## The items of the set in turn -/

/-- The items of a list that are set again. -/
def setAgain (er : BitVec 32) (s : State) (is : List Nat) : List Nat := is.filter (fun i => clearHit er s i && liveCondition s i)

/-- The ALARM notices of the items set again. -/
def againBodies (s : State) (is : List Nat) : List (List Byte) :=
  is.zipIdx.filterMap (fun x =>
    if reportEnabled s x.1 then some (be 1 x.1 ++ be 4 (s.alarms.epoch + BitVec.ofNat 32 (x.2 + 1)).toNat) else none)

/-- What the items of a list leave of the Alarm Unit. -/
structure Clears (er : BitVec 32) (is : List Nat) (s v : State) : Prop where
  only : ∃ a, v = s.setAlarms a
  epoch : v.alarms.epoch = s.alarms.epoch + BitVec.ofNat 32 (setAgain er s is).length
  notices : v.alarms.notices = s.alarms.notices ++ joining 0 (againBodies s (setAgain er s is)) s
  setEpochs : ∀ j i, (setAgain er s is)[j]? = some i → (alarmRec v i).setEpoch = s.alarms.epoch + BitVec.ofNat 32 (j + 1)
  cleared : ∀ i ∈ is, clearHit er s i = true → liveCondition s i = false → (alarmRec v i).latched = false
  again : ∀ i ∈ is, clearHit er s i = true → liveCondition s i = true → (alarmRec v i).latched = true ∧ (alarmRec v i).count = 1
  kept : ∀ i, 1 ≤ i → i ∉ is ∨ clearHit er s i = false →
    (alarmRec v i).latched = (alarmRec s i).latched ∧ (alarmRec v i).count = (alarmRec s i).count
  fresh : ∀ i, 1 ≤ i → i ∉ is → behind s.alarms.epoch (alarmRec s i).setEpoch + is.length < 2147483648 →
    (alarmRec v i).setEpoch = (alarmRec s i).setEpoch

theorem againBodies_cons {s u : State} (hl : u.live = s.live) (he : u.alarms.epoch = s.alarms.epoch + 1) (i : Nat) (is : List Nat) :
    againBodies s (i :: is) = latchBodies s i (s.alarms.epoch + 1) ++ againBodies u is := by
  have hfar : ∀ n : Nat, u.alarms.epoch + BitVec.ofNat 32 n = s.alarms.epoch + BitVec.ofNat 32 (n + 1) := fun n => by
    rw [he, BitVec.add_assoc, BitVec.ofNat_add, BitVec.add_comm 1]
    rfl
  have hreport : ∀ k, reportEnabled u k = reportEnabled s k := fun k => by rw [reportEnabled, hl]; rfl
  have hrest : (is.zipIdx 1).filterMap (fun x =>
      if reportEnabled s x.1 then some (be 1 x.1 ++ be 4 (s.alarms.epoch + BitVec.ofNat 32 (x.2 + 1)).toNat) else none) =
      againBodies u is := by
    rw [List.zipIdx_succ, List.filterMap_map]
    refine List.filterMap_congr fun x _ => ?_
    simp only [Function.comp_apply, hreport, hfar]
  unfold againBodies at *
  rw [List.zipIdx_cons, List.filterMap_cons]
  unfold latchBodies
  cases reportEnabled s i with
  | false => exact hrest
  | true => exact congrArg (_ :: ·) hrest

/-- The notices of an item set again, and of those after it. -/
theorem joining_latch {s u : State} {i : Nat} {e : BitVec 32} (hl : u.live = s.live)
    (hn : u.alarms.notices = s.alarms.notices ++ joining 0 (latchBodies s i e) s) (bs : List (List Byte)) :
    s.alarms.notices ++ joining 0 (latchBodies s i e ++ bs) s = u.alarms.notices ++ joining 0 bs u := by
  unfold latchBodies at *
  cases hr : reportEnabled s i with
  | false =>
    simp only [hr, Bool.false_eq_true, if_false, joining_nil, List.append_nil, List.nil_append] at hn ⊢
    rw [hn]
    simp only [joining, noticeEnabled_congr hl, hn]
  | true =>
    simp only [hr, if_true, List.singleton_append] at hn ⊢
    rw [joining_cons _ bs hl hn, hn, List.append_assoc]

theorem clears_nil (er : BitVec 32) (s : State) : Clears er [] s s where
  only := ⟨s.alarms, rfl⟩
  epoch := by simp [setAgain]
  notices := by simp [setAgain, againBodies]
  setEpochs := by simp [setAgain]
  cleared := by simp
  again := by simp
  kept := fun _ _ _ => ⟨rfl, rfl⟩
  fresh := fun _ _ _ _ => rfl

/-! ### An item that is not cleared, and one that is -/

section
variable {er : BitVec 32} {s v : State} {i : Nat} {is : List Nat}

theorem Clears.missed (h : Clears er is s v) (hmiss : clearHit er s i = false) : Clears er (i :: is) s v := by
  have hsame : setAgain er s (i :: is) = setAgain er s is := by simp [setAgain, hmiss]
  have hhit {k : Nat} (hk : k ∈ i :: is) (hc : clearHit er s k = true) : k ∈ is := by
    rcases List.mem_cons.mp hk with rfl | hk
    · rw [hmiss] at hc
      cases hc
    · exact hk
  refine ⟨h.only, by rw [hsame]; exact h.epoch, by rw [hsame]; exact h.notices, by rw [hsame]; exact h.setEpochs,
    fun k hk hc => h.cleared k (hhit hk hc) hc, fun k hk hc => h.again k (hhit hk hc) hc, fun k h1 hk => h.kept k h1 ?_,
    fun k h1 hk hb => h.fresh k h1 (fun hm => hk (List.mem_cons_of_mem _ hm)) (by simp at hb; omega)⟩
  exact hk.imp_left fun hn hm => hn (List.mem_cons_of_mem _ hm)

variable (hlen : s.alarms.records.length = 36) (h1 : 1 ≤ i) (h36 : i ≤ 36) (hi : i ∉ is) (his : ∀ k ∈ is, 1 ≤ k)
include hlen h1 h36 hi his

/-- The items after one that is cleared meet the records as they were. -/
theorem Clears.silent (hhit : clearHit er s i = true) (hlive : liveCondition s i = false) (h : Clears er is (clearedItem er s i) v) :
    Clears er (i :: is) s v := by
  rw [clearedItem_silent hhit hlive] at h
  have hne {k : Nat} (hk1 : 1 ≤ k) (hk : k ≠ i) : i - 1 ≠ k - 1 := by omega
  have hrec {k : Nat} (hk1 : 1 ≤ k) (hk : k ≠ i) := alarmRec_set_other (s := s) (hne hk1 hk) {}
  generalize hu : s.setAlarms { s.alarms with records := s.alarms.records.set (i - 1) {} } = u at h hrec
  have hlivesame : ∀ k, liveCondition u k = liveCondition s k := fun k => by rw [← hu, liveCondition_setAlarms]
  have hhits {k : Nat} (hk1 : 1 ≤ k) (hk : k ≠ i) : clearHit er u k = clearHit er s k := by
    unfold clearHit
    rw [hrec hk1 hk]
  have hin {k : Nat} (hk : k ∈ is) : k ≠ i := fun he => hi (he ▸ hk)
  have hself : alarmRec u i = {} := by rw [← hu, alarmRec_set_self hlen h36 h1]
  have hagain : setAgain er u is = setAgain er s (i :: is) := by
    have : setAgain er s (i :: is) = setAgain er s is := by simp [setAgain, hlive]
    rw [this]
    exact List.filter_congr fun k hk => by rw [hhits (his k hk) (hin hk), hlivesame]
  have hself' : (alarmRec v i).latched = false := by
    rw [(h.kept i h1 (.inl hi)).1, hself]
  have hepoch : u.alarms.epoch = s.alarms.epoch := by rw [← hu]; rfl
  have hjoin : ∀ bs, joining 0 bs u = joining 0 bs s := fun bs => by rw [← hu]; rfl
  have hbodies : ∀ bs, againBodies u bs = againBodies s bs := fun bs => by rw [← hu]; rfl
  refine ⟨?_, by rw [h.epoch, hepoch, hagain], ?_, fun j k hk => ?_, fun k hk hc hl => ?_, fun k hk hc hl => ?_, fun k hk1 hk => ?_,
    fun k hk1 hk hb => ?_⟩
  · obtain ⟨a, ha⟩ := h.only
    exact ⟨a, by rw [ha, ← hu]; rfl⟩
  · rw [h.notices, hagain, hjoin, hbodies, ← hu]
    rfl
  · rw [← hagain] at hk
    rw [h.setEpochs j k hk, hepoch]
  · rcases List.mem_cons.mp hk with rfl | hk
    · exact hself'
    · exact h.cleared k hk (by rw [hhits (his k hk) (hin hk)]; exact hc) (by rw [hlivesame]; exact hl)
  · rcases List.mem_cons.mp hk with rfl | hk
    · rw [hlive] at hl
      cases hl
    · exact h.again k hk (by rw [hhits (his k hk) (hin hk)]; exact hc) (by rw [hlivesame]; exact hl)
  · have hki : k ≠ i := by
      rintro rfl
      rcases hk with hk | hk
      · exact hk (List.mem_cons_self ..)
      · rw [hhit] at hk
        cases hk
    rw [← hrec hk1 hki]
    refine h.kept k hk1 (hk.imp (fun hn hm => hn (List.mem_cons_of_mem _ hm)) fun hn => ?_)
    rw [hhits hk1 hki, hn]
  · have hki : k ≠ i := fun he => hk (he ▸ List.mem_cons_self ..)
    have hf := h.fresh k hk1 (fun hm => hk (List.mem_cons_of_mem _ hm))
    rw [hrec hk1 hki, hepoch] at hf
    simp only [List.length_cons] at hb
    exact hf (by omega)

/-- The items after one that is set again meet every distance one farther, Er's too. -/
theorem Clears.live (hs : EpochsOk s) (hr : behind s.alarms.epoch er + (is.length + 1) < 2147483648) (hhit : clearHit er s i = true)
    (hlive : liveCondition s i = true) (h : Clears er is (clearedItem er s i) v) : Clears er (i :: is) s v := by
  rw [clearedItem_live hhit hlive] at h
  have hne {k : Nat} (hk1 : 1 ≤ k) (hk : k ≠ i) : i - 1 ≠ k - 1 := by omega
  have hrec {k : Nat} (hk1 : 1 ≤ k) (hk : k ≠ i) :
      alarmRec (setLatch i (s.setAlarms { s.alarms with records := s.alarms.records.set (i - 1) {} })) k =
        ageRecord (s.alarms.epoch + 1) (alarmRec s k) :=
    (alarmRec_setLatch_other (hne hk1 hk)).trans (congrArg _ (alarmRec_set_other (hne hk1 hk) {}))
  have hself := alarmRec_setLatch_self (s := s.setAlarms { s.alarms with records := s.alarms.records.set (i - 1) {} })
    (by simpa using hlen) h36 h1
  have hok := setLatch_epochsOk i (s.setAlarms { s.alarms with records := s.alarms.records.set (i - 1) {} })
  have hepoch := setLatch_epoch i (s.setAlarms { s.alarms with records := s.alarms.records.set (i - 1) {} })
  have hnotices := setLatch_notices i (s.setAlarms { s.alarms with records := s.alarms.records.set (i - 1) {} })
  obtain ⟨a, honly⟩ := setLatch_only i (s.setAlarms { s.alarms with records := s.alarms.records.set (i - 1) {} })
  generalize setLatch i (s.setAlarms { s.alarms with records := s.alarms.records.set (i - 1) {} }) = u at *
  change u.alarms.epoch = s.alarms.epoch + 1 at hepoch
  change alarmRec u i = { latched := true, setEpoch := s.alarms.epoch + 1, count := 1 } at hself
  change u.alarms.notices = s.alarms.notices ++ joining 0 (latchBodies s i (s.alarms.epoch + 1)) s at hnotices
  have hulive : u.live = s.live := by rw [honly]; rfl
  have hlivesame : ∀ k, liveCondition u k = liveCondition s k := fun k => by rw [honly]; rfl
  have hnear : behind s.alarms.epoch er < 2147483648 := by omega
  have hfarther : behind u.alarms.epoch er = behind s.alarms.epoch er + 1 := by rw [hepoch, behind_next hnear]
  have hhits {k : Nat} (hk1 : 1 ≤ k) (hk : k ≠ i) : clearHit er u k = clearHit er s k := by
    rw [Bool.eq_iff_iff, clearHit_iff hok (by omega), clearHit_iff hs hnear, hrec hk1 hk, ageRecord_latched]
    refine and_congr_right fun hl => ?_
    rw [hfarther, hepoch, behind_age hl (epochsOk_rec hs hl)]
    omega
  have hin {k : Nat} (hk : k ∈ is) : k ≠ i := fun he => hi (he ▸ hk)
  have hagain : setAgain er s (i :: is) = i :: setAgain er u is := by
    have : setAgain er s (i :: is) = i :: setAgain er s is := by simp [setAgain, hlive, hhit]
    rw [this]
    exact congrArg (i :: ·) (List.filter_congr fun k hk => by rw [hhits (his k hk) (hin hk), hlivesame])
  have hself' := h.kept i h1 (.inl hi)
  have hfresh := h.fresh i h1 hi
  rw [hself] at hself' hfresh
  have hzero : behind u.alarms.epoch (s.alarms.epoch + 1) = 0 := by rw [hepoch]; simp [behind]
  have hnext : ∀ n : Nat, u.alarms.epoch + BitVec.ofNat 32 n = s.alarms.epoch + BitVec.ofNat 32 (n + 1) := fun n => by
    rw [hepoch, BitVec.add_assoc, BitVec.ofNat_add, BitVec.add_comm 1]
    rfl
  refine ⟨?_, ?_, ?_, fun j k hk => ?_, fun k hk hc hl => ?_, fun k hk hc hl => ?_, fun k hk1 hk => ?_, fun k hk1 hk hb => ?_⟩
  · obtain ⟨b, hb⟩ := h.only
    exact ⟨b, by rw [hb, honly]; rfl⟩
  · rw [h.epoch, hagain, List.length_cons, hnext]
  · rw [h.notices, hagain, againBodies_cons hulive hepoch]
    exact (joining_latch hulive hnotices _).symm
  · rw [hagain] at hk
    cases j with
    | zero =>
      obtain rfl : i = k := by simpa using hk
      rw [hfresh (by rw [hzero]; omega)]
      simp
    | succ j => rw [h.setEpochs j k (by simpa using hk), hnext]
  · rcases List.mem_cons.mp hk with rfl | hk
    · rw [hlive] at hl
      cases hl
    · exact h.cleared k hk (by rw [hhits (his k hk) (hin hk)]; exact hc) (by rw [hlivesame]; exact hl)
  · rcases List.mem_cons.mp hk with rfl | hk
    · exact hself'
    · exact h.again k hk (by rw [hhits (his k hk) (hin hk)]; exact hc) (by rw [hlivesame]; exact hl)
  · have hki : k ≠ i := by
      rintro rfl
      rcases hk with hk | hk
      · exact hk (List.mem_cons_self ..)
      · rw [hhit] at hk
        cases hk
    have hkept := h.kept k hk1 (hk.imp (fun hn hm => hn (List.mem_cons_of_mem _ hm)) fun hn => by rw [hhits hk1 hki, hn])
    rw [hrec hk1 hki, ageRecord_latched, ageRecord_count] at hkept
    exact hkept
  · have hki : k ≠ i := fun he => hk (he ▸ List.mem_cons_self ..)
    simp only [List.length_cons] at hb
    have hstep : behind (s.alarms.epoch + 1) (alarmRec s k).setEpoch = behind s.alarms.epoch (alarmRec s k).setEpoch + 1 :=
      behind_next (by omega)
    have hsame := ageRecord_setEpoch (r := alarmRec s k) (e := s.alarms.epoch + 1) (by omega)
    have hf := h.fresh k hk1 (fun hm => hk (List.mem_cons_of_mem _ hm))
    rw [hrec hk1 hki, hepoch, hsame, hstep] at hf
    exact hf (by omega)

end

/-- What ALARM CLEAR makes of a set of items. -/
theorem clears_foldl {er : BitVec 32} {s : State} {is : List Nat} (hlen : s.alarms.records.length = 36) (hs : EpochsOk s)
    (hr : behind s.alarms.epoch er + is.length < 2147483648) (his : ∀ k ∈ is, 1 ≤ k ∧ k ≤ 36) (hnd : is.Nodup) :
    Clears er is s (is.foldl (clearedItem er) s) := by
  induction is generalizing s with
  | nil => exact clears_nil er s
  | cons i is ih =>
    obtain ⟨hi, hnd⟩ := List.nodup_cons.mp hnd
    obtain ⟨h1, h36⟩ := his i (List.mem_cons_self ..)
    have hrest : ∀ k ∈ is, 1 ≤ k ∧ k ≤ 36 := fun k hk => his k (List.mem_cons_of_mem _ hk)
    simp only [List.length_cons] at hr
    rw [List.foldl_cons]
    cases hhit : clearHit er s i with
    | false =>
      rw [clearedItem_missed hhit]
      exact (ih hlen hs (by omega) hrest hnd).missed hhit
    | true =>
      cases hlive : liveCondition s i with
      | false =>
        refine Clears.silent hlen h1 h36 hi (fun k hk => (hrest k hk).1) hhit hlive (ih ?_ ?_ ?_ hrest hnd)
        · rw [clearedItem_silent hhit hlive]
          simpa using hlen
        · rw [clearedItem_silent hhit hlive]
          exact epochsOk_set hs fun h => by cases h
        · rw [clearedItem_silent hhit hlive]
          show behind s.alarms.epoch er + is.length < 2147483648
          omega
      | true =>
        refine Clears.live hlen h1 h36 hi (fun k hk => (hrest k hk).1) hs hr hhit hlive (ih ?_ ?_ ?_ hrest hnd)
        · rw [clearedItem_live hhit hlive]
          simpa using hlen
        · rw [clearedItem_live hhit hlive]
          exact setLatch_epochsOk _ _
        · rw [clearedItem_live hhit hlive, setLatch_epoch]
          have : behind (s.alarms.epoch + 1) er = behind s.alarms.epoch er + 1 := behind_next (by omega)
          show behind (s.alarms.epoch + 1) er + is.length < 2147483648
          omega

/-! ## The request -/

theorem enterRamping_drive_alarms (o : Nat) (s : State) (a : AlarmState) :
    (enterRamping o (s.setAlarms a)).drive = (enterRamping o s).drive := by
  unfold enterRamping steadyAtCeiling
  by_cases h : s.live.drive.rampCode = 0
  · simp [h, noteDrive, setLevel, enterSteady]
  · simp only [State.setAlarms_live, h, if_false, noteDrive, State.setAlarms_drive, State.setDrive_drive, State.setAlarms_ev,
      State.setEv_drive, State.setDrive_ev, State.setDrive_live, State.setEv_live]
    split <;> simp_all [enterSteady, noteDrive]

/-- The alarm records do not bear on permission (R139). -/
theorem judgePermission_drive_alarms (s : State) (a : AlarmState) : (judgePermission (s.setAlarms a)).drive = (judgePermission s).drive := by
  have hp : permitted (s.setAlarms a) = permitted s := rfl
  unfold judgePermission
  simp only [State.setAlarms_drive, hp]
  split <;> (try split) <;> first | rfl | exact enterRamping_drive_alarms _ _ _

/-- A command that reports nothing leaves the records and the epoch. -/
theorem closeEvent_unlatched {s : State} (hi : s.ev.items = []) :
    (closeEvent s).alarms.records = s.alarms.records ∧ (closeEvent s).alarms.epoch = s.alarms.epoch ∧
    ((∀ other, other ≠ 0 → noticeEnabled s other = false) → (closeEvent s).alarms.notices = s.alarms.notices) := by
  have hnone : latchAll (judgePermission s) = judgePermission s := by
    have : occurrences (judgePermission s) = [] := List.eq_nil_iff_forall_not_mem.mpr fun j hj => by
      have := (mem_occurrences.mp hj).2
      rw [judgePermission_items, hi] at this
      cases this
    rw [latchAll, this, List.foldl_nil]
  refine ⟨by rw [closeEvent_records, hnone, judgePermission_alarms], by rw [closeEvent_epoch, hnone, judgePermission_alarms], fun ho => ?_⟩
  unfold closeEvent judgeLines queueNotices
  simp only [State.setEv_alarms, State.setAlarms_alarms]
  rw [hnone, offered_notices (kind := 0) _ _ (fun other h => by rw [noticeEnabled_congr (judgePermission_live s)]; exact ho other h)]
  have hb : bodiesOf 0 (noticesOf (judgePermission s)) = [] := by simp [bodiesOf, noticesOf]
  rw [hb, joining_nil, List.append_nil, judgePermission_alarms]

/-- An answered request that reports nothing leaves the alarm records as its owner left them, and its ALARM notices too. -/
theorem request_alarms {op : State → Answer} {s t : State} {a : Answer} (code tag : Byte) (bytes : List Byte) (hs : Ready s)
    (hf : op (s.setEv {}) = a) (hi : a.state.ev.items = []) (hlive : a.state.live = s.live) (hlink : a.state.link = s.link)
    (h : request code tag bytes op s = .next t) :
    t.alarms.records = a.state.alarms.records ∧ t.alarms.epoch = a.state.alarms.epoch ∧
    (s.link.tx.isSome = true → (∀ other, other ≠ 0 → noticeEnabled s other = false) → t.alarms.notices = a.state.alarms.notices) := by
  rw [request_ready hs, hf, Host.Outcome.next.injEq] at h
  obtain ⟨hr1, he1, hn1⟩ := closeEvent_unlatched hi
  obtain ⟨hr2, he2, hn2⟩ := closeEvent_unlatched (s := formReply code tag a) (by simp)
  rw [← h]
  refine ⟨?_, ?_, fun htx ho => ?_⟩
  · rw [show (transmit (closeEvent (formReply code tag a))).alarms.records = (closeEvent (formReply code tag a)).alarms.records by
      rw [transmit_eq], hr2, formReply_records, hr1]
  · rw [show (transmit (closeEvent (formReply code tag a))).alarms.epoch = (closeEvent (formReply code tag a)).alarms.epoch by
      rw [transmit_eq], he2, formReply_epoch, he1]
  · have hsent : (closeEvent (formReply code tag a)).link.tx.isSome = true := by
      rw [closeEvent_eq, formReply_link, hlink]
      exact htx
    rw [transmit_taken hsent, hn2 (fun other ho' => (noticeEnabled_congr ((formReply_live code tag a).trans hlive) other).trans (ho other ho')),
      formReply_notices, hn1 (fun other ho' => (noticeEnabled_congr hlive other).trans (ho other ho'))]

theorem itemsOf_range (set : BitVec 40) : itemsOf set = (List.range 37).filter (fun i => decide (1 ≤ i) && set.getLsbD (i - 1)) := by
  have h : items = (List.range 37).filter (fun i => decide (1 ≤ i)) := by decide
  rw [itemsOf, h, List.filter_filter]
  exact List.filter_congr fun i _ => Bool.and_comm ..

theorem mem_itemsOf {set : BitVec 40} {i : Nat} : i ∈ itemsOf set ↔ (1 ≤ i ∧ i ≤ 36) ∧ set.getLsbD (i - 1) = true := by
  rw [itemsOf_range, List.mem_filter, List.mem_range]
  simp only [Bool.and_eq_true, decide_eq_true_eq]
  rw [← and_assoc]
  exact and_congr_left' (by omega)

/-- Settles O60: the refusals by the checks' order, the rest by `clears_foldl` over the items of the set. -/
theorem alarmClearKeepsTheRest : Obligations.AlarmClearKeepsTheRest := by
  intro s tag er set hs
  have hbehind : behind (s.setEv {}).alarms.epoch er = (s.alarms.epoch - er).toNat := rfl
  refine ⟨fun hbad => request_turnedDown 0x51 tag _ hs ?_, fun hset her hlen hok => ?_⟩
  · unfold reqAlarmClear
    by_cases hset : 2 ^ 36 ≤ set.toNat
    · exact if_pos hset
    · have hfar : epochAccepted (s.setEv {}) er = false := decide_eq_false (by
        have := hbad.resolve_left hset
        exact not_lt.mpr this)
      rw [if_neg hset, hfar]
      rfl
  · intro hit again
    have hop : ∃ cleared, reqAlarmClear er set (s.setEv {}) = ok ((itemsOf set).foldl (clearedItem er) (s.setEv {}))
        (be 4 ((itemsOf set).foldl (clearedItem er) (s.setEv {})).alarms.epoch.toNat ++ cleared) := by
      have haccepted : epochAccepted (s.setEv {}) er = true := decide_eq_true (by
        show (s.alarms.epoch - er).toNat < 2147483648
        omega)
      unfold reqAlarmClear
      rw [if_neg (show ¬ 2 ^ 36 ≤ set.toNat from not_le.mpr hset), haccepted]
      have hstate := clearItems_state er (itemsOf set) (s.setEv {}, [])
      generalize (itemsOf set).foldl (clearItem er) (s.setEv {}, []) = r at hstate ⊢
      rw [← show r.1 = _ from hstate]
      refine ⟨setBytes (r.2.map Prod.fst) ++ (setBytes (items.filter (fun i => (alarmRec r.1 i).latched)) ++
        r.2.flatMap (fun c : Nat × Nat => be 2 c.2)), ?_⟩
      rw [← List.append_assoc, ← List.append_assoc]
      rfl
    obtain ⟨cleared, hop⟩ := hop
    have hcount : (itemsOf set).length ≤ 36 := (List.length_filter_le _ _).trans (by decide)
    have hclears : Clears er (itemsOf set) (s.setEv {}) ((itemsOf set).foldl (clearedItem er) (s.setEv {})) := by
      refine clears_foldl hlen hok (by rw [hbehind]; omega) (fun k hk => (mem_itemsOf.mp hk).1) ?_
      rw [itemsOf_range]
      exact List.nodup_range.filter _
    generalize (itemsOf set).foldl (clearedItem er) (s.setEv {}) = v at hop hclears
    obtain ⟨a, honly⟩ := hclears.only
    obtain ⟨t, hstep, hreply, hleft⟩ := request_left 0x51 tag (alarmClearBody er set) hs hop
    obtain ⟨hrecords, hepoch, hnotices⟩ := request_alarms 0x51 tag _ hs hop (by rw [honly]; rfl) (by rw [honly]; rfl) (by rw [honly]; rfl) hstep
    have hrec : ∀ i, alarmRec t i = alarmRec v i := fun i => alarmRec_congr hrecords i
    have hagain : setAgain er (s.setEv {}) (itemsOf set) = again := by
      rw [setAgain, itemsOf_range, List.filter_filter]
      refine List.filter_congr fun i _ => ?_
      rw [Bool.eq_iff_iff]
      simp only [clearHit, epochAtOrBefore, Bool.and_eq_true, decide_eq_true_eq, hit]
      constructor
      · rintro ⟨⟨⟨hl, he⟩, hlive⟩, h1, hb⟩
        exact ⟨⟨h1, hb, hl, he⟩, hlive⟩
      · rintro ⟨⟨h1, hb, hl, he⟩, hlive⟩
        exact ⟨⟨⟨hl, he⟩, hlive⟩, h1, hb⟩
    have hhit : ∀ i, 1 ≤ i → i ≤ 36 → hit i → i ∈ itemsOf set ∧ clearHit er (s.setEv {}) i = true := fun i h1 h36 h => by
      obtain ⟨hb, hl, he⟩ := h
      exact ⟨mem_itemsOf.mpr ⟨⟨h1, h36⟩, hb⟩, by
        simp only [clearHit, epochAtOrBefore, Bool.and_eq_true, decide_eq_true_eq]
        exact ⟨hl, he⟩⟩
    refine ⟨t, cleared, (exec_alarmClear ..).trans hstep, ?_, ?_, ?_, fun j i hj => ?_, fun htx ho => ?_, fun i h1 h36 => ⟨fun h hl => ?_,
      fun h hl => ?_, fun h => ?_⟩⟩
    · rw [hepoch]
      exact hreply
    · have hdrive : t.drive = (judgePermission s).drive := by
        rw [hleft.drive, show (ok v _ : Answer).state = v from rfl, honly, judgePermission_drive_alarms, judgePermission_drive_ev]
      rw [← hdrive]
      rw [show t = _ from hleft, show (ok v _ : Answer).state = v from rfl, honly]
      rfl
    · rw [hepoch, show (ok v _ : Answer).state = v from rfl, hclears.epoch, hagain]
      rfl
    · rw [hrec]
      exact hclears.setEpochs j i (by rw [hagain]; exact hj)
    · rw [hnotices htx ho, show (ok v _ : Answer).state = v from rfl, hclears.notices, hagain]
      rfl
    · rw [hrec]
      exact hclears.cleared i (hhit i h1 h36 h).1 (hhit i h1 h36 h).2 hl
    · rw [hrec]
      exact hclears.again i (hhit i h1 h36 h).1 (hhit i h1 h36 h).2 hl
    · rw [hrec]
      refine hclears.kept i h1 ?_
      by_cases hb : i ∈ itemsOf set
      · refine .inr (Bool.eq_false_iff.mpr fun hc => h ?_)
        simp only [clearHit, epochAtOrBefore, Bool.and_eq_true, decide_eq_true_eq] at hc
        exact ⟨(mem_itemsOf.mp hb).2, hc.1, hc.2⟩
      · exact .inl hb

end Sys2Proof.Machine
end

section
/-! PROOF of the service table (O50) and the avail-plan table (O53). -/

namespace Sys2Proof.Machine
open Sys2Proof

theorem exec_defineService (tag : Byte) (number : BitVec 16) (eligible : Byte) (list : List (BitVec 16)) (s : State) :
    exec (.defineService tag number eligible list) s =
      request 0x28 tag (defineServiceBody number eligible list) (reqDefineService number eligible list) s := rfl

theorem exec_deleteService (tag : Byte) (number : BitVec 16) (s : State) :
    exec (.deleteService tag number) s = request 0x29 tag (word16Bytes number) (reqDeleteService number) s := rfl

theorem exec_planSet (tag kind : Byte) (avail service : BitVec 16) (clip harvest early : Byte) (map : List StreamPair) (s : State) :
    exec (.planSet tag kind avail service clip harvest early map) s = request 0x38 tag
      (planSetBody kind avail service clip harvest early map) (reqPlanSet kind avail service clip harvest early map) s := rfl

theorem exec_planDelete (tag kind : Byte) (avail service : BitVec 16) (s : State) : exec (.planDelete tag kind avail service) s =
    request 0x39 tag (planDeleteBody kind avail service) (reqPlanDelete kind avail service) s := rfl

theorem distinct_iff_nodup {α : Type} [DecidableEq α] (l : List α) : distinct l = true ↔ l.Nodup := by
  induction l with
  | nil => simp [distinct]
  | cons x l ih => simp [distinct, ih]

theorem bitVec_toNat_ne_zero {w : Nat} {x : BitVec w} : x.toNat ≠ 0 ↔ x ≠ 0 := by
  rw [ne_eq, ne_eq, ← BitVec.toNat_inj]
  simp

/-! ## The table of services -/

/-- The entry placed is the one found under its number, and every other number finds what it found. -/
theorem find?_putService (v : Service) (vs : List Service) (n : Nat) :
    (putService v vs).find? (fun w => w.number = n) = if n = v.number then some v else vs.find? (fun w => w.number = n) := by
  induction vs with
  | nil =>
    by_cases h : n = v.number
    · simp [putService, h]
    · simp [putService, h, Ne.symm h]
  | cons x vs ih =>
    unfold putService
    by_cases hlt : v.number < x.number
    · rw [if_pos hlt, List.find?_cons]
      by_cases h : n = v.number
      · simp [h]
      · simp [h, Ne.symm h]
    · rw [if_neg hlt]
      by_cases heq : v.number = x.number
      · rw [if_pos heq, List.find?_cons]
        by_cases h : n = v.number
        · simp [h]
        · have hx : ¬ x.number = n := fun hx => h (by omega)
          simp [h, Ne.symm h, hx]
      · rw [if_neg heq, List.find?_cons, ih, List.find?_cons]
        by_cases hx : x.number = n
        · have h : ¬ n = v.number := fun h => heq (by omega)
          simp [hx, h]
        · simp [hx]

theorem find?_filterService (vs : List Service) (n m : Nat) : (vs.filter (fun v => v.number ≠ n)).find? (fun v => v.number = m) =
    if m = n then none else vs.find? (fun v => v.number = m) := by
  rw [List.find?_filter]
  by_cases h : m = n
  · rw [if_pos h, List.find?_eq_none]
    simp [h]
  · rw [if_neg h]
    congr 1
    funext v
    by_cases hv : v.number = m
    · simp [hv, h]
    · simp [hv]

/-! ## The continuity offset records in line (R127) -/

theorem setServices_eq (vs : List Service) (s : State) : setServices vs s =
    s.setSplice { s.splice with services := vs, offsets := (setServices vs s).splice.offsets } := rfl

theorem serviceOf_setServices (vs : List Service) (s : State) (n : Nat) :
    serviceOf (setServices vs s) n = vs.find? (fun v => v.number = n) := rfl

/-- A record keeps its stream, whether it existed or is new. -/
theorem alignedRec_stream (s : State) (x : Nat) : ((offsetRec s x).getD { stream := x }).stream = x := by
  cases h : offsetRec s x with
  | none => rfl
  | some r => exact offsetRec_stream h

theorem setServices_streams (vs : List Service) (s : State) :
    (setServices vs s).splice.offsets.map OffsetRec.stream = serviceStreams (setServices vs s) := by
  show ((vs.flatMap Service.streams).map fun x => (offsetRec s x).getD { stream := x }).map OffsetRec.stream = vs.flatMap Service.streams
  rw [List.map_map]
  exact (List.map_congr_left fun x _ => alignedRec_stream s x).trans (List.map_id' _)

theorem offsetRec_setServices {vs : List Service} {s : State} {x : Nat} (hx : x ∈ serviceStreams (setServices vs s)) :
    offsetRec (setServices vs s) x = some ((offsetRec s x).getD { stream := x }) := by
  show ((vs.flatMap Service.streams).map fun x => (offsetRec s x).getD { stream := x }).find? (fun r => r.stream = x) = _
  have hsame : ((fun r : OffsetRec => decide (r.stream = x)) ∘ fun y => (offsetRec s y).getD { stream := y }) = fun y => decide (y = x) := by
    funext y
    simp only [Function.comp_apply, alignedRec_stream]
  rw [List.find?_map, hsame]
  have hfind : (vs.flatMap Service.streams).find? (fun y => decide (y = x)) = some x := by
    cases hf : (vs.flatMap Service.streams).find? (fun y => decide (y = x)) with
    | none => exact absurd (decide_eq_true (Eq.refl x)) (List.find?_eq_none.mp hf x hx)
    | some y => rw [show y = x by simpa using List.find?_some hf]
  rw [hfind]
  rfl

/-- What a changed service table leaves, with what the requests say of it. -/
theorem setServices_after {op : State → Answer} {s : State} (kind tag : Byte) (bytes : List Byte) (hs : Ready s) {vs : List Service}
    (hop : op (s.setEv {}) = ok (setServices vs (s.setEv {}))) :
    ∃ t, request kind tag bytes op s = .next t ∧ Replied t kind tag .ok [] ∧
      AfterRequest [] { s with splice := { s.splice with services := t.splice.services, offsets := t.splice.offsets } } t ∧
      (∀ n, serviceOf t n = vs.find? (fun v => v.number = n)) ∧ t.splice.offsets.map OffsetRec.stream = serviceStreams t ∧
      ∀ x ∈ serviceStreams t, offsetRec t x = some ((offsetRec s x).getD { stream := x }) := by
  obtain ⟨t, hstep, hreply, hafter⟩ := afterRequest_intro (is := []) kind tag bytes hs
    (hop.trans (show ok (setServices vs (s.setEv {})) = ⟨({ s with splice := (setServices vs s).splice } : State).setEv {}, .ok, []⟩ from rfl)) rfl (.inr rfl)
  have hsplice : t.splice = (setServices vs s).splice := by rw [show t = _ from hafter.1]
  refine ⟨t, hstep, hreply, ?_, fun n => ?_, ?_, fun x hx => ?_⟩
  · rw [hsplice]
    exact hafter
  · rw [serviceOf, hsplice]
    rfl
  · rw [serviceStreams, hsplice]
    exact setServices_streams vs s
  · rw [serviceStreams, hsplice] at hx
    rw [offsetRec, hsplice]
    exact offsetRec_setServices hx

/-! ## DEFINE SERVICE and DELETE SERVICE -/

/-- R93's checks that need no table of services. -/
theorem defineService_checks {s : State} {number : BitVec 16} {eligible : Byte} {list : List (BitVec 16)}
    (h0 : number ≠ 0) (he : eligible.toNat ≤ 1) (h1 : 1 ≤ (list.map BitVec.toNat).length) (h8 : (list.map BitVec.toNat).length ≤ 8)
    (hx : ∀ x ∈ list.map BitVec.toNat, x ≤ 8190 ∧ x ≠ s.live.feed.timingStream) (hd : (list.map BitVec.toNat).Nodup)
    (hv : ∀ v ∈ s.splice.services, v.number ≠ number.toNat → ∀ x ∈ list.map BitVec.toNat, x ∉ v.streams) :
    reqDefineService number eligible list s =
      if ((serviceOf s number.toNat).isSome && serviceBound s number.toNat) = true then turnDown s .refusedState
      else if ((serviceOf s number.toNat).isSome && !targetsWithin s number.toNat (list.map BitVec.toNat)) = true then turnDown s .refusedState
      else if (!(serviceOf s number.toNat).isSome && decide (16 ≤ s.splice.services.length)) = true then turnDown s .noRoom
      else ok (setServices (putService ⟨number.toNat, list.map BitVec.toNat, eligible == 1⟩ s.splice.services) s) := by
  have c1 : ¬ (number.toNat = 0 ∨ 1 < eligible.toNat ∨ (list.map BitVec.toNat).length = 0 ∨ 8 < (list.map BitVec.toNat).length) := by
    have := bitVec_toNat_ne_zero.mpr h0
    omega
  have c2 : ¬ (!((list.map BitVec.toNat).all (fun x => x ≤ 8190 && x != s.live.feed.timingStream) &&
      distinct (list.map BitVec.toNat))) = true := by
    rw [(distinct_iff_nodup _).mpr hd, Bool.and_true, Bool.not_eq_true', Bool.not_eq_false, List.all_eq_true]
    intro x hm
    simpa using hx x hm
  have c3 : ¬ ((s.splice.services.filter (fun v => v.number ≠ number.toNat)).any
      (fun v => v.streams.any (list.map BitVec.toNat).contains)) = true := by
    rw [List.any_eq_true]
    rintro ⟨v, hm, hstream⟩
    obtain ⟨hmem, hne⟩ := List.mem_filter.mp hm
    obtain ⟨x, hx, hc⟩ := List.any_eq_true.mp hstream
    exact hv v hmem (of_decide_eq_true hne) x (List.contains_iff_mem.mp hc) hx
  exact (if_neg c1).trans ((if_neg c2).trans (if_neg c3))

theorem defineService_bad {s : State} {number : BitVec 16} {eligible : Byte} {list : List (BitVec 16)}
    (h : number = 0 ∨ 1 < eligible.toNat ∨ list.map BitVec.toNat = [] ∨ 8 < (list.map BitVec.toNat).length ∨
      (∃ x ∈ list.map BitVec.toNat, 8190 < x ∨ x = s.live.feed.timingStream) ∨ ¬ (list.map BitVec.toNat).Nodup ∨
      (∃ v ∈ s.splice.services, v.number ≠ number.toNat ∧ ∃ x ∈ list.map BitVec.toNat, x ∈ v.streams)) :
    reqDefineService number eligible list s = turnDown s .badParameter := by
  unfold reqDefineService
  dsimp only
  by_cases c1 : number.toNat = 0 ∨ 1 < eligible.toNat ∨ (list.map BitVec.toNat).length = 0 ∨ 8 < (list.map BitVec.toNat).length
  · exact if_pos c1
  refine (if_neg c1).trans ?_
  by_cases c2 : (!((list.map BitVec.toNat).all (fun x => x ≤ 8190 && x != s.live.feed.timingStream) &&
      distinct (list.map BitVec.toNat))) = true
  · exact if_pos c2
  refine (if_neg c2).trans (if_pos ?_)
  rw [Bool.not_eq_true', Bool.not_eq_false, Bool.and_eq_true, distinct_iff_nodup, List.all_eq_true] at c2
  rcases h with h | h | h | h | ⟨x, hm, hx⟩ | h | ⟨v, hm, hne, x, hx, hin⟩
  · exact absurd (.inl (by rw [h]; rfl)) c1
  · exact absurd (.inr (.inl h)) c1
  · exact absurd (.inr (.inr (.inl (by rw [h]; rfl)))) c1
  · exact absurd (.inr (.inr (.inr h))) c1
  · have := c2.1 x hm
    simp only [Bool.and_eq_true, decide_eq_true_eq, bne_iff_ne, ne_eq] at this
    omega
  · exact absurd c2.2 h
  · exact List.any_eq_true.mpr ⟨v, List.mem_filter.mpr ⟨hm, decide_eq_true hne⟩,
      List.any_eq_true.mpr ⟨x, hin, List.contains_iff_mem.mpr hx⟩⟩

theorem targetsWithin_iff {s : State} {n : Nat} {streams : List Nat} :
    targetsWithin s n streams = true ↔ ∀ p ∈ s.splice.plans, p.service = n → ∀ m ∈ p.map, m.2 ∈ streams := by
  simp only [targetsWithin, List.all_eq_true, List.mem_filter, decide_eq_true_eq, List.contains_iff_mem, and_imp]

/-- Settles O50: each request by its checks in order, and the table by what `putService` and the filter find. -/
theorem serviceTable : Obligations.ServiceTable := by
  intro s tag number hs
  refine ⟨fun eligible list => ?_, ?_⟩
  · intro streams define
    refine ⟨fun hbad => request_turnedDown 0x28 tag _ hs (defineService_bad (s := s.setEv {}) hbad), fun h0 he h1 h8 hx hd hv => ?_⟩
    have hop := defineService_checks (s := s.setEv {}) h0 he h1 h8 hx hd hv
    refine ⟨fun hsome hrefused => request_turnedDown 0x28 tag _ hs (hop.trans ?_), fun hnone hfull => request_turnedDown 0x28 tag _ hs
      (hop.trans ?_), fun hbound htargets hroom => ?_⟩
    · have hsome' : (serviceOf (s.setEv {}) number.toNat).isSome = true := hsome
      by_cases hb : serviceBound (s.setEv {}) number.toNat = true
      · exact if_pos (by rw [hsome', hb]; rfl)
      · refine (if_neg (by simp [hb])).trans (if_pos ?_)
        obtain ⟨p, hp, hpn, m, hm, hout⟩ := hrefused.resolve_left hb
        rw [hsome', Bool.true_and, Bool.not_eq_true', Bool.eq_false_iff, ne_eq, targetsWithin_iff]
        exact fun h => hout (h p hp hpn m hm)
    · have hnone' : (serviceOf (s.setEv {}) number.toNat).isSome = false := by rw [show serviceOf (s.setEv {}) number.toNat = none from hnone]; rfl
      refine (if_neg (by simp [hnone'])).trans ((if_neg (by simp [hnone'])).trans (if_pos ?_))
      rw [hnone', Bool.not_false, Bool.true_and]
      exact decide_eq_true hfull
    · have hok : reqDefineService number eligible list (s.setEv {}) =
          ok (setServices (putService ⟨number.toNat, streams, eligible == 1⟩ s.splice.services) (s.setEv {})) := by
        have hb : serviceBound (s.setEv {}) number.toNat = false := hbound
        have ht : targetsWithin (s.setEv {}) number.toNat streams = true := targetsWithin_iff.mpr htargets
        refine hop.trans ((if_neg (by simp [hb])).trans ((if_neg ?_).trans (if_neg ?_)))
        · rw [show targetsWithin (s.setEv {}) number.toNat (list.map BitVec.toNat) = true from ht]
          simp
        · rcases hroom with h | h
          · simp [show (serviceOf (s.setEv {}) number.toNat).isSome = true from h]
          · simp [show ¬ 16 ≤ s.splice.services.length by omega]
      obtain ⟨t, hstep, hreply, hafter, hfind, hstreams, hoffsets⟩ := setServices_after 0x28 tag
        (defineServiceBody number eligible list) hs hok
      refine ⟨t, (exec_defineService ..).trans hstep, hreply, hafter, ?_, fun m hm => ?_, hstreams, hoffsets⟩
      · rw [hfind, find?_putService, if_pos rfl]
      · rw [hfind, find?_putService, if_neg hm]
        rfl
  · intro n delete
    refine ⟨fun h0 => request_turnedDown 0x29 tag _ hs (if_pos h0), fun h0 hnone => request_turnedDown 0x29 tag _ hs ?_,
      fun h0 hsome hrefused => request_turnedDown 0x29 tag _ hs ?_, fun h0 hsome hbound hplans => ?_⟩
    · have hnone' : (serviceOf (s.setEv {}) n).isNone = true := by rw [show serviceOf (s.setEv {}) n = none from hnone]; rfl
      exact (if_neg h0).trans (if_pos hnone')
    · have hnone' : ¬ (serviceOf (s.setEv {}) n).isNone = true := by rw [Option.isNone_iff_eq_none]; exact Option.isSome_iff_ne_none.mp hsome
      refine (if_neg h0).trans ((if_neg hnone').trans ?_)
      by_cases hb : serviceBound (s.setEv {}) n = true
      · exact if_pos hb
      · obtain ⟨p, hp, hpn⟩ := hrefused.resolve_left hb
        exact (if_neg hb).trans (if_pos (List.any_eq_true.mpr ⟨p, hp, decide_eq_true hpn⟩))
    · have hnone' : ¬ (serviceOf (s.setEv {}) n).isNone = true := by rw [Option.isNone_iff_eq_none]; exact Option.isSome_iff_ne_none.mp hsome
      have hop : reqDeleteService number (s.setEv {}) = ok (setServices (s.splice.services.filter (fun v => v.number ≠ n)) (s.setEv {})) := by
        refine (if_neg h0).trans ((if_neg hnone').trans ((if_neg (Bool.eq_false_iff.mp hbound)).trans (if_neg ?_)))
        rw [List.any_eq_true]
        rintro ⟨p, hp, hpn⟩
        exact hplans p hp (of_decide_eq_true hpn)
      obtain ⟨t, hstep, hreply, hafter, hfind, hstreams, -⟩ := setServices_after 0x29 tag (word16Bytes number) hs hop
      refine ⟨t, (exec_deleteService ..).trans hstep, hreply, hafter, ?_, fun m hm => ?_, hstreams⟩
      · rw [hfind, find?_filterService, if_pos rfl]
      · rw [hfind, find?_filterService, if_neg hm]
        rfl

/-! ## The avail-plan table (R106, R107) -/

/-- The entry put is the one found under its key, and every other key finds what it found. -/
theorem find?_putPlan (p : Plan) (ps : List Plan) (key : PlanKey) :
    (putPlan p ps).find? (fun q => q.key = key) = if key = p.key then some p else ps.find? (fun q => q.key = key) := by
  unfold putPlan
  by_cases hany : ps.any (fun q => q.key = p.key) = true
  · rw [if_pos hany, List.find?_map]
    have hsame : ((fun q : Plan => decide (q.key = key)) ∘ fun q => if q.key = p.key then p else q) = fun q => decide (q.key = key) := by
      funext q
      simp only [Function.comp_apply]
      split
      · rename_i h
        rw [h]
      · rfl
    rw [hsame]
    cases hf : ps.find? (fun q => decide (q.key = key)) with
    | none =>
      have hne : key ≠ p.key := by
        rintro rfl
        obtain ⟨q, hq, hk⟩ := List.any_eq_true.mp hany
        exact List.find?_eq_none.mp hf q hq hk
      rw [if_neg hne]
      rfl
    | some q =>
      have hq : q.key = key := by simpa using List.find?_some hf
      by_cases h : key = p.key
      · simp [hq, h]
      · simp [hq, h]
  · rw [if_neg hany, List.find?_append]
    by_cases h : key = p.key
    · have hnone : ps.find? (fun q => q.key = key) = none := List.find?_eq_none.mpr fun q hq hk =>
        hany (List.any_eq_true.mpr ⟨q, hq, by rw [← h]; exact hk⟩)
      rw [hnone, if_pos h, Option.none_or]
      simp [h]
    · simp [h, Ne.symm h]

theorem find?_filterPlan (ps : List Plan) (k other : PlanKey) : (ps.filter (fun q => q.key ≠ k)).find? (fun q => q.key = other) =
    if other = k then none else ps.find? (fun q => q.key = other) := by
  rw [List.find?_filter]
  by_cases h : other = k
  · rw [if_pos h, List.find?_eq_none]
    simp [h]
  · rw [if_neg h]
    congr 1
    funext q
    by_cases hq : q.key = other
    · simp [hq, h]
    · simp [hq]

theorem any_key_iff (ps : List Plan) (k : PlanKey) : ps.any (fun q => q.key = k) = (ps.find? (fun q => q.key = k)).isSome := by
  rw [Bool.eq_iff_iff, List.any_eq_true, List.find?_isSome]

theorem planKey_iff {kind : Byte} {avail service : BitVec 16} {key : PlanKey} : planKey kind avail service = some key ↔
    (kind = 0 ∧ avail ≠ 0 ∧ key = .exact avail.toNat) ∨ (kind = 1 ∧ avail = 0 ∧ service ≠ 0 ∧ key = .any service.toNat) := by
  unfold planKey
  split
  case isTrue h =>
    obtain ⟨rfl, ha⟩ := h
    refine ⟨fun e => .inl ⟨rfl, ha, (Option.some.inj e).symm⟩, fun e => ?_⟩
    rcases e with ⟨-, -, rfl⟩ | ⟨hk, -⟩
    · rfl
    · exact absurd hk (by decide)
  case isFalse h =>
    split
    case isTrue h1 =>
      obtain ⟨rfl, rfl, hv⟩ := h1
      refine ⟨fun e => .inr ⟨rfl, rfl, hv, (Option.some.inj e).symm⟩, fun e => ?_⟩
      rcases e with ⟨-, hz, -⟩ | ⟨-, -, -, rfl⟩
      · exact absurd rfl hz
      · rfl
    case isFalse h1 => simp only [reduceCtorEq, false_iff]; tauto

theorem planKey_none {kind : Byte} {avail service : BitVec 16}
    (h : 1 < kind.toNat ∨ (kind = 0 ∧ avail = 0) ∨ (kind = 1 ∧ (avail ≠ 0 ∨ service = 0))) : planKey kind avail service = none := by
  refine Option.eq_none_iff_forall_ne_some.mpr fun key hk => ?_
  rcases planKey_iff.mp hk with ⟨rfl, ha, -⟩ | ⟨rfl, ha, hv, -⟩
  · rcases h with h | ⟨-, h⟩ | ⟨h, -⟩
    · exact absurd h (by decide)
    · exact ha h
    · exact absurd h (by decide)
  · rcases h with h | ⟨h, -⟩ | ⟨-, h | h⟩
    · exact absurd h (by decide)
    · exact absurd h (by decide)
    · exact h ha
    · exact hv h

theorem mapFits_iff {map : List StreamPair} : mapFits (pairsOf map) = true ↔
    (∀ m ∈ map, m.1.toNat ≤ 8190) ∧ (map.map Prod.fst).Nodup ∧ (map.map Prod.snd).Nodup := by
  have hfst : (pairsOf map).map Prod.fst = (map.map Prod.fst).map BitVec.toNat := by simp [pairsOf]
  have hsnd : (pairsOf map).map Prod.snd = (map.map Prod.snd).map BitVec.toNat := by simp [pairsOf]
  have hinj : Function.Injective (BitVec.toNat (w := 16)) := fun _ _ => BitVec.eq_of_toNat_eq
  unfold mapFits
  rw [Bool.and_eq_true, Bool.and_eq_true, distinct_iff_nodup, distinct_iff_nodup, hfst, hsnd, List.nodup_map_iff hinj,
    List.nodup_map_iff hinj, and_assoc]
  refine and_congr_left' ?_
  simp [pairsOf, List.all_eq_true]

theorem targets_iff {map : List StreamPair} {v : Service} :
    (pairsOf map).all (fun x => v.streams.contains x.2) = true ↔ ∀ m ∈ map, m.2.toNat ∈ v.streams := by
  simp [pairsOf, List.all_eq_true]

/-- R106's checks on the request alone. -/
def planFields (service : BitVec 16) (clip harvest early : Byte) (map : List StreamPair) : Prop :=
  service ≠ 0 ∧ clip.toNat ≤ 31 ∧ harvest.toNat ≤ 1 ∧ early.toNat ≤ 1 ∧ 1 ≤ map.length ∧ map.length ≤ 8

section
variable {kind clip harvest early : Byte} {avail service : BitVec 16} {map : List StreamPair} {s : State}

theorem planFields_iff : planFields service clip harvest early map ↔ ¬ (service = 0 ∨ 31 < clip.toNat ∨ 1 < harvest.toNat ∨
    1 < early.toNat ∨ (pairsOf map).length = 0 ∨ 8 < (pairsOf map).length) := by
  have hlen : (pairsOf map).length = map.length := by simp [pairsOf]
  unfold planFields
  rw [hlen, not_or]
  exact and_congr_right fun _ => by omega

/-- PLAN SET past the checks on the request alone. -/
theorem planSet_checks {key : PlanKey} (hk : planKey kind avail service = some key) (hf : planFields service clip harvest early map)
    (hm : mapFits (pairsOf map) = true) : reqPlanSet kind avail service clip harvest early map s =
      match serviceOf s service.toNat with
      | none => turnDown s .notFound
      | some v =>
        if !((pairsOf map).all (fun x => v.streams.contains x.2)) then turnDown s .badParameter
        else if !(s.splice.plans.any (fun q => q.key = key)) && 32 ≤ s.splice.plans.length then turnDown s .noRoom
        else ok (s.setSplice { s.splice with
          plans := putPlan
            { key := key, service := service.toNat, clip := clip.toNat, map := pairsOf map, harvest := harvest == 1, early := early == 1 }
            s.splice.plans }) := by
  have hm' : ¬ (!mapFits (pairsOf map)) = true := by rw [hm]; decide
  unfold reqPlanSet
  rw [hk]
  exact (if_neg (planFields_iff.mp hf)).trans ((if_neg hm').trans (by cases serviceOf s service.toNat <;> rfl))

theorem planSet_bad (h : planKey kind avail service = none ∨ ¬ planFields service clip harvest early map ∨ mapFits (pairsOf map) = false ∨
    ∃ v, serviceOf s service.toNat = some v ∧ ¬ ∀ m ∈ map, m.2.toNat ∈ v.streams) :
    reqPlanSet kind avail service clip harvest early map s = turnDown s .badParameter := by
  cases hk : planKey kind avail service with
  | none =>
    unfold reqPlanSet
    rw [hk]
  | some key =>
    by_cases hf : planFields service clip harvest early map
    · cases hm : mapFits (pairsOf map) with
      | false =>
        unfold reqPlanSet
        rw [hk]
        exact (if_neg (planFields_iff.mp hf)).trans (if_pos (by rw [hm]; rfl))
      | true =>
        rw [planSet_checks hk hf hm]
        simp only [hk, hm, hf, reduceCtorEq, not_true_eq_false, Bool.true_eq_false, false_or] at h
        obtain ⟨v, hv, hout⟩ := h
        rw [hv]
        refine if_pos ?_
        rw [Bool.not_eq_true', Bool.eq_false_iff, ne_eq, targets_iff]
        exact hout
    · unfold reqPlanSet
      rw [hk]
      exact if_pos (not_not.mp (fun h => hf (planFields_iff.mpr h)))

end

/-- A changed plan table. -/
theorem setPlans_after {op : State → Answer} {s : State} (kind tag : Byte) (bytes : List Byte) (hs : Ready s) {ps : List Plan}
    (hop : op (s.setEv {}) = ok ((s.setEv {}).setSplice { s.splice with plans := ps })) :
    ∃ t, request kind tag bytes op s = .next t ∧ Replied t kind tag .ok [] ∧
      AfterRequest [] { s with splice := { s.splice with plans := t.splice.plans } } t ∧ t.splice.plans = ps := by
  obtain ⟨t, hstep, hreply, hafter⟩ := afterRequest_intro (is := []) kind tag bytes hs
    (hop.trans (show ok ((s.setEv {}).setSplice { s.splice with plans := ps }) =
      ⟨({ s with splice := { s.splice with plans := ps } } : State).setEv {}, .ok, []⟩ from rfl)) rfl (.inr rfl)
  have hplans : t.splice.plans = ps := by rw [show t = _ from hafter.1]
  exact ⟨t, hstep, hreply, by rw [hplans]; exact hafter, hplans⟩

/-- Settles O53: each request by its checks in order, and the table by what `putPlan` and the filter find. -/
theorem planTable : Obligations.PlanTable := by
  intro s tag kind avail service hs planAt removes
  refine ⟨fun key hkey => ?_, fun clip harvest early map => ?_⟩
  · have hk := planKey_iff.mpr hkey
    have hany : (s.setEv {}).splice.plans.any (fun q => q.key = key) = (planAt s key).isSome := any_key_iff _ _
    refine ⟨fun clip harvest early map h0 hclip hharvest hearly h1 h8 hstreams hfst hsnd => ?_, fun hnone => ?_, fun hsome => ?_⟩
    · intro sets p
      have hop := planSet_checks (s := s.setEv {}) hk (show planFields service clip harvest early map from ⟨h0, hclip, hharvest, hearly, h1, h8⟩)
        (mapFits_iff.mpr ⟨hstreams, hfst, hsnd⟩)
      refine ⟨fun hnone => request_turnedDown 0x38 tag _ hs (hop.trans ?_), fun v hv htargets => ⟨fun hnone hfull =>
        request_turnedDown 0x38 tag _ hs (hop.trans ?_), fun hroom => ?_⟩⟩
      · rw [show serviceOf (s.setEv {}) service.toNat = none from hnone]
      · rw [show serviceOf (s.setEv {}) service.toNat = some v from hv]
        refine (if_neg (by rw [targets_iff.mpr htargets]; decide)).trans (if_pos ?_)
        rw [hany, hnone]
        exact decide_eq_true hfull
      · rw [show serviceOf (s.setEv {}) service.toNat = some v from hv] at hop
        have hfits : ¬ (!((s.setEv {}).splice.plans.any (fun q => q.key = key)) && decide (32 ≤ (s.setEv {}).splice.plans.length)) = true := by
          rw [hany]
          rcases hroom with h | h
          · simp [h]
          · simp [show ¬ 32 ≤ s.splice.plans.length by omega]
        obtain ⟨t, hstep, hreply, hafter, hplans⟩ := setPlans_after 0x38 tag (planSetBody kind avail service clip harvest early map) hs
          (hop.trans ((if_neg (by rw [targets_iff.mpr htargets]; decide)).trans (if_neg hfits)))
        refine ⟨t, (exec_planSet ..).trans hstep, hreply, hafter, ?_, fun other ho => ?_⟩
        · show t.splice.plans.find? _ = _
          rw [hplans, find?_putPlan, if_pos rfl]
          rfl
        · show t.splice.plans.find? _ = _
          rw [hplans, find?_putPlan, if_neg ho]
          rfl
    · refine request_turnedDown 0x39 tag _ hs ?_
      unfold reqPlanDelete
      rw [hk]
      exact if_neg (by rw [hany, hnone]; decide)
    · have hop : reqPlanDelete kind avail service (s.setEv {}) =
          ok ((s.setEv {}).setSplice { s.splice with plans := s.splice.plans.filter (fun q => q.key ≠ key) }) := by
        unfold reqPlanDelete
        rw [hk]
        exact if_pos (hany.trans hsome)
      obtain ⟨t, hstep, hreply, hafter, hplans⟩ := setPlans_after 0x39 tag (planDeleteBody kind avail service) hs hop
      refine ⟨t, (exec_planDelete ..).trans hstep, hreply, hafter, ?_, fun other ho => ?_⟩
      · show t.splice.plans.find? _ = _
        rw [hplans, find?_filterPlan, if_pos rfl]
      · show t.splice.plans.find? _ = _
        rw [hplans, find?_filterPlan, if_neg ho]
  · intro malformed sets
    refine ⟨fun hbad => request_turnedDown 0x39 tag _ hs ?_, fun hbad => request_turnedDown 0x38 tag _ hs (planSet_bad (s := s.setEv {}) ?_)⟩
    · unfold reqPlanDelete
      rw [planKey_none hbad]
    · rcases hbad with h | h | h | h | h | h | h | ⟨m, hm, h⟩ | h | h | ⟨v, hv, m, hm, h⟩
      · exact .inl (planKey_none h)
      · exact .inr (.inl fun hf => hf.1 h)
      · exact .inr (.inl fun hf => absurd hf.2.1 (by omega))
      · exact .inr (.inl fun hf => absurd hf.2.2.1 (by omega))
      · exact .inr (.inl fun hf => absurd hf.2.2.2.1 (by omega))
      · exact .inr (.inl fun hf => absurd hf.2.2.2.2.1 (by simp [h]))
      · exact .inr (.inl fun hf => absurd hf.2.2.2.2.2 (by omega))
      · exact .inr (.inr (.inl (Bool.eq_false_iff.mpr fun hf => absurd ((mapFits_iff.mp hf).1 m hm) (by omega))))
      · exact .inr (.inr (.inl (Bool.eq_false_iff.mpr fun hf => h (mapFits_iff.mp hf).2.1)))
      · exact .inr (.inr (.inl (Bool.eq_false_iff.mpr fun hf => h (mapFits_iff.mp hf).2.2)))
      · exact .inr (.inr (.inr ⟨v, hv, fun hall => h (hall m hm)⟩))

end Sys2Proof.Machine
end

section
/-! PROOF of clip loading (O51). -/

namespace Sys2Proof.Machine
open Sys2Proof

theorem exec_clipOpen (tag n : Byte) (f k : BitVec 16) (crc : BitVec 32) (s : State) :
    exec (.clipOpen tag n f k crc) s = request 0x30 tag (clipOpenBody n f k crc) (reqClipOpen n f k crc) s := rfl

theorem exec_clipData (tag n : Byte) (packets : List Packet) (s : State) :
    exec (.clipData tag n packets) s = request 0x31 tag (clipDataBody n packets) (reqClipData n packets) s := rfl

theorem exec_clipSeek (tag n : Byte) (position : BitVec 32) (s : State) :
    exec (.clipSeek tag n position) s = request 0x32 tag ([n] ++ word32Bytes position) (reqClipSeek n position) s := rfl

/-! ## First fit (R97) -/

/-- A run of positions is free: it lies in the region and meets no extent. -/
def RunFree (s : State) (p length : Nat) : Prop := p + length ≤ 1165704 ∧ ∀ m, (clipRec s m).mode ≠ .empty →
  p + length ≤ (clipRec s m).base ∨ (clipRec s m).base + (clipRec s m).length ≤ p

theorem RunFree.inRun {s : State} {p length : Nat} (h : RunFree s p length) (hl : 0 < length) : ∃ r ∈ freeRuns s, length ≤ r.2 ∧ r.1 ≤ p := by
  refine freeRunsFrom_holds 0 (q := (p, length)) (Nat.zero_le _) hl h.1 fun e he => ?_
  obtain ⟨n, hn, rfl⟩ := mem_extents.mp he
  exact h.2 n hn

theorem freeRunsFrom_from {es : List (Nat × Nat)} {start : Nat} {r : Nat × Nat} (h : r ∈ freeRunsFrom start es) : start ≤ r.1 := by
  induction es generalizing start with
  | nil =>
    unfold freeRunsFrom at h
    split at h
    · rw [List.mem_singleton.mp h]
    · cases h
  | cons e es ih =>
    unfold freeRunsFrom at h
    split at h
    · rcases List.mem_cons.mp h with rfl | h
      · exact le_refl _
      · have := ih h
        omega
    · have := ih h
      omega

/-- The free runs stand in ascending order. -/
theorem freeRunsFrom_sorted (es : List (Nat × Nat)) (start : Nat) : (freeRunsFrom start es).Pairwise (fun q r => q.1 ≤ r.1) := by
  induction es generalizing start with
  | nil =>
    unfold freeRunsFrom
    split <;> simp
  | cons e es ih =>
    unfold freeRunsFrom
    split
    · refine List.pairwise_cons.mpr ⟨fun r hr => ?_, ih _⟩
      have := freeRunsFrom_from hr
      simp only
      omega
    · exact ih _

theorem firstFit_none {s : State} {length : Nat} (hl : 0 < length) (h : firstFit s length = none) (p : Nat) : ¬ RunFree s p length := by
  intro hp
  obtain ⟨r, hr, hlen, -⟩ := hp.inRun hl
  exact List.find?_eq_none.mp (Option.map_eq_none_iff.mp h) r hr (decide_eq_true hlen)

/-- First fit takes the lowest place. -/
theorem firstFit_lowest {s : State} {length base p : Nat} (hl : 0 < length) (h : firstFit s length = some base) (hp : p < base) :
    ¬ RunFree s p length := by
  intro hfree
  obtain ⟨r, hr, hlen, hrp⟩ := hfree.inRun hl
  obtain ⟨r0, hfind, rfl⟩ := Option.map_eq_some_iff.mp h
  obtain ⟨-, before, after, hsplit, hbefore⟩ := List.find?_eq_some_iff_append.mp hfind
  have hsorted : (freeRuns s).Pairwise (fun q r => q.1 ≤ r.1) := freeRunsFrom_sorted _ _
  rw [hsplit] at hr hsorted
  rcases List.mem_append.mp hr with hr | hr
  · have := hbefore r hr
    simp [hlen] at this
  · rcases List.mem_cons.mp hr with rfl | hr
    · omega
    · have := (List.pairwise_cons.mp (List.pairwise_append.mp hsorted).2.1).1 r hr
      omega

/-! ## CLIP OPEN -/

theorem clipOpen_checks {n : Byte} {f k : BitVec 16} {crc : BitVec 32} {s : State} (hn : n.toNat ≤ 31) (hf : f ≠ 0) (hk : k ≠ 0)
    (h4095 : k.toNat ≤ 4095) (hper : k.toNat < s.live.em.packets) : reqClipOpen n f k crc s =
      if (clipRec s n.toNat).mode ≠ .empty then turnDown s .refusedState
      else match firstFit s (f.toNat * k.toNat) with
        | none => turnDown s .noRoom
        | some base => ok (setClip n.toNat
            { mode := .loading, frames := f.toNat, perFrame := k.toNat, base := base, length := f.toNat * k.toNat, expected := crc } s)
            (be 4 base ++ be 4 (f.toNat * k.toNat)) := by
  have c1 : ¬ (31 < n.toNat ∨ f = 0 ∨ k = 0 ∨ 4095 < k.toNat) := by
    rintro (h | h | h | h)
    · omega
    · exact hf h
    · exact hk h
    · omega
  refine (if_neg c1).trans ((if_neg (not_le.mpr hper)).trans ?_)
  split
  · rfl
  · cases firstFit s (f.toNat * k.toNat) <;> rfl

theorem clipOpen_bad {n : Byte} {f k : BitVec 16} {crc : BitVec 32} {s : State}
    (h : 31 < n.toNat ∨ f = 0 ∨ k = 0 ∨ 4095 < k.toNat ∨ s.live.em.packets ≤ k.toNat) :
    reqClipOpen n f k crc s = turnDown s .badParameter := by
  unfold reqClipOpen
  dsimp only
  by_cases c1 : 31 < n.toNat ∨ f = 0 ∨ k = 0 ∨ 4095 < k.toNat
  · exact if_pos c1
  · exact (if_neg c1).trans (if_pos (by tauto))

/-! ## CLIP DATA -/

theorem clipRec_setClip_self {n : Nat} {x : Clip} {s : State} (h : n < s.clips.clips.length) : clipRec (setClip n x s) n = x := by
  simp [clipRec, setClip, h]

theorem setClip_again (n : Nat) (x y : Clip) (m : Memory) (s : State) :
    setClip n x ((setClip n y s).setMem m) = (setClip n x s).setMem m := by
  unfold setClip
  simp only [State.setMem_clips, State.setClips_clips, List.set_set]
  rfl

/-- What loaded packets leave: the clip's record, the memory, and nothing else. -/
theorem loadPackets_eq (n : Nat) (ps : List Packet) (s : State) (hn : n < s.clips.clips.length) :
    ps.foldl (loadPacket n) s =
      (setClip n (clipRec (ps.foldl (loadPacket n) s) n) s).setMem (ps.foldl (loadPacket n) s).mem := by
  have hform : ∃ x m, ps.foldl (loadPacket n) s = (setClip n x s).setMem m := by
    induction ps generalizing s with
    | nil =>
      refine ⟨clipRec s n, s.mem, ?_⟩
      have hsame : s.clips.clips.set n (clipRec s n) = s.clips.clips := by simp [clipRec, hn]
      unfold setClip
      rw [hsame]
      rfl
    | cons p ps ih =>
      obtain ⟨x, m, hx⟩ := ih (loadPacket n s p) (by simpa [loadPacket, setClip, writePackets] using hn)
      refine ⟨x, m, ?_⟩
      rw [List.foldl_cons, hx]
      rw [show loadPacket n s p = (setClip n (advanceWrite (clipRec s n)) s).setMem (loadPacket n s p).mem from rfl, setClip_again]
      rfl
  obtain ⟨x, m, hx⟩ := hform
  rw [hx]
  exact congrArg (fun c => (setClip n c s).setMem m) (clipRec_setClip_self hn).symm

/-- Loading writes inside the clip's extent alone (R96). -/
theorem loadPackets_within (n : Nat) (ps : List Packet) (s : State) (hw : ps.all Packet.whole = true) (hn : n < s.clips.clips.length)
    (hpos : (clipRec s n).writePos < (clipRec s n).length) :
    MemoryKeptOutside s (ps.foldl (loadPacket n) s) (clipAddress (clipRec s n).base) ((clipRec s n).length * 188) := by
  induction ps generalizing s with
  | nil => exact fun a _ => rfl
  | cons p ps ih =>
    obtain ⟨hp, hps⟩ : p.whole = true ∧ ps.all Packet.whole = true := by simpa using hw
    have hlen : p.length = 188 := by simpa [Packet.whole] using hp
    have hrec : clipRec (loadPacket n s p) n = advanceWrite (clipRec s n) := clipRec_setClip_self (s := writePackets s _ [p]) hn
    have hnext : (advanceWrite (clipRec s n)).writePos < (advanceWrite (clipRec s n)).length := by
      unfold advanceWrite
      dsimp only
      split <;> omega
    have hrest := ih (loadPacket n s p) hps (by simpa [loadPacket, setClip, writePackets] using hn) (by rw [hrec]; exact hnext)
    rw [hrec] at hrest
    intro a ha
    refine (hrest a ha).trans ((writePackets_spec s _ [p]).2 a ?_)
    simp only [clipAddress, List.flatten_cons, List.flatten_nil, List.append_nil, hlen] at ha ⊢
    rcases ha with ha | ha
    · left
      omega
    · right
      omega

/-- A packet written is the packet read back. -/
theorem readPacket_written {s : State} {a : Nat} {p : Packet} (hp : p.length = 188) (ha : a + 188 ≤ Config.memoryBytes) :
    readPacket (writePackets s a [p]) a = p := by
  refine List.ext_getElem (by simp [readPacket, hp]) fun i hi hi' => ?_
  have hlt : i < 188 := by simpa [readPacket] using hi
  have hread : Memory.read (Memory.write s.mem a p) (a + i) = some p[i] := by
    rw [Memory.read_write_inside s.mem a p (by omega) (by omega), List.getElem?_eq_getElem hi']
  have hwindow := Memory.read_filter (Memory.write s.mem a p) (fun x => decide (a ≤ x) && decide (x < a + 188)) (x := a + i)
    (by simp; omega)
  unfold readPacket writePackets
  simp only [State.setMem_mem, List.getElem_map, List.getElem_range, List.flatten_cons, List.flatten_nil, List.append_nil]
  rw [hwindow, hread]
  rfl

theorem clipData_checks {n : Byte} {ps : List Packet} {s : State} (hn : n.toNat ≤ 31) (h0 : ps ≠ []) (h5 : ps.length ≤ 5)
    (hw : ps.all Packet.whole = true) : reqClipData n ps s =
      if (clipRec s n.toNat).mode ≠ .loading then turnDown s .refusedState
      else if ps.all hasSync = false then turnDown s .badParameter
      else ok (ps.foldl (loadPacket n.toNat) s) (be 4 (clipRec (ps.foldl (loadPacket n.toNat) s) n.toNat).writePos ++
        be 4 (clipRec (ps.foldl (loadPacket n.toNat) s) n.toNat).highWater ++
        be 2 (clipRec (ps.foldl (loadPacket n.toNat) s) n.toNat).wraps) := by
  refine if_neg ?_
  rintro (h | h | h | h)
  · omega
  · exact h0 (List.length_eq_zero_iff.mp h)
  · omega
  · rw [hw] at h
    cases h

theorem clipData_bad {n : Byte} {ps : List Packet} {s : State}
    (h : 31 < n.toNat ∨ ps.length = 0 ∨ 5 < ps.length ∨ ps.all Packet.whole = false) : reqClipData n ps s = turnDown s .badParameter :=
  if_pos h

/-- No request of CLIP DATA writes outside the extent. -/
theorem clipData_within (n : Byte) (ps : List Packet) (s : State) (hpos : (clipRec s n.toNat).writePos < (clipRec s n.toNat).length) :
    MemoryKeptOutside s (reqClipData n ps s).state (clipAddress (clipRec s n.toNat).base) ((clipRec s n.toNat).length * 188) := by
  by_cases hbad : 31 < n.toNat ∨ ps.length = 0 ∨ 5 < ps.length ∨ ps.all Packet.whole = false
  · rw [clipData_bad hbad]
    exact fun a _ => rfl
  · obtain ⟨h31, h0, h5, hw⟩ : n.toNat ≤ 31 ∧ ps.length ≠ 0 ∧ ps.length ≤ 5 ∧ ps.all Packet.whole = true := by
      simpa only [not_or, not_lt, Bool.not_eq_false] using hbad
    rw [clipData_checks h31 (fun h => h0 (by rw [h]; rfl)) h5 hw]
    split
    · exact fun a _ => rfl
    · rename_i hmode
      split
      · exact fun a _ => rfl
      · have hn : n.toNat < s.clips.clips.length := lt_of_clip_mode (by rw [not_not.mp hmode]; decide)
        exact loadPackets_within n.toNat ps s hw hn hpos

/-- Settles O51: the requests by their checks in order, first fit by the free runs, and the memory by what one packet writes. -/
theorem clipLoading : Obligations.ClipLoading := by
  intro s tag n hs c put
  have hput : ∀ (x : Clip), setClip n.toNat x (s.setEv {}) = (put x).setEv {} := fun _ => rfl
  refine ⟨fun f k crc hn hf hk h4095 hper hmode => ?_, fun f k crc => ⟨fun hbad => request_turnedDown 0x30 tag _ hs
    (clipOpen_bad (s := s.setEv {}) hbad), fun hn hf hk h4095 hper hmode => request_turnedDown 0x30 tag _ hs
    ((clipOpen_checks (s := s.setEv {}) hn hf hk h4095 hper).trans (if_pos hmode))⟩, fun ps hw => ?_, fun p hn hw hsync hmode hok hpos => ?_,
    fun ps t hstep hpos => ?_, fun position => ?_⟩
  · intro length isFree
    have hlength : 0 < length := Nat.mul_pos (Nat.pos_of_ne_zero (bitVec_toNat_ne_zero.mpr hf))
      (Nat.pos_of_ne_zero (bitVec_toNat_ne_zero.mpr hk))
    have hfree : ∀ p, isFree p ↔ RunFree s p length := fun _ => Iff.rfl
    have hop := (clipOpen_checks (s := s.setEv {}) (crc := crc) hn hf hk h4095 hper).trans (if_neg (not_not.mpr hmode))
    refine ⟨fun hnone => ⟨fun _ p => firstFit_none hlength hnone p, request_turnedDown 0x30 tag _ hs (hop.trans ?_)⟩,
      fun base hbase => ⟨fun hok => ⟨(firstFit_apart hok.2.1 hbase).imp_right fun h m hm => (h m hm).symm, fun p hp => firstFit_lowest hlength hbase hp⟩, ?_⟩⟩
    · rw [show firstFit (s.setEv {}) (f.toNat * k.toNat) = none from hnone]
    · rw [show firstFit (s.setEv {}) (f.toNat * k.toNat) = some base from hbase] at hop
      obtain ⟨t, hstep, hreply, hafter⟩ := afterRequest_intro (is := []) 0x30 tag (clipOpenBody n f k crc) hs
        (hop.trans (show _ = (⟨(put
          { mode := .loading, frames := f.toNat, perFrame := k.toNat, base := base, length := length, expected := crc }).setEv {}, .ok, be 4 base ++ be 4 length⟩ : Answer) from rfl)) rfl (.inr rfl)
      exact ⟨t, (exec_clipOpen ..).trans hstep, hreply, hafter⟩
  · intro data
    refine ⟨fun hbad => request_turnedDown 0x31 tag _ hs (clipData_bad (s := s.setEv {}) ?_), fun hn h0 h5 hmode =>
      request_turnedDown 0x31 tag _ hs ((clipData_checks (s := s.setEv {}) hn h0 h5 hw).trans (if_pos hmode)),
      fun hn h0 h5 hmode hsync => request_turnedDown 0x31 tag _ hs ((clipData_checks (s := s.setEv {}) hn h0 h5 hw).trans
        ((if_neg (not_not.mpr hmode)).trans (if_pos hsync))), fun hn h0 h5 hmode hsync hlen => ?_⟩
    · rcases hbad with h | h | h
      · exact .inl h
      · exact .inr (.inl (by rw [h]; rfl))
      · exact .inr (.inr (.inl h))
    · have hop := (clipData_checks (s := s.setEv {}) hn h0 h5 hw).trans ((if_neg (not_not.mpr hmode)).trans (if_neg (by rw [hsync]; decide)))
      have hform := loadPackets_eq n.toNat ps (s.setEv {}) (by show n.toNat < s.clips.clips.length; omega)
      have hx : ∀ x m, ((setClip n.toNat x (s.setEv {})).setMem m) = ({ put x with mem := m } : State).setEv {} := fun _ _ => rfl
      generalize ps.foldl (loadPacket n.toNat) (s.setEv {}) = v at hop hform
      obtain ⟨t, hstep, hreply, hafter⟩ := afterRequest_intro (u := { put (clipRec v n.toNat) with mem := v.mem }) (is := []) (e := {}) 0x31 tag
        (clipDataBody n ps) hs (hop.trans (congrArg (fun w => ok w _) (hform.trans (hx _ _)))) rfl (.inr rfl)
      have hclips : clipRec t n.toNat = clipRec v n.toNat := by
        rw [clipRec, show t.clips = (put (clipRec v n.toNat)).clips by rw [show t = _ from hafter.1]]
        exact clipRec_setClip_self (s := s) (by omega)
      have hmem : t.mem = v.mem := by rw [show t = _ from hafter.1]
      refine ⟨t, (exec_clipData ..).trans hstep, ?_, ?_⟩
      · rw [hclips, hmem]
        exact hafter
      · rw [hclips]
        exact hreply
  · intro place wraps x
    have hlen : n.toNat < s.clips.clips.length := by rw [hok.1]; omega
    have hplen : p.length = 188 := by simpa [Packet.whole] using hw
    have hop := (clipData_checks (ps := [p]) (s := s.setEv {}) hn (by simp) (by simp) (by simpa using hw)).trans
      ((if_neg (not_not.mpr hmode)).trans (if_neg (by simp [hsync])))
    have hx : advanceWrite c = x := by
      unfold advanceWrite
      simp only [x, ← sat_eq_min]
      rfl
    have hform : [p].foldl (loadPacket n.toNat) (s.setEv {}) =
        ({ put x with mem := (writePackets s place [p]).mem } : State).setEv {} := by
      rw [← hx]
      rfl
    rw [hform] at hop
    have hrec : clipRec (({ put x with mem := (writePackets s place [p]).mem } : State).setEv {}) n.toNat = x :=
      clipRec_setClip_self (s := s) hlen
    rw [hrec] at hop
    obtain ⟨t, hstep, hreply, hafter⟩ := afterRequest_intro (is := []) 0x31 tag (clipDataBody n [p]) hs
      (hop.trans (show _ = (⟨({ put x with mem := (writePackets s place [p]).mem } : State).setEv {}, .ok, _⟩ : Answer) from rfl)) rfl (.inr rfl)
    have hmem : t.mem = (writePackets s place [p]).mem := by rw [show t = _ from hafter.1]
    have hstarts : t.starts = s.starts := by rw [show t = _ from hafter.1]
    have hfits : place + 188 ≤ Config.memoryBytes := by
      have h1 : c.base + c.length ≤ 1165704 := hok.2.1.1 n.toNat (by show c.mode ≠ _; rw [hmode]; decide)
      show 49283072 + (c.base + c.writePos) * 188 + 188 ≤ 268435456
      omega
    refine ⟨t, (exec_clipData ..).trans hstep, hreply, by rw [hmem]; exact hafter, ?_, fun a ha => ?_⟩
    · rw [← readPacket_written (s := s) hplen hfits]
      exact readPacket_congr hmem hstarts _
    · rw [hmem]
      exact (writePackets_spec s place [p]).2 a (by simpa [hplen] using ha)
  · obtain ⟨t', hstep', -, hleft⟩ := request_left 0x31 tag (clipDataBody n ps) hs (op := reqClipData n ps) rfl
    obtain rfl : t = t' := Host.Outcome.next.inj (hstep.symm.trans hstep')
    intro a ha
    rw [hleft.mem]
    exact clipData_within n ps (s.setEv {}) hpos a ha
  · intro seek
    refine ⟨fun h31 => request_turnedDown 0x32 tag _ hs (if_pos h31), fun h31 hmode => request_turnedDown 0x32 tag _ hs
      ((if_neg (not_lt.mpr h31)).trans (if_pos hmode)), fun h31 hmode hpos => request_turnedDown 0x32 tag _ hs
      ((if_neg (not_lt.mpr h31)).trans ((if_neg (not_not.mpr hmode)).trans (if_pos hpos))), fun h31 hmode hpos => ?_⟩
    obtain ⟨t, hstep, hreply, hafter⟩ := afterRequest_intro (u := put { c with writePos := position.toNat }) (is := []) (e := {}) 0x32 tag
      ([n] ++ word32Bytes position) hs (op := reqClipSeek n position) ((if_neg (not_lt.mpr h31)).trans ((if_neg (not_not.mpr hmode)).trans
        ((if_neg (not_le.mpr hpos)).trans rfl))) rfl (.inr rfl)
    exact ⟨t, (exec_clipSeek ..).trans hstep, hreply, hafter⟩

end Sys2Proof.Machine
end

section
/-! PROOF of clip verification (O52). -/

namespace Sys2Proof.Machine
open Sys2Proof

theorem exec_clipClose (tag n : Byte) (s : State) : exec (.clipClose tag n) s = request 0x33 tag [n] (reqClipClose n) s := rfl
theorem exec_clipDelete (tag n : Byte) (s : State) : exec (.clipDelete tag n) s = request 0x34 tag [n] (reqClipDelete n) s := rfl
theorem exec_verificationStepEnd (s : State) : exec .verificationStepEnd s = event verificationEffect s := rfl

/-! ## An occurrence in a request -/

/-- The alarm records after an answered request are those that its owner's effect left: the reply itself reports nothing. -/
theorem request_closed {op : State → Answer} {s t : State} {a : Answer} (code tag : Byte) (bytes : List Byte) (hs : Ready s)
    (hf : op (s.setEv {}) = a) (hlive : a.state.live = s.live) (hlink : a.state.link = s.link) (h : request code tag bytes op s = .next t) :
    t.alarms.records = (closeEvent a.state).alarms.records ∧ t.alarms.epoch = (closeEvent a.state).alarms.epoch ∧
    (s.link.tx.isSome = true → (∀ other, other ≠ 0 → noticeEnabled s other = false) →
      t.alarms.notices = (closeEvent a.state).alarms.notices) := by
  rw [request_ready hs, hf, Host.Outcome.next.injEq] at h
  obtain ⟨hr, he, hn⟩ := closeEvent_unlatched (s := formReply code tag a) (by simp)
  rw [← h]
  refine ⟨by rw [transmit_records, hr, formReply_records], by rw [transmit_epoch, he, formReply_epoch], fun htx ho => ?_⟩
  have hsent : (closeEvent (formReply code tag a)).link.tx.isSome = true := by
    rw [closeEvent_eq, formReply_link, hlink]
    exact htx
  rw [transmit_taken hsent, hn (fun other ho' => (noticeEnabled_congr ((formReply_live code tag a).trans hlive) other).trans (ho other ho')),
    formReply_notices]

/-- A single occurrence of an alarm item in an answered request. -/
theorem occurred_request {item : Nat} (h1 : 1 ≤ item) (h36 : item ≤ 36) {op : State → Answer} {s t : State} {a : Answer} (code tag : Byte)
    (bytes : List Byte) (hs : Ready s) (hf : op (s.setEv {}) = a) (hi : a.state.ev.items = [item]) (hlive : a.state.live = s.live)
    (hlink : a.state.link = s.link) (ha : a.state.alarms = s.alarms) (hn : s.alarms.records.length = 36)
    (h : request code tag bytes op s = .next t) : Occurred item s t := by
  obtain ⟨hr, he, hq⟩ := request_closed code tag bytes hs hf hlive hlink h
  obtain ⟨hepoch, hrec, hnoticed⟩ := occurred_event h1 h36 (f := fun _ => a.state) hs.1 rfl hi hlive (congrArg _ hlink) ha hn
    (event_next _ hs.1)
  rw [transmit_epoch] at hepoch
  rw [alarmRec_congr (transmit_records _)] at hrec
  refine ⟨he.trans hepoch, (alarmRec_congr hr item).trans hrec, fun htx ho => ?_⟩
  · rw [← hnoticed htx ho, hq htx ho, transmit_taken (by rw [closeEvent_eq, hlink]; exact htx)]

/-! ## CLIP CLOSE and CLIP DELETE -/

theorem clipClose_loading {n : Byte} {s : State} (hn : n.toNat ≤ 31) (hm : (clipRec s n.toNat).mode = .loading) : reqClipClose n s =
    if (clipRec s n.toNat).highWater < (clipRec s n.toNat).length then
      ok (reportClip n.toNat (setClip n.toNat { clipRec s n.toNat with mode := .rejected, reason := some .coverage } s))
    else ok (if s.clips.queue.isEmpty then
        beginPass s.clock.cycles (setQueue (s.clips.queue ++ [n.toNat]) (setClip n.toNat
          { clipRec s n.toNat with mode := .verifying, verified := 0 } s))
      else setQueue (s.clips.queue ++ [n.toNat]) (setClip n.toNat { clipRec s n.toNat with mode := .verifying, verified := 0 } s)) :=
  (if_neg (not_lt.mpr hn)).trans (if_neg (not_not.mpr hm))

/-- A rejection is reported by item 20 and a CLIP notice (R102). -/
theorem reportClip_rejected {n : Nat} {s : State} (h : (clipRec s n).mode = .rejected) : reportClip n s = s.setEv { s.ev with
    clips := s.ev.clips ++ [⟨n, .rejected, (clipRec s n).reason, (clipRec s n).computed.getD 0⟩], items := s.ev.items ++ [20] } := by
  unfold reportClip
  dsimp only
  rw [h]
  rfl

theorem reportClip_ready {n : Nat} {s : State} (h : (clipRec s n).mode = .ready) : reportClip n s = s.setEv { s.ev with
    clips := s.ev.clips ++ [⟨n, .ready, (clipRec s n).reason, (clipRec s n).computed.getD 0⟩] } := by
  unfold reportClip
  dsimp only
  rw [h]
  rfl

/-! ## A verification step (R101) -/

/-- The streams found after one packet more. -/
def findStream (found : List Nat) (p : Packet) : List Nat :=
  if streamOf p = 8191 ∨ streamOf p ∈ found ∨ 8 ≤ found.length then found else found ++ [streamOf p]

theorem addStream_eq (found : List Nat) (p : Packet) : addStream found (streamOf p) =
    (findStream found p, decide (streamOf p ≠ 8191 ∧ streamOf p ∉ found ∧ 8 ≤ found.length)) := by
  unfold addStream findStream
  by_cases h1 : streamOf p = 8191
  · rw [if_pos (.inl h1), if_pos (.inl h1)]
    simp [h1]
  · by_cases h2 : streamOf p ∈ found
    · rw [if_pos (.inr (List.contains_iff_mem.mpr h2)), if_pos (.inr (.inl h2))]
      simp [h2]
    · rw [if_neg (by simp [nullStream, h1, h2])]
      by_cases h3 : 8 ≤ found.length
      · rw [if_pos h3, if_pos (.inr (.inr h3))]
        simp [h1, h2, h3]
      · rw [if_neg h3, if_neg (by simp [h1, h2, h3])]
        simp [h3]

theorem findStreams_mono (ps : List Packet) (found : List Nat) {x : Nat} (h : x ∈ found) : x ∈ ps.foldl findStream found := by
  induction ps generalizing found with
  | nil => exact h
  | cons p ps ih =>
    refine ih _ ?_
    unfold findStream
    split
    · exact h
    · exact List.mem_append_left _ h

theorem findStreams_full (ps : List Packet) (found : List Nat) (h : 8 ≤ found.length) : ps.foldl findStream found = found := by
  induction ps with
  | nil => rfl
  | cons p ps ih => rw [List.foldl_cons, show findStream found p = found from if_pos (.inr (.inr h)), ih]

/-- A packet is marked as a ninth stream exactly when its stream is not among those found in the end. -/
theorem ninth_marked (p : Packet) (ps : List Packet) (found : List Nat) : (streamOf p ≠ 8191 ∧ streamOf p ∉ found ∧ 8 ≤ found.length) ↔
    (streamOf p ≠ 8191 ∧ streamOf p ∉ (p :: ps).foldl findStream found) := by
  constructor
  · rintro ⟨h1, h2, h3⟩
    exact ⟨h1, by rw [findStreams_full _ _ h3]; exact h2⟩
  · rintro ⟨h1, h2⟩
    have h3 : streamOf p ∉ findStream found p := fun h => h2 (findStreams_mono ps _ h)
    unfold findStream at h3
    split at h3
    · rename_i h
      exact ⟨h1, h3, (h.resolve_left h1).resolve_left h3⟩
    · exact absurd (List.mem_append_right _ (List.mem_singleton_self _)) h3

/-- What the packets of a step leave of the pass. -/
theorem verifyPackets_eq (n : Nat) (ps : List Packet) (s : State) (hn : n < s.clips.clips.length) :
    ∃ crowded : Bool, (crowded = true ↔ s.clips.streamFailed = true ∨
        ∃ p ∈ ps, streamOf p ≠ 8191 ∧ streamOf p ∉ ps.foldl findStream (clipRec s n).streams) ∧
      ps.foldl (verifyPacket n) s = s.setClips { s.clips with
        clips := s.clips.clips.set n { clipRec s n with streams := ps.foldl findStream (clipRec s n).streams }
        crc := crc32 s.clips.crc ps.flatten
        syncFailed := s.clips.syncFailed || ps.any (fun p => !hasSync p)
        streamFailed := crowded } := by
  induction ps generalizing s with
  | nil =>
    refine ⟨s.clips.streamFailed, by simp, ?_⟩
    have hsame : s.clips.clips.set n { clipRec s n with streams := (clipRec s n).streams } = s.clips.clips := by
      show s.clips.clips.set n (clipRec s n) = _
      simp [clipRec, hn]
    simp only [List.foldl_nil, hsame, List.flatten_nil, List.any_nil, Bool.or_false]
    rfl
  | cons p ps ih =>
    have hstep : verifyPacket n s p = s.setClips { s.clips with
        clips := s.clips.clips.set n { clipRec s n with streams := findStream (clipRec s n).streams p }
        crc := crc32 s.clips.crc p
        syncFailed := s.clips.syncFailed || !hasSync p
        streamFailed := s.clips.streamFailed ||
          decide (streamOf p ≠ 8191 ∧ streamOf p ∉ (clipRec s n).streams ∧ 8 ≤ (clipRec s n).streams.length) } := by
      unfold verifyPacket
      dsimp only
      rw [addStream_eq]
      rfl
    obtain ⟨crowded, hcrowded, heq⟩ := ih (verifyPacket n s p) (by rw [hstep]; simpa using hn)
    have hrec : clipRec (verifyPacket n s p) n = { clipRec s n with streams := findStream (clipRec s n).streams p } := by
      rw [hstep]
      simp [clipRec, hn]
    rw [hrec] at hcrowded heq
    refine ⟨crowded, ?_, ?_⟩
    · rw [hcrowded, hstep]
      simp only [State.setClips_clips, Bool.or_eq_true, decide_eq_true_eq, List.foldl_cons, List.mem_cons, exists_eq_or_imp, or_assoc]
      rw [ninth_marked p ps]
      rfl
    · rw [List.foldl_cons, heq, hstep]
      simp only [State.setClips_clips, List.set_set, List.foldl_cons, List.flatten_cons, List.any_cons, Bool.or_assoc, crc32,
        List.foldl_append]
      rfl

section
variable (s : State) (n : Nat)

/-- The packets that the next step of clip n reads (R101). -/
def stepRead : List Packet := (List.range (min 4096 ((clipRec s n).length - (clipRec s n).verified))).map (fun i =>
  readPacket s (clipAddress ((clipRec s n).base + (clipRec s n).verified + i)))

/-- The clip's record after the step, and before its outcome. -/
def steppedClip : Clip := { clipRec s n with
  streams := (stepRead s n).foldl findStream (clipRec s n).streams
  verified := (clipRec s n).verified + min 4096 ((clipRec s n).length - (clipRec s n).verified) }

/-- What a step leaves of the pass, where `crowded` says whether a ninth stream is marked. -/
def steppedState (crowded : Bool) : State := s.setClips { s.clips with
  clips := s.clips.clips.set n (steppedClip s n)
  stepStart := s.clips.stepStart + 10000
  crc := crc32 s.clips.crc (stepRead s n).flatten
  syncFailed := s.clips.syncFailed || (stepRead s n).any (fun p => !hasSync p)
  streamFailed := crowded }

/-- The end of the step, once its packets are read: the count of packets verified, and the time of the next step. -/
def endStep (v : State) : State :=
  let w := setClip n { clipRec v n with verified := (clipRec s n).verified + min 4096 ((clipRec s n).length - (clipRec s n).verified) } v
  w.setClips { w.clips with stepStart := w.clips.stepStart + 10000 }

variable {s : State} {n : Nat}

theorem endStep_verified (hn : n < s.clips.clips.length) (crowded : Bool) : endStep s n (s.setClips { s.clips with
      clips := s.clips.clips.set n { clipRec s n with streams := (stepRead s n).foldl findStream (clipRec s n).streams }
      crc := crc32 s.clips.crc (stepRead s n).flatten
      syncFailed := s.clips.syncFailed || (stepRead s n).any (fun p => !hasSync p)
      streamFailed := crowded }) = steppedState s n crowded := by
  unfold endStep setClip steppedState steppedClip clipRec
  simp only [State.setClips_clips, List.set_set, List.getD_eq_getElem?_getD, List.getElem?_set_self hn, Option.getD_some]
  rfl

theorem verificationEffect_due {rest : List Nat} (hq : s.clips.queue = n :: rest) (hdue : s.clips.stepStart + 10000 ≤ s.clock.cycles)
    (hn : n < s.clips.clips.length) : ∃ crowded : Bool, (crowded = true ↔ s.clips.streamFailed = true ∨
        ∃ p ∈ stepRead s n, streamOf p ≠ 8191 ∧ streamOf p ∉ (stepRead s n).foldl findStream (clipRec s n).streams) ∧
      verificationEffect s = if (clipRec s n).length ≤ (steppedClip s n).verified then endPass n rest (steppedState s n crowded)
        else steppedState s n crowded := by
  obtain ⟨crowded, hcrowded, heq⟩ := verifyPackets_eq n (stepRead s n) s hn
  refine ⟨crowded, hcrowded, ?_⟩
  have hunfold : verificationEffect s = if (clipRec s n).length ≤ (steppedClip s n).verified
      then endPass n rest (endStep s n ((stepRead s n).foldl (verifyPacket n) s))
      else endStep s n ((stepRead s n).foldl (verifyPacket n) s) := by
    unfold verificationEffect
    rw [hq]
    exact if_pos hdue
  rw [hunfold, heq, endStep_verified hn]

/-- The outcome of a pass, by R102's order of tests, with what it reports. -/
theorem endPass_stepped {rest : List Nat} {v : State} {x : Clip} {items : List Nat} (hn : n < v.clips.clips.length)
    (hx : passOutcome v (clipRec v n) = x) (hm : (x.mode = .rejected ∧ items = [20]) ∨ (x.mode = .ready ∧ items = [])) :
    endPass n rest v = (v.setClips
      { clips := v.clips.clips.set n x, queue := rest, stepStart := v.clips.stepStart, crc := 0xFFFFFFFF,
        syncFailed := false, streamFailed := false }).setEv { v.ev with
          clips := v.ev.clips ++ [⟨n, x.mode, x.reason, x.computed.getD 0⟩], items := v.ev.items ++ items } := by
  have hrec : clipRec (setClip n x v) n = x := clipRec_setClip_self hn
  unfold endPass
  rw [hx]
  rcases hm with ⟨hm, rfl⟩ | ⟨hm, rfl⟩
  · rw [reportClip_rejected (by rw [hrec]; exact hm), hrec, hm]
    rfl
  · rw [reportClip_ready (by rw [hrec]; exact hm), hrec, hm, List.append_nil]
    rfl

end

/-- The notices of an event at the Clip Store. -/
theorem noticed_clip {f : State → State} {s u t : State} (hp : Powered s) (hf : f (s.setEv {}) = u) (hl : u.live = s.live)
    (hlink : u.link = s.link) (ha : u.alarms = s.alarms) (h : event f s = .next t) : Noticed 5 (u.ev.clips.map clipNotice) s t := by
  have hn := noticed_event (kind := 5) (by decide) hp hf hl (congrArg _ hlink) (congrArg _ ha) h
  rwa [bodiesOf_judgePermission (by decide), bodiesOf_clip] at hn

/-- Settles O52: the two requests by their checks, and a step by what its packets leave and by the outcome of the pass. -/
theorem clipVerification : Obligations.ClipVerification := by
  intro s hlen hrecords
  refine ⟨fun tag n hs hbad => ⟨request_turnedDown 0x33 tag _ hs (if_pos hbad), request_turnedDown 0x34 tag _ hs (if_pos hbad)⟩,
    fun tag n hs hn => ?_, fun n rest hp hq hn hdue => ?_⟩
  · intro c put
    have hin : n.toNat < s.clips.clips.length := by omega
    refine ⟨fun hm hshort => ?_, fun hm hfull => ?_, fun hm => request_turnedDown 0x33 tag _ hs ((if_neg (not_lt.mpr hn)).trans (if_pos hm)),
      fun hm => request_turnedDown 0x34 tag _ hs ((if_neg (not_lt.mpr hn)).trans (if_pos hm)),
      fun hm hu => request_turnedDown 0x34 tag _ hs ((if_neg (not_lt.mpr hn)).trans ((if_neg hm).trans (if_pos hu))), fun hm hu => ?_⟩
    · have hop := (clipClose_loading (s := s.setEv {}) hn hm).trans (if_pos hshort)
      have hrec : clipRec (setClip n.toNat { clipRec (s.setEv {}) n.toNat with mode := .rejected, reason := some .coverage } (s.setEv {}))
          n.toNat = { c with mode := .rejected, reason := some .coverage } := clipRec_setClip_self (s := s.setEv {}) hin
      rw [reportClip_rejected (by rw [hrec]), hrec] at hop
      obtain ⟨t, hstep, hreply, hafter⟩ := afterRequest_intro (is := [20]) 0x33 tag [n] hs (hop.trans
        (show _ = (⟨(put { c with mode := .rejected, reason := some .coverage } s.clips.queue false).setEv
          { clips := [⟨n.toNat, .rejected, some .coverage, c.computed.getD 0⟩], items := [20] }, .ok, []⟩ : Answer) from rfl)) rfl (.inl hrecords)
      have hnoticed := noticed_request (kind := 5) (by decide) 0x33 tag [n] hs hop rfl rfl rfl hstep
      rw [bodiesOf_judgePermission (by decide), bodiesOf_clip] at hnoticed
      refine ⟨t, (exec_clipClose ..).trans hstep, hreply, hafter, occurred_request (by decide) (by decide) 0x33 tag [n] hs hop rfl rfl rfl rfl
        hrecords hstep, hnoticed.of_eq ?_⟩
      show [be 1 n.toNat ++ be 1 (4 : Nat) ++ be 1 (4 : Nat) ++ be 4 (c.computed.getD 0).toNat] = _
      rw [be_one, be_one, BitVec.ofNat_toNat, BitVec.setWidth_eq]
      rfl
    · have hop := (clipClose_loading (s := s.setEv {}) hn hm).trans (if_neg (not_lt.mpr hfull))
      have hform : (if (s.setEv {}).clips.queue.isEmpty then
          beginPass (s.setEv {}).clock.cycles (setQueue ((s.setEv {}).clips.queue ++ [n.toNat]) (setClip n.toNat
            { clipRec (s.setEv {}) n.toNat with mode := .verifying, verified := 0 } (s.setEv {})))
          else setQueue ((s.setEv {}).clips.queue ++ [n.toNat]) (setClip n.toNat
            { clipRec (s.setEv {}) n.toNat with mode := .verifying, verified := 0 } (s.setEv {}))) =
          (put { c with mode := .verifying, verified := 0 } (s.clips.queue ++ [n.toNat]) s.clips.queue.isEmpty).setEv {} := by
        show (if s.clips.queue.isEmpty = true then _ else _) = _
        cases s.clips.queue.isEmpty <;> rfl
      obtain ⟨t, hstep, hreply, hafter⟩ := afterRequest_intro (is := []) 0x33 tag [n] hs (hop.trans (congrArg (fun w => ok w []) hform)) rfl (.inr rfl)
      exact ⟨t, (exec_clipClose ..).trans hstep, hreply, hafter⟩
    · have hform : deleteClip n.toNat (s.setEv {}) =
          (put {} (s.clips.queue.filter (· ≠ n.toNat)) (s.clips.queue.head? == some n.toNat)).setEv {} := by
        unfold deleteClip
        show (if s.clips.queue.head? = some n.toNat then _ else _) = _
        by_cases h : s.clips.queue.head? = some n.toNat
        · have hb : (s.clips.queue.head? == some n.toNat) = true := beq_iff_eq.mpr h
          rw [hb, if_pos h]
          rfl
        · have hb : (s.clips.queue.head? == some n.toNat) = false := beq_eq_false_iff_ne.mpr h
          rw [hb, if_neg h]
          rfl
      obtain ⟨t, hstep, hreply, hafter⟩ := afterRequest_intro (is := []) 0x34 tag [n] hs (op := reqClipDelete n)
        (((if_neg (not_lt.mpr hn)).trans ((if_neg hm).trans (if_neg (by show ¬ 0 < c.uses; omega)))).trans (congrArg (fun w => ok w []) hform))
        rfl (.inr rfl)
      exact ⟨t, (exec_clipDelete ..).trans hstep, hreply, hafter⟩
  · intro c count read crc streams ninth outcome sync crowded
    have hin : n < (s.setEv {}).clips.clips.length := by
      show n < s.clips.clips.length
      omega
    obtain ⟨marked, hmarked, hf⟩ := verificationEffect_due (s := s.setEv {}) hq hdue hin
    have hmarked' : marked = true ↔ crowded := hmarked
    have hsync : (s.clips.syncFailed || read.any (fun p => !hasSync p)) = true ↔ sync := by
      simp only [Bool.or_eq_true, List.any_eq_true, Bool.not_eq_true', sync]
    have hverified : (steppedClip (s.setEv {}) n).verified = c.verified + count := rfl
    refine ⟨fun hmore => ?_, fun hlast => ?_⟩
    · have hcount : count = 4096 := by
        simp only [count]
        omega
      have hstate : steppedState (s.setEv {}) n marked = ({ s with clips :=
            { clips := s.clips.clips.set n { c with verified := c.verified + 4096, streams := streams },
              queue := n :: rest, stepStart := s.clips.stepStart + 10000, crc := crc,
              syncFailed := s.clips.syncFailed || read.any (fun p => !hasSync p),
              streamFailed := marked } } : State).setEv {} := by
        rw [← hq, ← hcount]
        rfl
      have hmid : verificationEffect (s.setEv {}) = steppedState (s.setEv {}) n marked :=
        hf.trans (if_neg (by rw [hverified, hcount]; exact not_le.mpr hmore))
      rw [hstate] at hmid
      obtain ⟨t, hstep, hafter⟩ := afterEvent_intro (is := []) hp hmid rfl (.inr rfl)
      have hnoticed := noticed_clip hp hmid rfl rfl rfl hstep
      have hfailed : t.clips.streamFailed = marked := by rw [show t = _ from hafter.1]
      exact ⟨t, (exec_verificationStepEnd s).trans hstep, by rw [hfailed]; exact hafter, by rw [hfailed]; exact hmarked', hnoticed⟩
    · have hend : verificationEffect (s.setEv {}) = endPass n rest (steppedState (s.setEv {}) n marked) := by
        refine hf.trans (if_pos ?_)
        rw [hverified]
        simp only [count]
        show c.length ≤ _
        omega
      have hlength : n < (steppedState (s.setEv {}) n marked).clips.clips.length := by
        show n < (s.clips.clips.set n _).length
        rw [List.length_set]
        exact hin
      have hrec : clipRec (steppedState (s.setEv {}) n marked) n = steppedClip (s.setEv {}) n := clipRec_setClip_self (s := s.setEv {}) hin
      have hdone : ∀ (x : Clip) (items : List Nat), (items = [] ∨ items = [20]) →
          passOutcome (steppedState (s.setEv {}) n marked) (steppedClip (s.setEv {}) n) =
            { x with computed := some crc, streams := streams, verified := c.verified + count } →
          ((x.mode = .rejected ∧ items = [20]) ∨ (x.mode = .ready ∧ items = [])) → outcome x items := by
        intro x items hitems hx hm
        let y : Clip := { x with computed := some crc, streams := streams, verified := c.verified + count }
        have hset : (steppedState (s.setEv {}) n marked).clips.clips.set n y = s.clips.clips.set n y :=
          List.set_set ..
        rw [endPass_stepped hlength ((congrArg _ hrec).trans hx) hm, show (steppedState (s.setEv {}) n marked).clips.clips.set n _ = _ from hset] at hend
        obtain ⟨t, hstep, hafter⟩ := afterEvent_intro (is := items) hp (hend.trans (show _ = ({ s with clips :=
            { clips := s.clips.clips.set n y, queue := rest, stepStart := s.clips.stepStart + 10000, crc := 0xFFFFFFFF,
              syncFailed := false, streamFailed := false } } : State).setEv
              { clips := [⟨n, y.mode, y.reason, crc⟩], items := items } from rfl)) rfl (.inl hrecords)
        refine ⟨t, (exec_verificationStepEnd s).trans hstep, hafter, fun i hi => ?_, noticed_clip hp hend rfl rfl rfl hstep⟩
        rcases hitems with rfl | rfl
        · cases hi
        · obtain rfl := List.mem_singleton.mp hi
          exact occurred_event (by decide) (by decide) hp hend rfl rfl rfl rfl hrecords hstep
      refine ⟨fun hs => ?_, fun hs hc => ?_, fun hs hc hne => ?_, fun hs hc heq => ?_⟩
      · exact hdone _ _ (.inr rfl) (if_pos (hsync.mpr hs)) (.inl ⟨rfl, rfl⟩)
      · exact hdone _ _ (.inr rfl) ((if_neg (mt hsync.mp hs)).trans (if_pos (hmarked'.mpr hc))) (.inl ⟨rfl, rfl⟩)
      · exact hdone _ _ (.inr rfl) ((if_neg (mt hsync.mp hs)).trans ((if_neg (mt hmarked'.mp hc)).trans (if_pos hne))) (.inl ⟨rfl, rfl⟩)
      · exact hdone _ _ (.inl rfl) ((if_neg (mt hsync.mp hs)).trans ((if_neg (mt hmarked'.mp hc)).trans (if_neg (not_not.mpr heq))))
          (.inr ⟨rfl, rfl⟩)

end Sys2Proof.Machine
end

section
/-! PROOF of aborts, frame starts and ends at the channels, returns and arbitration (O55). -/

namespace Sys2Proof.Machine
open Sys2Proof

theorem exec_abortSplice (tag n : Byte) (s : State) : exec (.abortSplice tag n) s = request 0x43 tag [n] (reqAbortSplice n) s := rfl

/-! ## Arbitration (R119) -/

/-- With no entry WAITING there is nothing to bind. -/
theorem arbitrate_idle {s : State} (h : ∀ e ∈ s.splice.cues, e.mode ≠ .waiting) (n : Four) : arbitrate n s = s := by
  have hnone : candidate s = none := List.find?_eq_none.mpr fun e he hw => by
    simp only [Bool.and_eq_true, decide_eq_true_eq] at hw
    exact h e (mem_orderedCues.mp he) hw.1
  unfold arbitrate
  split
  · cases s.splice.cues.length with
    | zero => rfl
    | succ fuel =>
      unfold arbitrateLoop
      rw [hnone]
  · rfl

/-- The first candidate is bound when it may be armed. -/
theorem arbitrate_binds {s : State} {n : Four} {e : CueEntry} {v : Service} {p : Plan} (hn : s.splice.channels.get n = none)
    (he : candidate s = some e) (hv : serviceOf s e.service = some v) (hel : v.eligible = true) (hp : planFor s e.avail e.service = some p)
    (hu : clipUsable s p.clip = true) : arbitrate n s = bindChannel n e p s := by
  have hmem := (candidate_some he).1
  obtain ⟨fuel, hfuel⟩ : ∃ fuel, s.splice.cues.length = fuel + 1 :=
    ⟨s.splice.cues.length - 1, by have := List.length_pos_of_mem hmem; omega⟩
  unfold arbitrate
  rw [hn, hfuel]
  unfold arbitrateLoop
  rw [he]
  have hany : (serviceOf s e.service).any Service.eligible = true := by rw [hv]; exact hel
  simp only [Option.isNone_none, if_true, hany, Bool.not_true, Bool.false_eq_true, if_false, hp, hu]

/-! ## Returns and disarming (R124) -/

/-- The offset records with a service's streams marked for resynchronisation. -/
def resyncedOffsets (s : State) (service : Nat) : List OffsetRec := s.splice.offsets.map (fun r =>
  if (serviceOf s service).any (fun v => v.streams.contains r.stream) then { r with resync := true } else r)

theorem offsetRec_resynced (s : State) (service x : Nat) : (resyncedOffsets s service).find? (fun r => r.stream = x) =
    (offsetRec s x).map (fun r => if (serviceOf s service).any (fun v => v.streams.contains x) then { r with resync := true } else r) := by
  unfold resyncedOffsets offsetRec
  rw [List.find?_map]
  have hsame : ((fun r : OffsetRec => decide (r.stream = x)) ∘ fun r =>
      if (serviceOf s service).any (fun v => v.streams.contains r.stream) then { r with resync := true } else r) =
      fun r => decide (r.stream = x) := by
    funext r
    simp only [Function.comp_apply]
    split <;> rfl
  rw [hsame]
  cases hf : s.splice.offsets.find? (fun r => decide (r.stream = x)) with
  | none => rfl
  | some r =>
    have hx : r.stream = x := by simpa using List.find?_some hf
    simp only [Option.map_some, hx]

/-- A channel released with its notice. -/
def released (n : Four) (c : Channel) (occasion reason : Nat) (s : State) : State :=
  { s with
    clips := { s.clips with
      clips := s.clips.clips.set c.clip { clipRec s c.clip with uses := (clipRec s c.clip).uses - 1 } }
    splice := { s.splice with
      channels := s.splice.channels.set n none
      cues := s.splice.cues.filter (fun e => e.avail ≠ c.avail) }
    ev := { s.ev with
      splice := s.ev.splice ++ [⟨n, c.avail, c.service, occasion, reason, c.read, s.splice.lastStarted.getD 0⟩] } }

theorem releaseChannel_eq (n : Four) (c : Channel) (occasion reason : Nat) (s : State) :
    releaseChannel n c (noteChannel n c occasion reason s) = released n c occasion reason s := rfl

theorem markResync_eq (service : Nat) (s : State) :
    markResync service s = s.setSplice { s.splice with offsets := resyncedOffsets s service } := by
  unfold markResync resyncedOffsets
  cases serviceOf s service with
  | none =>
    simp only [Option.any_none, Bool.false_eq_true, if_false, List.map_id']
    rfl
  | some v => rfl

/-- What the steps of a return leave before its arbitration (R124). -/
theorem endSplice_eq (n : Four) (c : Channel) (reason : ReturnReason) (s : State) : endSplice n c reason s =
    ((released n c 3 (reasonCode reason) s).setSplice
      { (released n c 3 (reasonCode reason) s).splice with offsets := resyncedOffsets s c.service }).setEv
      { (released n c 3 (reasonCode reason) s).ev with
        items := s.ev.items ++ if reason = .starved ∨ reason = .reAnchor then [17] else [] } := by
  have hoffsets : resyncedOffsets (released n c 3 (reasonCode reason) s) c.service = resyncedOffsets s c.service := rfl
  have hitems : (released n c 3 (reasonCode reason) s).ev.items = s.ev.items := rfl
  unfold endSplice
  dsimp only
  rw [releaseChannel_eq, markResync_eq, hoffsets]
  rw [← hitems]
  generalize released n c 3 (reasonCode reason) s = u
  by_cases h : reason = .starved ∨ reason = .reAnchor
  · rw [if_pos h, if_pos h]
    rfl
  · rw [if_neg h, if_neg h, List.append_nil]
    rfl

/-- A return where every entry is of the channel's avail: no entry is left to bind. -/
theorem returnChannel_last {n : Four} {c : Channel} {s : State} (h : ∀ e ∈ s.splice.cues, e.avail = c.avail) (reason : ReturnReason) :
    returnChannel n c reason s = endSplice n c reason s := by
  unfold returnChannel
  dsimp only
  split
  · rfl
  · refine arbitrate_idle (fun e he => ?_) n
    rw [endSplice_eq] at he
    obtain ⟨hmem, hne⟩ := List.mem_filter.mp he
    exact absurd (h e hmem) (of_decide_eq_true hne)

theorem disarm_eq (n : Four) (c : Channel) (s : State) : disarm n c s = released n c 4 0 s := rfl

/-! ## Channels in turn -/

/-- An operation that skips IDLE channels, where one channel alone is not IDLE. -/
theorem foldl_lone {f : State → Four → State} (hskip : ∀ u m, u.splice.channels.get m = none → f u m = u) {s : State} {n : Four}
    (hs : ∀ m, m ≠ n → s.splice.channels.get m = none) (hf : ∀ m, m ≠ n → (f s n).splice.channels.get m = none) :
    Four.all.foldl f s = f s n := by
  cases n <;> simp only [Four.all, List.foldl_cons, List.foldl_nil]
  · rw [hskip _ .n2 (hf _ (by decide)), hskip _ .n3 (hf _ (by decide)), hskip _ .n4 (hf _ (by decide))]
  · rw [hskip s .n1 (hs _ (by decide)), hskip _ .n3 (hf _ (by decide)), hskip _ .n4 (hf _ (by decide))]
  · rw [hskip s .n1 (hs _ (by decide)), hskip s .n2 (hs _ (by decide)), hskip _ .n4 (hf _ (by decide))]
  · rw [hskip s .n1 (hs _ (by decide)), hskip s .n2 (hs _ (by decide)), hskip s .n3 (hs _ (by decide))]

theorem PerFour.ext_get {α : Type} {x y : PerFour α} (h : ∀ n, x.get n = y.get n) : x = y := by
  obtain ⟨a, b, c, d⟩ := x
  obtain ⟨a', b', c', d'⟩ := y
  have h1 := h .n1
  have h2 := h .n2
  have h3 := h .n3
  have h4 := h .n4
  simp only [PerFour.get] at h1 h2 h3 h4
  rw [h1, h2, h3, h4]

/-! ## A frame's start at the entries (R120) -/

/-- The entry is ARMED on the channel. -/
def armedOn (n : Four) (e : CueEntry) : Bool := e.mode == .armed && e.channel == some n

/-- What one entry's start leaves of a channel. -/
theorem startEntry_channel (s : State) (e : CueEntry) (n : Four) : (startEntry s e).splice.channels.get n =
    if armedOn n e then (s.splice.channels.get n).map (fun c => { c with active := true }) else s.splice.channels.get n := by
  unfold startEntry armedOn
  cases hm : e.mode with
  | armed =>
    unfold activate
    cases hc : e.channel with
    | none => rfl
    | some m =>
      dsimp only
      by_cases hmn : m = n
      · subst hmn
        cases hch : s.splice.channels.get m with
        | none => simp [hch]
        | some c =>
          show ((s.splice.channels.set m (some { c with active := true })).get m) = _
          simp
      · have hne : ((CueMode.armed == CueMode.armed) && (some m == some n)) = false := by simp [hmn]
        rw [if_neg (by rw [hne]; decide)]
        cases hch : s.splice.channels.get m with
        | none => rfl
        | some c => exact PerFour.get_set_ne _ (Ne.symm hmn) _
  | waiting => rfl
  | unfilled => rfl
  | active => rfl

theorem startEntries_channel (xs : List CueEntry) (s : State) (n : Four) : (xs.foldl startEntry s).splice.channels.get n =
    if xs.any (armedOn n) then (s.splice.channels.get n).map (fun c => { c with active := true }) else s.splice.channels.get n := by
  induction xs generalizing s with
  | nil => rfl
  | cons e xs ih =>
    rw [List.foldl_cons, ih, startEntry_channel, List.any_cons]
    cases s.splice.channels.get n <;> cases armedOn n e <;> cases xs.any (armedOn n) <;> rfl

theorem startEntry_leaves (s : State) (e : CueEntry) : (startEntry s e).clips = s.clips ∧
    (startEntry s e).splice.lastStarted = s.splice.lastStarted ∧ (∀ x ∈ s.ev.splice, x ∈ (startEntry s e).ev.splice) ∧
    (∀ i ∈ s.ev.items, i ∈ (startEntry s e).ev.items) ∧ ∀ a, cueOf s a = none → cueOf (startEntry s e) a = none := by
  have hremoved : ∀ a b, cueOf s a = none → cueOf (removeCue b s) a = none := fun a b h => by
    refine List.find?_eq_none.mpr fun x hx => ?_
    exact List.find?_eq_none.mp h x (List.mem_of_mem_filter hx)
  unfold startEntry
  cases hm : e.mode with
  | armed =>
    unfold activate
    dsimp only
    split
    · split
      · refine ⟨rfl, rfl, fun _ hx => List.mem_append_left _ hx, fun i hi => hi, fun a h => ?_⟩
        refine List.find?_eq_none.mpr fun x hx => ?_
        obtain ⟨y, hy, rfl⟩ := List.mem_map.mp hx
        have := List.find?_eq_none.mp h y hy
        split <;> exact this
      · exact ⟨rfl, rfl, fun _ hx => hx, fun _ hi => hi, fun a h => h⟩
    · exact ⟨rfl, rfl, fun _ hx => hx, fun _ hi => hi, fun a h => h⟩
  | waiting => exact ⟨rfl, rfl, fun x hx => hx, fun i hi => List.mem_append_left _ hi, fun a h => hremoved a _ h⟩
  | unfilled => exact ⟨rfl, rfl, fun _ hx => hx, fun _ hi => hi, fun a h => hremoved a _ h⟩
  | active => exact ⟨rfl, rfl, fun _ hx => hx, fun _ hi => hi, fun a h => h⟩

theorem startEntries_leave (xs : List CueEntry) (s : State) : (xs.foldl startEntry s).clips = s.clips ∧
    (xs.foldl startEntry s).splice.lastStarted = s.splice.lastStarted ∧ (∀ x ∈ s.ev.splice, x ∈ (xs.foldl startEntry s).ev.splice) ∧
    (∀ i ∈ s.ev.items, i ∈ (xs.foldl startEntry s).ev.items) ∧ ∀ a, cueOf s a = none → cueOf (xs.foldl startEntry s) a = none := by
  induction xs generalizing s with
  | nil => exact ⟨rfl, rfl, fun _ hx => hx, fun _ hi => hi, fun a h => h⟩
  | cons e xs ih =>
    obtain ⟨h1, h2, h3, h4, h5⟩ := startEntry_leaves s e
    obtain ⟨k1, k2, k3, k4, k5⟩ := ih (startEntry s e)
    exact ⟨k1.trans h1, k2.trans h2, fun x hx => k3 x (h3 x hx), fun i hi => k4 i (h4 i hi), fun a ha => k5 a (h5 a ha)⟩

theorem cueOf_removeCue (a : Nat) (s : State) : cueOf (removeCue a s) a = none :=
  List.find?_eq_none.mpr fun x hx h => of_decide_eq_true (List.mem_filter.mp hx).2 (of_decide_eq_true h)

/-- Each entry's own start: a WAITING one is missed, an UNFILLED one goes, and an ARMED one queues its notice. -/
theorem startEntries_each {xs : List CueEntry} {e : CueEntry} (he : e ∈ xs) (s : State) :
    (e.mode = .waiting → cueOf (xs.foldl startEntry s) e.avail = none ∧ 19 ∈ (xs.foldl startEntry s).ev.items) ∧
    (e.mode = .unfilled → cueOf (xs.foldl startEntry s) e.avail = none) ∧
    (∀ n c, e.mode = .armed → e.channel = some n → s.splice.channels.get n = some c →
      ⟨n, c.avail, c.service, 2, 0, c.read, s.splice.lastStarted.getD 0⟩ ∈ (xs.foldl startEntry s).ev.splice) := by
  induction xs generalizing s with
  | nil => cases he
  | cons x xs ih =>
    obtain ⟨-, hstarted, -, -, -⟩ := startEntry_leaves s x
    rcases List.mem_cons.mp he with rfl | he
    · obtain ⟨-, -, k3, k4, k5⟩ := startEntries_leave xs (startEntry s e)
      refine ⟨fun hm => ⟨k5 _ ?_, k4 _ ?_⟩, fun hm => k5 _ ?_, fun n c hm hc hch => k3 _ ?_⟩
      · unfold startEntry
        rw [hm]
        exact cueOf_removeCue e.avail s
      · unfold startEntry
        rw [hm]
        exact List.mem_append_right _ (List.mem_singleton_self _)
      · unfold startEntry
        rw [hm]
        exact cueOf_removeCue e.avail s
      · unfold startEntry activate
        rw [hm, hc]
        simp only [hch]
        exact List.mem_append_right _ (List.mem_singleton_self _)
    · obtain ⟨h1, h2, h3⟩ := ih he (startEntry s x)
      refine ⟨h1, h2, fun n c hm hc hch => ?_⟩
      rw [hstarted] at h3
      have hnow := startEntry_channel s x n
      rw [hch] at hnow
      split at hnow
      · exact h3 n { c with active := true } hm hc hnow
      · exact h3 n c hm hc hnow

/-! ## The frame start and end of one channel (R120, R123, R124) -/

/-- What a frame's start leaves where no channel is ACTIVE. -/
theorem spliceFrameStart_unreturned {s : State} (seq : Seq)
    (h : ∀ u : State, u.splice.channels = s.splice.channels → ∀ n, returnsAt seq u n = u) :
    let v := ((orderedCues (s.setSplice { s.splice with lastStarted := some seq })).filter (fun e => e.start = seq)).foldl startEntry
      (s.setSplice { s.splice with lastStarted := some seq })
    spliceFrameStart seq s = v.setSplice { v.splice with channels := v.splice.channels.map (fun c => c.map makeDue) } := by
  intro v
  have hfirst : Four.all.foldl (returnsAt seq) (s.setSplice { s.splice with lastStarted := some seq }) =
      s.setSplice { s.splice with lastStarted := some seq } := by
    have hone := h (s.setSplice { s.splice with lastStarted := some seq }) rfl
    simp only [Four.all, List.foldl_cons, List.foldl_nil, hone]
  unfold spliceFrameStart
  dsimp only
  rw [hfirst]

theorem returnsAt_idle {seq : Seq} {u : State} {n : Four} (h : u.splice.channels.get n = none) : returnsAt seq u n = u := by
  unfold returnsAt
  rw [h]

theorem returnsAt_inactive {seq : Seq} {u : State} {n : Four} {c : Channel} (h : u.splice.channels.get n = some c) (ha : c.active = false) :
    returnsAt seq u n = u := by
  unfold returnsAt
  rw [h]
  exact if_neg (by simp [ha])

theorem returnsAt_active {seq : Seq} {u : State} {n : Four} {c : Channel} (h : u.splice.channels.get n = some c) (ha : c.active = true) :
    returnsAt seq u n = if c.ending = seq then returnChannel n c .ended u
      else match c.pending with
        | .early => returnChannel n c .early u
        | .aborted => returnChannel n c .aborted u
        | .none => u := by
  unfold returnsAt
  rw [h]
  refine (if_pos ha).trans ?_
  split
  · rfl
  · cases c.pending <;> rfl

theorem backlogAt_idle {u : State} {n : Four} (h : u.splice.channels.get n = none) : backlogAt u n = u := by
  unfold backlogAt
  rw [h]

theorem backlogAt_active {u : State} {n : Four} {c : Channel} (h : u.splice.channels.get n = some c) (ha : c.active = true) :
    backlogAt u n = if 64 < c.due then returnChannel n c .starved u
      else if c.exhausted ∧ c.due = 0 ∧ c.early ∧ c.pending = .none then setChannel n (some { c with pending := .early }) u
      else u := by
  unfold backlogAt
  rw [h]
  exact if_pos ha

/-- The one channel that is not IDLE returned, with its avail's entry the only one. -/
theorem endSplice_lone {s : State} {n : Four} {c : Channel} (hidle : ∀ m, m ≠ n → s.splice.channels.get m = none)
    (hcues : ∀ e ∈ s.splice.cues, e.avail = c.avail) (reason : ReturnReason) :
    (endSplice n c reason s).splice.channels = ⟨none, none, none, none⟩ ∧ (endSplice n c reason s).splice.cues = [] := by
  rw [endSplice_eq]
  refine ⟨PerFour.ext_get fun m => ?_, List.filter_eq_nil_iff.mpr fun e he => by simp [hcues e he]⟩
  show (s.splice.channels.set n none).get m = _
  rw [PerFour.get_set, show (⟨none, none, none, none⟩ : PerFour (Option Channel)).get m = none by cases m <;> rfl]
  split
  · rfl
  · exact hidle m ‹_›

/-- A frame's start that returns the one channel that is not IDLE. -/
theorem spliceFrameStart_returned {s : State} {n : Four} {c : Channel} {seq : Seq} {reason : ReturnReason}
    (hidle : ∀ m, m ≠ n → s.splice.channels.get m = none) (hcues : ∀ e ∈ s.splice.cues, e.avail = c.avail)
    (h : returnsAt seq (s.setSplice { s.splice with lastStarted := some seq }) n =
      returnChannel n c reason (s.setSplice { s.splice with lastStarted := some seq })) :
    spliceFrameStart seq s = endSplice n c reason (s.setSplice { s.splice with lastStarted := some seq }) := by
  replace h := h.trans (returnChannel_last (s := s.setSplice { s.splice with lastStarted := some seq }) hcues reason)
  obtain ⟨hchannels, hnone⟩ := endSplice_lone (s := s.setSplice { s.splice with lastStarted := some seq }) hidle hcues reason
  have hfold := foldl_lone (f := returnsAt seq) (fun u m hm => returnsAt_idle hm) (s := s.setSplice { s.splice with lastStarted := some seq })
    hidle (fun m _ => by rw [h, hchannels]; cases m <;> rfl)
  rw [h] at hfold
  unfold spliceFrameStart
  dsimp only
  rw [hfold]
  generalize endSplice n c reason (s.setSplice { s.splice with lastStarted := some seq }) = u at hchannels hnone
  have hordered : orderedCues u = [] := by simp [orderedCues, hnone]
  rw [hordered]
  simp only [List.filter_nil, List.foldl_nil]
  have hmap : u.splice.channels.map (fun c => c.map makeDue) = u.splice.channels := by rw [hchannels]; rfl
  rw [hmap]
  rfl

/-- What the statement says of a return, off the state before it. -/
theorem endSplice_returned {s : State} {n : Four} {c : Channel} (hidle : ∀ m, m ≠ n → s.splice.channels.get m = none)
    (hcues : ∀ e ∈ s.splice.cues, e.avail = c.avail) (reason : ReturnReason) :
    let u := endSplice n c reason s
    u.splice.channels = ⟨none, none, none, none⟩ ∧ u.splice.cues = [] ∧
    u.clips = { s.clips with clips := s.clips.clips.set c.clip { clipRec s c.clip with uses := (clipRec s c.clip).uses - 1 } } ∧
    u.ev.splice = s.ev.splice ++ [⟨n, c.avail, c.service, 3, reasonCode reason, c.read, s.splice.lastStarted.getD 0⟩] ∧
    ∀ x, offsetRec u x = (offsetRec s x).map (fun r =>
      if (serviceOf s c.service).any (fun v => v.streams.contains x) then { r with resync := true } else r) := by
  intro u
  obtain ⟨hchannels, hnone⟩ := endSplice_lone hidle hcues reason
  refine ⟨hchannels, hnone, ?_, ?_, fun x => ?_⟩
  · simp only [u, endSplice_eq]
    rfl
  · simp only [u, endSplice_eq]
    rfl
  · rw [← offsetRec_resynced]
    simp only [u, endSplice_eq]
    rfl

/-- The notices of one occasion. -/
theorem spliceBodies_one (note : SpliceNote) :
    Four.all.flatMap (fun n => ([note].filter (fun x => x.channel = n)).map spliceBody) = [spliceBody note] := by
  cases hc : note.channel <;> simp [Four.all, hc]

/-- The SPLICE notices of an answered request. -/
theorem noticed_splice {code tag : Byte} {bytes : List Byte} {op : State → Answer} {s t : State} {a : Answer} (hs : Ready s)
    (hop : op (s.setEv {}) = a) (hlive : a.state.live = s.live) (hlink : a.state.link = s.link) (ha : a.state.alarms = s.alarms)
    (h : request code tag bytes op s = .next t) :
    Noticed 4 (Four.all.flatMap (fun n => (a.state.ev.splice.filter (fun note => note.channel = n)).map spliceBody)) s t := by
  have hn := noticed_request (kind := 4) (by decide) code tag bytes hs hop hlive (congrArg _ hlink) (congrArg _ ha) h
  rwa [bodiesOf_judgePermission (by decide), bodiesOf_splice, spliceNotices_eq] at hn

/-- Settles O55: the requests by the channel's state, and a frame's start and end by what each entry and the one channel make of it. -/
theorem abortSpliceOfEachChannel : Obligations.AbortSpliceOfEachChannel := by
  refine ⟨fun s tag hs => ⟨fun n => ?_, fun n hn => ?_⟩, fun s seq hidle => ?_, fun s n c hc hactive hothers hcues => ?_,
    fun s n e v p hn he hv hel hp hready hper => ?_, ?_⟩
  · intro aborts
    have hop : reqAbortSplice (BitVec.ofNat 8 n.num) (s.setEv {}) = match s.splice.channels.get n with
        | none => turnDown (s.setEv {}) .refusedState
        | some c => if c.active then ok (setChannel n (some { c with pending := .aborted }) (s.setEv {}))
          else ok (arbitrate n (disarm n c (s.setEv {}))) := by
      unfold reqAbortSplice
      rw [Four.toNat_ofNat_num, Four.ofNum_num]
      rfl
    refine ⟨fun hnone => request_turnedDown 0x43 tag _ hs (hop.trans (by rw [hnone])), fun c hc ha => ?_, fun c hc ha hlone => ?_⟩
    · rw [hc] at hop
      obtain ⟨t, hstep, hreply, hafter⟩ := afterRequest_intro (is := []) 0x43 tag [BitVec.ofNat 8 n.num] hs ((hop.trans (if_pos ha)).trans
        (show _ = (⟨({ s with splice := { s.splice with
            channels := s.splice.channels.set n (some { c with pending := .aborted }) } } : State).setEv {}, .ok, []⟩ : Answer) from rfl))
        rfl (.inr rfl)
      exact ⟨t, (exec_abortSplice ..).trans hstep, hreply, hafter⟩
    · intro clip
      rw [hc] at hop
      have hidle : arbitrate n (disarm n c (s.setEv {})) = released n c 4 0 (s.setEv {}) := by
        rw [disarm_eq]
        refine arbitrate_idle (fun e he hw => ?_) n
        obtain ⟨hmem, hne⟩ := List.mem_filter.mp he
        exact of_decide_eq_true hne (hlone e hmem hw)
      have hok := (hop.trans (if_neg (by rw [ha]; decide))).trans (congrArg (fun w => ok w []) hidle)
      obtain ⟨t, hstep, hreply, hafter⟩ := afterRequest_intro (is := []) 0x43 tag [BitVec.ofNat 8 n.num] hs (hok.trans
        (show _ = (⟨({ s with
            clips := { s.clips with clips := s.clips.clips.set c.clip { clip with uses := clip.uses - 1 } }
            splice := { s.splice with
              channels := s.splice.channels.set n none
              cues := s.splice.cues.filter (fun e => e.avail ≠ c.avail) } } : State).setEv
            { splice := [⟨n, c.avail, c.service, 4, 0, c.read, s.splice.lastStarted.getD 0⟩] }, .ok, []⟩ : Answer) from rfl)) rfl (.inr rfl)
      have hnoticed := noticed_splice hs hok rfl rfl rfl hstep
      exact ⟨t, (exec_abortSplice ..).trans hstep, hreply, hafter, hnoticed.of_eq (spliceBodies_one _)⟩
  · refine request_turnedDown 0x43 tag _ hs ?_
    unfold reqAbortSplice
    rw [Four.ofNum_eq_none hn]
  · intro u
    have hu : u = _ := spliceFrameStart_unreturned seq (s := s) fun w hw n => by
      cases hc : w.splice.channels.get n with
      | none => exact returnsAt_idle hc
      | some c => exact returnsAt_inactive hc (hidle n c (by rw [← hw]; exact hc))
    have hmem : ∀ e, e ∈ s.splice.cues → e.start = seq →
        e ∈ (orderedCues (s.setSplice { s.splice with lastStarted := some seq })).filter (fun e => e.start = seq) := fun e he hq =>
      List.mem_filter.mpr ⟨mem_orderedCues.mpr he, decide_eq_true hq⟩
    generalize (orderedCues (s.setSplice { s.splice with lastStarted := some seq })).filter (fun e => e.start = seq) = xs at hu hmem
    obtain ⟨hclips, hstarted, -⟩ := startEntries_leave xs (s.setSplice { s.splice with lastStarted := some seq })
    have hchannel := startEntries_channel xs (s.setSplice { s.splice with lastStarted := some seq })
    have heach := fun e (he : e ∈ xs) => startEntries_each he (s.setSplice { s.splice with lastStarted := some seq })
    generalize xs.foldl startEntry (s.setSplice { s.splice with lastStarted := some seq }) = v at hu hclips hstarted hchannel heach
    rw [hu]
    refine ⟨hstarted, hclips, fun e n c he hq hm hn hc => ?_, fun e he hq hm => (heach e (hmem e he hq)).1 hm,
      fun e he hq hm => (heach e (hmem e he hq)).2.1 hm⟩
    intro due
    have hany : xs.any (armedOn n) = true := List.any_eq_true.mpr ⟨e, hmem e he hq, by simp [armedOn, hm, hn]⟩
    refine ⟨?_, (heach e (hmem e he hq)).2.2 n c hm hn hc⟩
    have hn' := hchannel n
    rw [if_pos hany, show (s.setSplice { s.splice with lastStarted := some seq }).splice.channels.get n = some c from hc] at hn'
    show (v.splice.channels.map (fun c => c.map makeDue)).get n = _
    rw [PerFour.get_map, hn']
    rfl
  · intro clip returned
    have hreturned : ∀ (reason : ReturnReason) (w : State), w.splice.channels = s.splice.channels → w.splice.cues = s.splice.cues →
        w.splice.services = s.splice.services → w.splice.offsets = s.splice.offsets → w.clips = s.clips → w.ev = s.ev →
        returned (reasonCode reason) (w.splice.lastStarted.getD 0) (endSplice n c reason w) := by
      intro reason w h1 h2 h3 h4 h5 h6
      obtain ⟨k1, k2, k3, k4, k5⟩ := endSplice_returned (s := w) (n := n) (c := c) (by rw [h1]; exact hothers) (by rw [h2]; exact hcues) reason
      refine ⟨k1, k2, by rw [k3, h5, clipRec, h5]; rfl, by rw [k4, h6], fun x => (k5 x).trans ?_⟩
      rw [offsetRec, h4, serviceOf, h3]
      rfl
    refine ⟨fun seq => ?_, fun hdue => ?_, fun hdue => ?_⟩
    · intro u due
      have hturn := returnsAt_active (seq := seq) (u := s.setSplice { s.splice with lastStarted := some seq }) hc hactive
      have hback : ∀ reason, returnsAt seq (s.setSplice { s.splice with lastStarted := some seq }) n =
          returnChannel n c reason (s.setSplice { s.splice with lastStarted := some seq }) → returned (reasonCode reason) seq u := by
        intro reason h
        have hu : u = _ := spliceFrameStart_returned hothers hcues h
        rw [hu]
        exact hreturned reason (s.setSplice { s.splice with lastStarted := some seq }) rfl rfl rfl rfl rfl rfl
      refine ⟨fun he => hback .ended (hturn.trans (if_pos he)), fun he hp => hback .early ((hturn.trans (if_neg he)).trans (by rw [hp])),
        fun he hp => hback .aborted ((hturn.trans (if_neg he)).trans (by rw [hp])), fun he hp => ?_⟩
      have hu : u = _ := spliceFrameStart_unreturned seq (s := s) fun w hw m => by
        by_cases hm : m = n
        · subst hm
          rw [returnsAt_active (c := c) (by rw [hw]; exact hc) hactive, if_neg he, hp]
        · exact returnsAt_idle (by rw [hw]; exact hothers m hm)
      generalize (orderedCues (s.setSplice { s.splice with lastStarted := some seq })).filter (fun e => e.start = seq) = xs at hu
      obtain ⟨hclips, -, -⟩ := startEntries_leave xs (s.setSplice { s.splice with lastStarted := some seq })
      have hchannel := startEntries_channel xs (s.setSplice { s.splice with lastStarted := some seq })
      generalize xs.foldl startEntry (s.setSplice { s.splice with lastStarted := some seq }) = v at hu hclips hchannel
      have hsame : ({ c with active := true } : Channel) = c := by rw [← hactive]
      refine ⟨by rw [hu]; exact hclips, PerFour.ext_get fun m => ?_⟩
      rw [hu]
      show (v.splice.channels.map (fun c => c.map makeDue)).get m = _
      rw [PerFour.get_map, hchannel m, PerFour.get_set]
      by_cases hm : m = n
      · subst hm
        rw [if_pos rfl, show (s.setSplice { s.splice with lastStarted := some seq }).splice.channels.get m = some c from hc]
        have hmade : makeDue c = { c with due := due, exhausted := c.exhausted || decide (c.read + due = c.length) } := if_pos hactive
        rw [← hmade]
        split
        · rw [Option.map_some, hsame]
          rfl
        · rfl
      · rw [if_neg hm, show (s.setSplice { s.splice with lastStarted := some seq }).splice.channels.get m = none from hothers m hm]
        split <;> exact (hothers m hm).symm
    · have hfold : spliceFrameEnd s = endSplice n c .starved s := by
        have hback : backlogAt s n = endSplice n c .starved s :=
          ((backlogAt_active hc hactive).trans (if_pos hdue)).trans (returnChannel_last hcues .starved)
        rw [← hback]
        refine foldl_lone (fun u m hm => backlogAt_idle hm) hothers fun m _ => ?_
        rw [hback, (endSplice_lone hothers hcues .starved).1]
        cases m <;> rfl
      rw [hfold]
      refine ⟨hreturned .starved s rfl rfl rfl rfl rfl rfl, ?_⟩
      rw [endSplice_eq]
      exact List.mem_append_right _ (List.mem_singleton_self _)
    · have hback := (backlogAt_active hc hactive).trans (if_neg (not_lt.mpr hdue))
      have hfold : spliceFrameEnd s = backlogAt s n := by
        refine foldl_lone (fun u m hm => backlogAt_idle hm) hothers fun m hm => ?_
        rw [hback]
        split
        · exact (PerFour.get_set_ne _ hm _).trans (hothers m hm)
        · exact hothers m hm
      rw [hfold, hback]
      rfl
  · intro clip
    have hu : clipUsable s p.clip = true := by
      unfold clipUsable
      rw [hready]
      simpa using hper
    rw [arbitrate_binds hn he hv hel hp hu]
    rfl
  · intro s a h hp ha hm h0 hn hdue seq hslot hdir p sent
    have hcontent : frameContent (s.setEv {}) (frameSeq a s.em.runFrame) = some h := frameContent_of_taken hslot
    have hpacket : timingPacket (s.setEv {}) a s.em.runFrame = p := by
      unfold timingPacket
      dsimp only
      rw [hcontent]
      rfl
    have hsent : (s.setEv {}).setEm (startedEm a s.em.runFrame (s.setEv {})) = sent := by
      unfold startedEm
      rw [hpacket, hcontent, show sat32 ((s.setEv {}).em.counts.real + 1) = min 4294967295 (s.em.counts.real + 1) from sat_eq_min _ _]
      rfl
    have hf : departureEffect (s.setEv {}) = gapAccounting true (spliceFrameStart seq sent) := by
      rw [departureEffect_start (s := s.setEv {}) ha hm h0 hn hdue]
      refine (startFrame_real (s := s.setEv {}) hcontent).trans ?_
      rw [hdir, List.foldl_nil]
      unfold spliceStarted
      rw [hsent]
      rfl
    have hleaves := (cueLocal_spliceFrameStart seq).leaves (spliceFrameStart_live _) sent
    obtain ⟨resume, feed, notes, hgap⟩ := gapAccounting_real (spliceFrameStart seq sent)
    rw [hgap] at hf
    generalize hv : spliceFrameStart seq sent = v at hf hleaves
    obtain ⟨t, hstep, hleft⟩ := event_left hp hf
    have hnoticed := noticed_event (kind := 4) (by decide) hp hf (by rw [hleaves]; rfl) (by rw [hleaves]; rfl) (by rw [hleaves]; rfl) hstep
    rw [bodiesOf_judgePermission (by decide), bodiesOf_splice, spliceNotices_eq] at hnoticed
    refine ⟨t, (exec_packetDeparture s).trans hstep, hleft.splice, hleft.clips, ?_, ?_, ?_, hnoticed⟩
    · rw [hleft.em, hleaves]
      rfl
    · rw [hleft.clock, hleaves]
      rfl
    · rw [hleft.mem, hleaves]
      rfl

end Sys2Proof.Machine
end

section
/-! PROOF of the outcomes of cues (O54). -/

namespace Sys2Proof.Machine
open Sys2Proof

theorem exec_cue (tag : Byte) (d : CueData) (s : State) : exec (.cue tag d) s = request 0x40 tag (cueBytes d) (reqCue d) s := rfl

/-! ## Judging an OUT cue, step by step (R113) -/

/-- The part with another cue table, acceptance counter and counts, and with items reported. -/
def cueResult (s : State) (cues : List CueEntry) (accepted : BitVec 32) (n : CueCounts) (items : List Nat) : State :=
  { s with splice := { s.splice with cues := cues, accepted := accepted, counts := n }
           ev := { s.ev with items := s.ev.items ++ items } }

section
variable (s : State)

theorem count_eq (n : Nat) : sat 65535 (n + 1) = min 65535 (n + 1) := sat_eq_min _ _

theorem dropped_eq : occur 18 (countDropped s) =
    cueResult s s.splice.cues s.splice.accepted { s.splice.counts with dropped := min 65535 (s.splice.counts.dropped + 1) } [18] := by
  unfold countDropped
  simp only [count_eq]
  rfl

theorem missed_eq : occur 19 (countMissed s) =
    cueResult s s.splice.cues s.splice.accepted { s.splice.counts with missed := min 65535 (s.splice.counts.missed + 1) } [19] := by
  unfold countMissed
  simp only [count_eq]
  rfl

theorem cueResult_quiet (cues : List CueEntry) (accepted : BitVec 32) (n : CueCounts) :
    cueResult s cues accepted n [] = s.setSplice { s.splice with cues := cues, accepted := accepted, counts := n } := by
  unfold cueResult
  rw [List.append_nil]
  rfl

theorem enterCue_made (c : OutCue) (mode : CueMode) : enterCue c false mode s =
    cueResult s (s.splice.cues ++ [newEntry c mode s]) (s.splice.accepted + 1)
      { s.splice.counts with new := min 65535 (s.splice.counts.new + 1) } [] := by
  rw [cueResult_quiet]
  unfold enterCue
  simp only [count_eq]
  rfl

theorem enterCue_rejudged (c : OutCue) (mode : CueMode) : enterCue c true mode s = cueResult s
    (s.splice.cues.map (fun x => if x.avail = c.avail then { x with mode := mode, channel := none } else x)) s.splice.accepted
    s.splice.counts [] := by
  rw [cueResult_quiet]
  rfl

theorem enterUnfilled_eq (c : OutCue) (again : Bool) : enterUnfilled c again s =
    let u := enterCue c again .unfilled s
    cueResult u u.splice.cues u.splice.accepted { u.splice.counts with unfilled := min 65535 (u.splice.counts.unfilled + 1) } [18] := by
  unfold enterUnfilled countUnfilled
  simp only [count_eq]
  rfl

theorem bindChannel_eq (n : Four) (e : CueEntry) (p : Plan) : bindChannel n e p s = { s with
    clips := { s.clips with clips := s.clips.clips.set p.clip { clipRec s p.clip with uses := (clipRec s p.clip).uses + 1 } }
    splice := { s.splice with
      cues := s.splice.cues.map (fun x => if x.avail = e.avail then { x with mode := .armed, channel := some n } else x)
      channels := s.splice.channels.set n (some
        { active := false, avail := e.avail, service := e.service, start := e.start, ending := e.ending, clip := p.clip,
          perFrame := (clipRec s p.clip).perFrame, length := (clipRec s p.clip).length, map := p.map, harvest := p.harvest,
          early := p.early }) }
    ev := { s.ev with splice := s.ev.splice ++ [⟨n, e.avail, e.service, 1, 0, 0, s.splice.lastStarted.getD 0⟩] } } := rfl

end

section
variable {s : State} {c : OutCue} {again : Bool}

theorem eligible_iff {n : Nat} : (serviceOf s n).any Service.eligible = true ↔ ∃ v, serviceOf s n = some v ∧ v.eligible = true := by
  cases serviceOf s n <;> simp

theorem placeCue_unknown (hk : ¬ (serviceOf s c.service).any Service.eligible = true) :
    placeCue c again s = (occur 18 (countDropped (if again then removeCue c.avail s else s)), .dropped) :=
  if_pos (by simp [hk])

theorem placeCue_full (hk : (serviceOf s c.service).any Service.eligible = true) (hl : 16 ≤ s.splice.cues.length) :
    placeCue c false s = (occur 19 (countMissed s), .missed) :=
  (if_neg (by simp [hk])).trans (if_pos (by simp [hl]))

/-- Past the checks of the service and of the table's room. -/
theorem placeCue_roomy (hk : (serviceOf s c.service).any Service.eligible = true) (hl : again = true ∨ s.splice.cues.length < 16) :
    placeCue c again s = match planFor s c.avail c.service with
      | none => (enterUnfilled c again s, .unfilled)
      | some p => match (if serviceBound s c.service then none else idleChannel s) with
        | none => (enterCue c again .waiting s, .waiting)
        | some n =>
          if clipUsable s p.clip then match cueOf (enterCue c again .armed s) c.avail with
            | some e => (bindChannel n e p (enterCue c again .armed s), .armed)
            | none => (enterCue c again .armed s, .armed)
          else (enterUnfilled c again s, .unfilled) := by
  have hfull : ¬ (!again && decide (16 ≤ s.splice.cues.length)) = true := by
    rcases hl with h | h
    · simp [h]
    · simp [not_le.mpr h]
  refine (if_neg (by simp [hk])).trans ((if_neg hfull).trans ?_)
  rfl

theorem placeCue_unplanned (hk : (serviceOf s c.service).any Service.eligible = true) (hl : again = true ∨ s.splice.cues.length < 16)
    (hp : planFor s c.avail c.service = none) : placeCue c again s = (enterUnfilled c again s, .unfilled) := by
  rw [placeCue_roomy hk hl, hp]

theorem free_iff : (if serviceBound s c.service then none else idleChannel s) = none ↔
    ¬ (serviceBound s c.service = false ∧ (idleChannel s).isSome = true) := by
  cases serviceBound s c.service <;> cases idleChannel s <;> simp

theorem placeCue_waiting {p : Plan} (hk : (serviceOf s c.service).any Service.eligible = true)
    (hl : again = true ∨ s.splice.cues.length < 16) (hp : planFor s c.avail c.service = some p)
    (hf : ¬ (serviceBound s c.service = false ∧ (idleChannel s).isSome = true)) :
    placeCue c again s = (enterCue c again .waiting s, .waiting) := by
  rw [placeCue_roomy hk hl, hp, free_iff.mpr hf]

theorem usable_iff {n : Nat} : clipUsable s n = true ↔ (clipRec s n).mode = .ready ∧ (clipRec s n).perFrame < s.live.em.packets := by
  simp [clipUsable]

theorem placeCue_unusable {p : Plan} (hk : (serviceOf s c.service).any Service.eligible = true)
    (hl : again = true ∨ s.splice.cues.length < 16) (hp : planFor s c.avail c.service = some p)
    (hf : serviceBound s c.service = false ∧ (idleChannel s).isSome = true) (hu : ¬ clipUsable s p.clip = true) :
    placeCue c again s = (enterUnfilled c again s, .unfilled) := by
  obtain ⟨n, hn⟩ := Option.isSome_iff_exists.mp hf.2
  rw [placeCue_roomy hk hl, hp, hf.1, hn]
  simp only [Bool.false_eq_true, if_false, if_neg hu]

theorem placeCue_armed {p : Plan} {n : Four} {e : CueEntry} (hk : (serviceOf s c.service).any Service.eligible = true)
    (hl : again = true ∨ s.splice.cues.length < 16) (hp : planFor s c.avail c.service = some p) (hb : serviceBound s c.service = false)
    (hn : idleChannel s = some n) (hu : clipUsable s p.clip = true) (he : cueOf (enterCue c again .armed s) c.avail = some e) :
    placeCue c again s = (bindChannel n e p (enterCue c again .armed s), .armed) := by
  rw [placeCue_roomy hk hl, hp, hb, hn]
  simp only [Bool.false_eq_true, if_false, if_pos hu, he]

/-- The entry just made is the one of its avail. -/
theorem cueOf_enterCue_new (h : cueOf s c.avail = none) (mode : CueMode) :
    cueOf (enterCue c false mode s) c.avail = some (newEntry c mode s) := by
  rw [enterCue_made]
  show (s.splice.cues ++ [_]).find? _ = _
  rw [List.find?_append, show s.splice.cues.find? _ = none from h]
  simp [newEntry]

/-- Editing an avail that has no entry leaves the table. -/
theorem map_noEntry {a : Nat} (h : cueOf s a = none) (f : CueEntry → CueEntry) :
    s.splice.cues.map (fun x => if x.avail = a then f x else x) = s.splice.cues := by
  refine (List.map_congr_left fun x hx => if_neg ?_).trans (List.map_id' _)
  simpa using List.find?_eq_none.mp h x hx

theorem cueOf_editCue {a : Nat} {e : CueEntry} {f : CueEntry → CueEntry} (hf : ∀ x, (f x).avail = x.avail) (h : cueOf s a = some e) :
    (s.splice.cues.map (fun x => if x.avail = a then f x else x)).find? (fun x => x.avail = a) = some (f e) := by
  have hsame : ((fun x : CueEntry => decide (x.avail = a)) ∘ fun x => if x.avail = a then f x else x) = fun x => decide (x.avail = a) := by
    funext x
    simp only [Function.comp_apply]
    split
    · rw [hf]
    · rfl
  rw [List.find?_map, hsame, show s.splice.cues.find? (fun x => decide (x.avail = a)) = some e from h]
  have he : e.avail = a := by simpa using List.find?_some h
  simp [he]

/-! ## An OUT cue (R113, R114) -/

theorem judgeOut_new (h : cueOf s c.avail = none) : judgeOut c s = judgeNewCue c s := by
  unfold judgeOut
  rw [h]

theorem judgeNewCue_late (h : ¬ (s.live.armingLead : Int) ≤ Seq.distance c.carrying c.start) :
    judgeNewCue c s = (occur 19 (countMissed s), .missed) := if_pos (not_le.mp h)

theorem judgeNewCue_inTime (h : (s.live.armingLead : Int) ≤ Seq.distance c.carrying c.start) : judgeNewCue c s = placeCue c false s :=
  if_neg (not_lt.mpr h)

theorem sameContent_iff {e : CueEntry} : sameContent c e = true ↔ e.service = c.service ∧ e.start = c.start ∧ e.duration = c.duration := by
  simp [sameContent, and_assoc]

theorem judgeOut_same {e : CueEntry} (he : cueOf s c.avail = some e) (h : sameContent c e = true) : judgeOut c s =
    if e.mode = .unfilled ∧ (s.live.armingLead : Int) ≤ Seq.distance c.carrying c.start then placeCue c true (countRepeat s)
    else (countRepeat s, .repeated) := by
  unfold judgeOut
  rw [he]
  exact if_pos h

theorem judgeOut_late {e : CueEntry} (he : cueOf s c.avail = some e) (h : ¬ sameContent c e = true) (ha : e.mode = .active) :
    judgeOut c s = (countCue (fun k => { k with lateRevision := sat 65535 (k.lateRevision + 1) }) s, .lateRevision) := by
  unfold judgeOut
  rw [he]
  exact (if_neg h).trans (if_pos ha)

theorem judgeOut_revised {e : CueEntry} (he : cueOf s c.avail = some e) (h : ¬ sameContent c e = true) (ha : e.mode ≠ .active) :
    judgeOut c s = reviseCue c e s := by
  unfold judgeOut
  rw [he]
  exact (if_neg h).trans (if_neg ha)

theorem countRepeat_eq (s : State) : countRepeat s = s.setSplice { s.splice with
    counts := { s.splice.counts with repeats := min 65535 (s.splice.counts.repeats + 1) } } := by
  unfold countRepeat
  simp only [count_eq]
  rfl

theorem cueResult_cueResult (s : State) (cues cues' : List CueEntry) (a a' : BitVec 32) (n n' : CueCounts) (is is' : List Nat) :
    cueResult (cueResult s cues a n is) cues' a' n' is' = cueResult s cues' a' n' (is ++ is') := by
  unfold cueResult
  simp only [List.append_assoc]

theorem judgeOut_inTime (hno : cueOf s c.avail = none) (ht : (s.live.armingLead : Int) ≤ Seq.distance c.carrying c.start) :
    judgeOut c s = placeCue c false s := (judgeOut_new hno).trans (judgeNewCue_inTime ht)

/-- A new cue that makes its entry UNFILLED. -/
theorem enterUnfilled_made : enterUnfilled c false s = cueResult s (s.splice.cues ++ [newEntry c .unfilled s]) (s.splice.accepted + 1)
    { s.splice.counts with
      new := min 65535 (s.splice.counts.new + 1)
      unfilled := min 65535 (s.splice.counts.unfilled + 1) } [18] := by
  rw [enterUnfilled_eq, enterCue_made]
  exact cueResult_cueResult ..

theorem enterUnfilled_rejudged : enterUnfilled c true s = cueResult s
    (s.splice.cues.map (fun x => if x.avail = c.avail then { x with mode := .unfilled, channel := none } else x)) s.splice.accepted
    { s.splice.counts with unfilled := min 65535 (s.splice.counts.unfilled + 1) } [18] := by
  rw [enterUnfilled_eq, enterCue_rejudged]
  exact cueResult_cueResult ..

/-- The part with a channel bound for an avail under a plan (R115), with the cue table, the acceptance counter and the counts given. -/
def boundState (s : State) (cues : List CueEntry) (accepted : BitVec 32) (counts : CueCounts) (n : Four) (e : CueEntry) (p : Plan) : State :=
  { s with
    clips := { s.clips with clips := s.clips.clips.set p.clip { clipRec s p.clip with uses := (clipRec s p.clip).uses + 1 } }
    splice := { s.splice with
      accepted := accepted
      counts := counts
      cues := cues
      channels := s.splice.channels.set n (some
        { active := false, avail := e.avail, service := e.service, start := e.start, ending := e.ending, clip := p.clip,
          perFrame := (clipRec s p.clip).perFrame, length := (clipRec s p.clip).length, map := p.map, harvest := p.harvest,
          early := p.early }) }
    ev := { s.ev with splice := s.ev.splice ++ [⟨n, e.avail, e.service, 1, 0, 0, s.splice.lastStarted.getD 0⟩] } }

theorem bindChannel_cueResult (n : Four) (e : CueEntry) (p : Plan) (cues : List CueEntry) (a : BitVec 32) (k : CueCounts) :
    bindChannel n e p (cueResult s cues a k []) =
      boundState s (cues.map (fun x => if x.avail = e.avail then { x with mode := .armed, channel := some n } else x)) a k n e p := by
  rw [bindChannel_eq, cueResult_quiet]
  rfl

/-- A new cue that nothing turns away (R113, step 8). -/
theorem bindChannel_made (hno : cueOf s c.avail = none) (n : Four) (p : Plan) :
    bindChannel n (newEntry c .armed s) p (enterCue c false .armed s) =
      boundState s (s.splice.cues ++ [{ newEntry c .armed s with channel := some n }]) (s.splice.accepted + 1)
        { s.splice.counts with new := min 65535 (s.splice.counts.new + 1) } n (newEntry c .armed s) p := by
  rw [enterCue_made, bindChannel_cueResult, List.map_append, show (newEntry c .armed s).avail = c.avail from rfl, map_noEntry hno]
  simp [newEntry]

/-- An UNFILLED entry that is armed when it is judged again (R114). -/
theorem bindChannel_rejudged {e : CueEntry} (he : cueOf s c.avail = some e) (n : Four) (p : Plan) :
    bindChannel n { e with mode := .armed, channel := none } p (enterCue c true .armed s) =
      boundState s (s.splice.cues.map (fun x => if x.avail = c.avail then { x with mode := .armed, channel := some n } else x))
        s.splice.accepted s.splice.counts n e p := by
  rw [enterCue_rejudged, bindChannel_cueResult, List.map_map]
  have hmap : ((fun x : CueEntry => if x.avail = e.avail then { x with mode := .armed, channel := some n } else x) ∘
      fun x => if x.avail = c.avail then { x with mode := .armed, channel := none } else x) =
      fun x => if x.avail = c.avail then { x with mode := .armed, channel := some n } else x := by
    funext x
    rw [(cueOf_some he).2]
    by_cases hx : x.avail = c.avail <;> simp [hx]
  exact congrArg (fun l => boundState s l s.splice.accepted s.splice.counts n e p) (congrArg (fun f => s.splice.cues.map f) hmap)

theorem cueResult_released (s : State) (n : Four) (ch : Channel) (k : CueCounts) (is : List Nat) :
    cueResult (released n ch 4 0 s) (s.splice.cues.filter (fun x => x.avail ≠ ch.avail)) s.splice.accepted k is =
      { s with
        clips := { s.clips with
          clips := s.clips.clips.set ch.clip { clipRec s ch.clip with uses := (clipRec s ch.clip).uses - 1 } }
        splice := { s.splice with
          channels := s.splice.channels.set n none
          cues := s.splice.cues.filter (fun x => x.avail ≠ ch.avail)
          counts := k }
        ev := { s.ev with
          items := s.ev.items ++ is
          splice := s.ev.splice ++ [⟨n, ch.avail, ch.service, 4, 0, ch.read, s.splice.lastStarted.getD 0⟩] } } := rfl

/-- A revision of an entry that no channel is bound to, which is missed (R113, R114). -/
theorem reviseCue_unbound {e : CueEntry} (hch : e.channel = none) (hl : ¬ (s.live.armingLead : Int) ≤ Seq.distance c.carrying c.start) :
    reviseCue c e s = (cueResult s (s.splice.cues.filter (fun x => x.avail ≠ c.avail)) s.splice.accepted
      { s.splice.counts with
        revision := min 65535 (s.splice.counts.revision + 1)
        missed := min 65535 (s.splice.counts.missed + 1) } [19], .missed) := by
  unfold reviseCue
  rw [hch]
  refine (judgeNewCue_late (s := removeCue c.avail (countCue _ s)) hl).trans ?_
  rw [missed_eq]
  simp only [count_eq]
  rfl

/-- The part with one revision counted. -/
def revisionCounted (s : State) : State := countCue (fun k => { k with revision := sat 65535 (k.revision + 1) }) s

theorem reviseCue_bound {e : CueEntry} {n : Four} {ch : Channel} (hch : e.channel = some n) (hn : s.splice.channels.get n = some ch) :
    reviseCue c e s = (arbitrate n (judgeNewCue c (disarm n ch (revisionCounted s))).1,
      (judgeNewCue c (disarm n ch (revisionCounted s))).2) := by
  unfold reviseCue
  rw [hch]
  show (let r := judgeNewCue c (match s.splice.channels.get n with
    | some ch => disarm n ch (revisionCounted s)
    | none => removeCue c.avail (revisionCounted s))
    (arbitrate n r.1, r.2)) = _
  rw [hn]

/-- The cue of a revised ARMED entry, missed (R113, R114). -/
theorem judgeNewCue_disarmed {n : Four} {ch : Channel} (hl : ¬ (s.live.armingLead : Int) ≤ Seq.distance c.carrying c.start) :
    judgeNewCue c (disarm n ch (revisionCounted s)) =
      (cueResult (released n ch 4 0 s) (s.splice.cues.filter (fun x => x.avail ≠ ch.avail)) s.splice.accepted
        { s.splice.counts with
          revision := min 65535 (s.splice.counts.revision + 1)
          missed := min 65535 (s.splice.counts.missed + 1) } [19], .missed) := by
  refine (judgeNewCue_late (s := disarm n ch (revisionCounted s)) hl).trans ?_
  rw [missed_eq, revisionCounted]
  simp only [count_eq]
  rfl

/-- A revision of an ARMED entry, which is disarmed and missed, and where nothing waits for its channel. -/
theorem reviseCue_armed {e : CueEntry} {n : Four} {ch : Channel} (hch : e.channel = some n) (hn : s.splice.channels.get n = some ch)
    (ha : ch.avail = c.avail) (hl : ¬ (s.live.armingLead : Int) ≤ Seq.distance c.carrying c.start)
    (hw : ∀ x ∈ s.splice.cues.filter (fun x => x.avail ≠ c.avail), x.mode ≠ .waiting) :
    reviseCue c e s = (cueResult (released n ch 4 0 s) (s.splice.cues.filter (fun x => x.avail ≠ c.avail)) s.splice.accepted
      { s.splice.counts with
        revision := min 65535 (s.splice.counts.revision + 1)
        missed := min 65535 (s.splice.counts.missed + 1) } [19], .missed) := by
  rw [reviseCue_bound hch hn, judgeNewCue_disarmed hl, ha]
  dsimp only
  rw [arbitrate_idle hw n]

end

/-! ## IN and CANCEL cues (R116, R117) -/

section
variable {s : State} {avail : Nat} {x : Seq}

theorem judgeIn_ignored (h : ∀ e q, cueOf s avail = some e → s.splice.lastStarted = some q → e.mode = .active →
    (x - q).toNat = 0 ∨ (e.ending - q).toNat ≤ (x - q).toNat) : judgeIn avail x s =
      (cueResult s s.splice.cues s.splice.accepted
        { s.splice.counts with inIgnored := min 65535 (s.splice.counts.inIgnored + 1) } [], .inIgnored) := by
  rw [cueResult_quiet, ← count_eq]
  unfold judgeIn
  cases he : cueOf s avail with
  | none => rfl
  | some e =>
    cases hq : s.splice.lastStarted with
    | none => rfl
    | some q =>
      refine if_neg fun hc => ?_
      obtain ⟨ha, h1, h2⟩ := hc
      have := h e q he hq ha
      omega

theorem judgeIn_moved {e : CueEntry} {q : Seq} {n : Four} {c : Channel} (he : cueOf s avail = some e)
    (hq : s.splice.lastStarted = some q) (ha : e.mode = .active) (h1 : 1 ≤ (x - q).toNat) (h2 : (x - q).toNat < (e.ending - q).toNat)
    (hch : e.channel = some n) (hn : s.splice.channels.get n = some c) : judgeIn avail x s =
      (s.setSplice { s.splice with
        cues := s.splice.cues.map (fun e => if e.avail = avail then { e with ending := x } else e)
        channels := s.splice.channels.set n (some { c with ending := x })
        counts := { s.splice.counts with endMoved := min 65535 (s.splice.counts.endMoved + 1) } }, .endMoved) := by
  rw [← count_eq]
  unfold judgeIn
  rw [he, hq]
  refine (if_pos ⟨ha, h1, h2⟩).trans ?_
  rw [hch]
  dsimp only
  rw [show (editCue avail (fun e => { e with ending := x }) s).splice.channels.get n = some c from hn]
  rfl

theorem judgeCancel_ignored (h : ∀ e, cueOf s avail = some e → e.mode = .active) : judgeCancel avail s =
    (cueResult s s.splice.cues s.splice.accepted
      { s.splice.counts with cancelIgnored := min 65535 (s.splice.counts.cancelIgnored + 1) } [], .cancelIgnored) := by
  rw [cueResult_quiet, ← count_eq]
  unfold judgeCancel
  cases he : cueOf s avail with
  | none => rfl
  | some e => exact if_pos (h e he)

theorem judgeCancel_unbound {e : CueEntry} (he : cueOf s avail = some e) (ha : e.mode ≠ .active) (hch : e.channel = none) :
    judgeCancel avail s = (cueResult s (s.splice.cues.filter (fun x => x.avail ≠ avail)) s.splice.accepted
      { s.splice.counts with cancelled := min 65535 (s.splice.counts.cancelled + 1) } [], .cancelled) := by
  rw [cueResult_quiet, ← count_eq]
  unfold judgeCancel
  rw [he]
  refine (if_neg ha).trans ?_
  rw [hch]
  rfl

theorem judgeCancel_armed {e : CueEntry} {n : Four} {c : Channel} (he : cueOf s avail = some e) (ha : e.mode = .armed)
    (hch : e.channel = some n) (hn : s.splice.channels.get n = some c) (hav : c.avail = avail)
    (hw : ∀ x ∈ s.splice.cues.filter (fun x => x.avail ≠ avail), x.mode ≠ .waiting) :
    judgeCancel avail s = (cueResult (released n c 4 0 s) (s.splice.cues.filter (fun x => x.avail ≠ avail)) s.splice.accepted
      { s.splice.counts with cancelled := min 65535 (s.splice.counts.cancelled + 1) } [], .cancelled) := by
  rw [cueResult_quiet, ← count_eq]
  unfold judgeCancel
  rw [he]
  refine (if_neg (by rw [ha]; decide)).trans ?_
  rw [hch]
  dsimp only
  rw [hn]
  dsimp only
  rw [disarm_eq, arbitrate_idle (s := released n c 4 0 s) (by rw [← hav] at hw; exact hw) n, ← hav]
  rfl

end

/-! ## The CUE request (R112) -/

/-- The OUT cue of a cue's fields. -/
def outCue (d : CueData) (source : CueSource) (carrying : Seq) : OutCue :=
  { avail := d.avail.toNat, service := d.service.toNat, start := d.seq, duration := d.duration.toNat, source := source,
    carrying := carrying }

theorem newEntry_outCue (d : CueData) (source : CueSource) (carrying : Seq) (m : CueMode) (s : State) :
    newEntry (outCue d source carrying) m s =
      { avail := d.avail.toNat, service := d.service.toNat, start := d.seq, duration := d.duration.toNat, ending := d.seq + d.duration,
        source := source, carrying := carrying, mode := m, channel := none, order := s.splice.accepted + 1 } := by
  unfold newEntry outCue
  rw [BitVec.ofNat_toNat, BitVec.setWidth_eq]

section
variable {s : State} {d : CueData} {source : CueSource} {carrying : Seq}

theorem judgeCue_out (h : d.kind = 1) : judgeCue d source carrying s = judgeOut (outCue d source carrying) s := if_pos h

theorem judgeCue_in (h : d.kind = 2) : judgeCue d source carrying s = judgeIn d.avail.toNat d.seq s := by
  unfold judgeCue
  rw [h]
  rfl

theorem judgeCue_cancel (h : d.kind = 3) : judgeCue d source carrying s = judgeCancel d.avail.toNat s := by
  unfold judgeCue
  rw [h]
  rfl

/-- A CUE request that is judged (R112): the reply, what is left, and the SPLICE notices in channel order. -/
theorem cue_request {b : Seq} {u : State} {e : Report} {out : CueOutcome} {is : List Nat} {num : Int} (tag : Byte) (hs : Ready s)
    (hm : ¬ malformed d = true) (hrun : s.em.mode = .running) (hb : s.store.base = some b)
    (hj : judgeCue d .host b (s.setEv {}) = (u.setEv e, out)) (hnum : (channelNum ((cueOf u d.avail.toNat).bind CueEntry.channel) : Int) = num)
    (hi : e.items = is) (hl : s.alarms.records.length = 36 ∨ is = []) :
    ∃ t, exec (.cue tag d) s = .next t ∧ Replied t 0x40 tag .ok (be 1 (outcomeCode out) ++ be 1 num) ∧
      AfterRequest is u t ∧
      Noticed 4 (Four.all.flatMap (fun n => (e.splice.filter (fun note => note.channel = n)).map spliceBody)) s t := by
  have hop : reqCue d (s.setEv {}) =
      ⟨u.setEv e, .ok, be 1 (outcomeCode out) ++ be 1 num⟩ := by
    rw [← hnum]
    unfold reqCue
    refine (if_neg hm).trans ?_
    rw [show (s.setEv {}).em.mode = .running from hrun, show (s.setEv {}).store.base = some b from hb]
    dsimp only
    rw [hj]
    rfl
  have honly : OnlySplice (s.setEv {}) (u.setEv e) := by
    have := judgeCue_only d .host b (s.setEv {})
    rwa [hj] at this
  have hu : u = { s with store := u.store, clips := u.clips, splice := u.splice, ev := u.ev } :=
    congrArg (fun w => w.setEv u.ev) honly
  have hlive : u.live = s.live := by rw [hu]
  have hlink : u.link = s.link := by rw [hu]
  have halarms : u.alarms = s.alarms := by rw [hu]
  obtain ⟨t, hstep, hreply, hafter⟩ := afterRequest_intro 0x40 tag (cueBytes d) hs hop hi (by rwa [halarms])
  exact ⟨t, (exec_cue ..).trans hstep, hreply, hafter, noticed_splice hs hop hlive hlink halarms hstep⟩

end

/-! ## What judging makes of a cue, clause by clause -/

section
variable {s : State} {c : OutCue}

/-- A new OUT cue in time (R113, steps 3 to 8). -/
theorem judgeOut_placed (hno : cueOf s c.avail = none) (ht : (s.live.armingLead : Int) ≤ Seq.distance c.carrying c.start) :
    let k := s.splice.counts
    let known : Prop := ∃ v, serviceOf s c.service = some v ∧ v.eligible = true
    let free : Prop := serviceBound s c.service = false ∧ (idleChannel s).isSome = true
    let usable (p : Plan) : Prop := (clipRec s p.clip).mode = .ready ∧ (clipRec s p.clip).perFrame < s.live.em.packets
    let entered (mode : CueMode) (n : CueCounts) (items : List Nat) : State :=
      cueResult s (s.splice.cues ++ [newEntry c mode s]) (s.splice.accepted + 1) n items
    let new : CueCounts := { k with new := min 65535 (k.new + 1) }
    let unfilled := entered .unfilled { new with unfilled := min 65535 (k.unfilled + 1) } [18]
    (¬ known → judgeOut c s =
      (cueResult s s.splice.cues s.splice.accepted { k with dropped := min 65535 (k.dropped + 1) } [18], .dropped)) ∧
    (known → 16 ≤ s.splice.cues.length → judgeOut c s =
      (cueResult s s.splice.cues s.splice.accepted { k with missed := min 65535 (k.missed + 1) } [19], .missed)) ∧
    (known → s.splice.cues.length < 16 →
      (planFor s c.avail c.service = none → judgeOut c s = (unfilled, .unfilled)) ∧
      (∀ p, planFor s c.avail c.service = some p →
        (¬ free → judgeOut c s = (entered .waiting new [], .waiting)) ∧ (free → ¬ usable p → judgeOut c s = (unfilled, .unfilled)) ∧
        (∀ n, serviceBound s c.service = false → idleChannel s = some n → usable p → judgeOut c s =
          (boundState s (s.splice.cues ++ [{ newEntry c .armed s with channel := some n }]) (s.splice.accepted + 1) new n
            (newEntry c .armed s) p, .armed)))) := by
  intro k known free usable entered new unfilled
  rw [judgeOut_inTime hno ht]
  refine ⟨fun hk => ?_, fun hk hl => ?_, fun hk hl => ⟨fun hp => ?_, fun p hp => ⟨fun hf => ?_, fun hf hu => ?_, fun n hb hn hu => ?_⟩⟩⟩
  · exact (placeCue_unknown (mt eligible_iff.mp hk)).trans (congrArg (fun u => (u, CueOutcome.dropped)) (dropped_eq s))
  · exact (placeCue_full (eligible_iff.mpr hk) hl).trans (congrArg (fun u => (u, CueOutcome.missed)) (missed_eq s))
  · rw [placeCue_unplanned (eligible_iff.mpr hk) (.inr hl) hp, enterUnfilled_made]
  · rw [placeCue_waiting (eligible_iff.mpr hk) (.inr hl) hp hf, enterCue_made]
  · rw [placeCue_unusable (eligible_iff.mpr hk) (.inr hl) hp hf (mt usable_iff.mp hu), enterUnfilled_made]
  · rw [placeCue_armed (eligible_iff.mpr hk) (.inr hl) hp hb hn (usable_iff.mpr hu) (cueOf_enterCue_new hno .armed), bindChannel_made hno]

/-- An UNFILLED entry judged again in time (R114). -/
theorem judgeOut_again {e : CueEntry} (he : cueOf s c.avail = some e) (hm : e.mode = .unfilled) (hsame : sameContent c e = true)
    (ht : (s.live.armingLead : Int) ≤ Seq.distance c.carrying c.start) :
    let k := s.splice.counts
    let known : Prop := ∃ v, serviceOf s c.service = some v ∧ v.eligible = true
    let free : Prop := serviceBound s c.service = false ∧ (idleChannel s).isSome = true
    let usable (p : Plan) : Prop := (clipRec s p.clip).mode = .ready ∧ (clipRec s p.clip).perFrame < s.live.em.packets
    let turned (mode : CueMode) : List CueEntry :=
      s.splice.cues.map (fun x => if x.avail = c.avail then { x with mode := mode, channel := none } else x)
    let again : CueCounts := { k with repeats := min 65535 (k.repeats + 1) }
    let unfilled := cueResult s (turned .unfilled) s.splice.accepted { again with unfilled := min 65535 (k.unfilled + 1) } [18]
    (¬ known → judgeOut c s = (cueResult s (s.splice.cues.filter (fun x => x.avail ≠ c.avail)) s.splice.accepted
      { again with dropped := min 65535 (k.dropped + 1) } [18], .dropped)) ∧
    (known →
      (planFor s c.avail c.service = none → judgeOut c s = (unfilled, .unfilled)) ∧
      (∀ p, planFor s c.avail c.service = some p →
        (¬ free → judgeOut c s = (cueResult s (turned .waiting) s.splice.accepted again [], .waiting)) ∧
        (free → ¬ usable p → judgeOut c s = (unfilled, .unfilled)) ∧
        (∀ n, serviceBound s c.service = false → idleChannel s = some n → usable p → judgeOut c s =
          (boundState s (s.splice.cues.map (fun x => if x.avail = c.avail then { x with mode := .armed, channel := some n } else x))
            s.splice.accepted again n e p, .armed)))) := by
  intro k known free usable turned again unfilled
  rw [(judgeOut_same he hsame).trans (if_pos ⟨hm, ht⟩), countRepeat_eq]
  generalize hr : s.setSplice { s.splice with counts := again } = r
  have hr' : r = s.setSplice { s.splice with counts := again } := hr.symm
  have hcue : cueOf r c.avail = some e := by rw [hr']; exact he
  have hservice : serviceOf r c.service = serviceOf s c.service := by rw [hr']; rfl
  have hplan : planFor r c.avail c.service = planFor s c.avail c.service := by rw [hr']; rfl
  have hbound : serviceBound r c.service = serviceBound s c.service := by rw [hr']; rfl
  have hidle : idleChannel r = idleChannel s := by rw [hr']; rfl
  have husable : ∀ p : Plan, clipUsable r p.clip = clipUsable s p.clip := fun p => by rw [hr']; rfl
  refine ⟨fun hk => ?_, fun hk => ⟨fun hp => ?_, fun p hp => ⟨fun hf => ?_, fun hf hu => ?_, fun n hb hn hu => ?_⟩⟩⟩
  · refine (placeCue_unknown (by rw [hservice]; exact mt eligible_iff.mp hk)).trans (congrArg (fun u => (u, CueOutcome.dropped)) ?_)
    rw [if_pos rfl, dropped_eq, hr']
    rfl
  all_goals have hk' : (serviceOf r c.service).any Service.eligible = true := by rw [hservice]; exact eligible_iff.mpr hk
  · rw [placeCue_unplanned hk' (.inl rfl) (hplan.trans hp), enterUnfilled_rejudged, hr']
    rfl
  · rw [placeCue_waiting hk' (.inl rfl) (hplan.trans hp) (by rw [hbound, hidle]; exact hf), enterCue_rejudged, hr']
    rfl
  · rw [placeCue_unusable hk' (.inl rfl) (hplan.trans hp) (by rw [hbound, hidle]; exact hf)
      (by rw [husable]; exact mt usable_iff.mp hu), enterUnfilled_rejudged, hr']
    rfl
  · have hentered : cueOf (enterCue c true .armed r) c.avail = some { e with mode := .armed, channel := none } :=
      cueOf_editCue (fun _ => rfl) hcue
    rw [placeCue_armed hk' (.inl rfl) (hplan.trans hp) (hbound.trans hb) (hidle.trans hn) (by rw [husable]; exact usable_iff.mpr hu) hentered,
      bindChannel_rejudged hcue, hr']
    rfl

end

/-! ## A network cue is judged as a host cue is -/

/-- An entry with the source NETWORK where it is of the avail. -/
def relabelled (a : Nat) (x : CueEntry) : CueEntry := if x.avail = a then { x with source := .network } else x

/-- The part with the entries of the avail from the network. -/
def relabel (a : Nat) (s : State) : State := setCues (s.splice.cues.map (relabelled a)) s

section
variable (a : Nat) (s : State)

@[simp] theorem relabelled_avail (x : CueEntry) : (relabelled a x).avail = x.avail := by unfold relabelled; split <;> rfl
@[simp] theorem relabelled_service (x : CueEntry) : (relabelled a x).service = x.service := by unfold relabelled; split <;> rfl
@[simp] theorem relabelled_start (x : CueEntry) : (relabelled a x).start = x.start := by unfold relabelled; split <;> rfl
@[simp] theorem relabelled_ending (x : CueEntry) : (relabelled a x).ending = x.ending := by unfold relabelled; split <;> rfl
@[simp] theorem relabelled_order (x : CueEntry) : (relabelled a x).order = x.order := by unfold relabelled; split <;> rfl
@[simp] theorem relabelled_mode (x : CueEntry) : (relabelled a x).mode = x.mode := by unfold relabelled; split <;> rfl

theorem relabelled_bound (x : CueEntry) (m : CueMode) (n : Option Four) :
    relabelled a { x with mode := m, channel := n } = { relabelled a x with mode := m, channel := n } := by
  unfold relabelled
  split <;> rfl

theorem insertCue_relabelled (ref : Seq) (e : CueEntry) (xs : List CueEntry) :
    insertCue ref (relabelled a e) (xs.map (relabelled a)) = (insertCue ref e xs).map (relabelled a) := by
  induction xs with
  | nil => rfl
  | cons x xs ih =>
    have hbefore : cueBefore ref (relabelled a e) (relabelled a x) = cueBefore ref e x := by
      simp only [cueBefore, relabelled_start, relabelled_order]
    simp only [List.map_cons, insertCue, hbefore, ih]
    split <;> rfl

theorem orderedCues_relabel : orderedCues (relabel a s) = (orderedCues s).map (relabelled a) := by
  show (s.splice.cues.map (relabelled a)).foldr (insertCue s.splice.cueRef) [] = _
  unfold orderedCues
  induction s.splice.cues with
  | nil => rfl
  | cons x xs ih => rw [List.map_cons, List.foldr_cons, ih, insertCue_relabelled, List.foldr_cons]

theorem candidate_relabel : candidate (relabel a s) = (candidate s).map (relabelled a) := by
  unfold candidate
  rw [orderedCues_relabel, List.find?_map]
  refine congrArg (Option.map _) (congrArg (fun p => (orderedCues s).find? p) (funext fun x => ?_))
  rw [Function.comp_apply, relabelled_mode, relabelled_service]
  rfl

theorem removeCue_relabel (b : Nat) : removeCue b (relabel a s) = relabel a (removeCue b s) := by
  have hcues : (s.splice.cues.map (relabelled a)).filter (fun e => e.avail ≠ b) =
      (s.splice.cues.filter (fun e => e.avail ≠ b)).map (relabelled a) := by
    rw [List.filter_map]
    refine congrArg (List.map _) (congrArg (fun p => s.splice.cues.filter p) (funext fun x => ?_))
    rw [Function.comp_apply, relabelled_avail]
  exact congrArg (fun l => setCues l s) hcues

theorem editCue_relabel (b : Nat) (m : CueMode) (n : Option Four) :
    editCue b (fun e => { e with mode := m, channel := n }) (relabel a s) =
      relabel a (editCue b (fun e => { e with mode := m, channel := n }) s) := by
  refine congrArg (fun l => setCues l s) ?_
  show (s.splice.cues.map (relabelled a)).map _ = (s.splice.cues.map _).map (relabelled a)
  rw [List.map_map, List.map_map]
  refine List.map_congr_left fun x _ => ?_
  rw [Function.comp_apply, Function.comp_apply, relabelled_avail]
  split
  · exact (relabelled_bound a x m n).symm
  · rfl

theorem turnUnfilled_relabel (b : Nat) : turnUnfilled b (relabel a s) = relabel a (turnUnfilled b s) := by
  unfold turnUnfilled
  rw [editCue_relabel]
  rfl

theorem bindChannel_relabel (n : Four) (e : CueEntry) (p : Plan) :
    bindChannel n (relabelled a e) p (relabel a s) = relabel a (bindChannel n e p s) := by
  have hcues := editCue_relabel a s e.avail .armed (some n)
  rw [bindChannel_eq, bindChannel_eq, relabelled_avail, relabelled_service, relabelled_start, relabelled_ending]
  exact congrArg (fun u : State => { bindChannel n e p s with
    splice := { (bindChannel n e p s).splice with cues := u.splice.cues } }) hcues

theorem arbitrateLoop_relabel (fuel : Nat) (n : Four) (s : State) :
    arbitrateLoop fuel n (relabel a s) = relabel a (arbitrateLoop fuel n s) := by
  induction fuel generalizing s with
  | zero => rfl
  | succ fuel ih =>
    unfold arbitrateLoop
    rw [candidate_relabel]
    cases candidate s with
    | none => rfl
    | some e =>
      dsimp only [Option.map_some]
      rw [relabelled_service, relabelled_avail, removeCue_relabel, turnUnfilled_relabel,
        show serviceOf (relabel a s) e.service = serviceOf s e.service from rfl,
        show planFor (relabel a s) e.avail e.service = planFor s e.avail e.service from rfl]
      split
      · exact ih (occur 18 (countDropped (removeCue e.avail s)))
      · cases planFor s e.avail e.service with
        | none => exact ih _
        | some p =>
          dsimp only
          rw [show clipUsable (relabel a s) p.clip = clipUsable s p.clip from rfl, bindChannel_relabel]
          split
          · rfl
          · exact ih _

theorem arbitrate_relabel (n : Four) : arbitrate n (relabel a s) = relabel a (arbitrate n s) := by
  unfold arbitrate
  rw [show (relabel a s).splice.channels = s.splice.channels from rfl,
    show (relabel a s).splice.cues.length = s.splice.cues.length from List.length_map _]
  split
  · exact arbitrateLoop_relabel ..
  · rfl

end

/-- Arbitration makes no entry. -/
theorem arbitrateLoop_accepted (fuel : Nat) (n : Four) (s : State) :
    (arbitrateLoop fuel n s).splice.accepted = s.splice.accepted := by
  induction fuel generalizing s with
  | zero => rfl
  | succ fuel ih =>
    unfold arbitrateLoop
    split
    · rfl
    · split
      · exact ih _
      · split
        · exact ih _
        · split
          · rfl
          · exact ih _

theorem arbitrate_accepted (n : Four) (s : State) : (arbitrate n s).splice.accepted = s.splice.accepted := by
  unfold arbitrate
  split
  · exact arbitrateLoop_accepted ..
  · rfl

/-- A cue of the host, judged to `h`, and the same cue of the network, judged to `w`: alike, or with one entry made, which differs in its
source alone. -/
def Sourced (a : Nat) (s : State) (h w : State × CueOutcome) : Prop :=
  (w = h ∧ h.1.splice.accepted = s.splice.accepted) ∨
    (w = (relabel a h.1, h.2) ∧ h.1.splice.accepted = s.splice.accepted + 1)

/-- The cue from the network. -/
def fromNetwork (c : OutCue) : OutCue := { c with source := .network }

section
variable {s : State} {c : OutCue}

theorem enterCue_network (hno : cueOf s c.avail = none) (m : CueMode) :
    enterCue (fromNetwork c) false m s = relabel c.avail (enterCue c false m s) := by
  have hcues : s.splice.cues ++ [newEntry (fromNetwork c) m s] = (s.splice.cues ++ [newEntry c m s]).map (relabelled c.avail) := by
    rw [List.map_append, show s.splice.cues.map (relabelled c.avail) = s.splice.cues from map_noEntry hno _]
    exact congrArg (fun e => s.splice.cues ++ [e]) (if_pos rfl).symm
  exact congrArg (fun l => countCue (fun k => { k with new := sat 65535 (k.new + 1) })
    (s.setSplice { s.splice with cues := l, accepted := s.splice.accepted + 1 })) hcues

theorem enterUnfilled_network (hno : cueOf s c.avail = none) :
    enterUnfilled (fromNetwork c) false s = relabel c.avail (enterUnfilled c false s) := by
  unfold enterUnfilled
  rw [enterCue_network hno]
  rfl

theorem enterCue_accepted (c : OutCue) (m : CueMode) (s : State) : (enterCue c false m s).splice.accepted = s.splice.accepted + 1 := rfl

theorem placeCue_sourced (hno : cueOf s c.avail = none) :
    Sourced c.avail s (placeCue c false s) (placeCue (fromNetwork c) false s) := by
  by_cases hk : (serviceOf s c.service).any Service.eligible = true
  case neg =>
    rw [placeCue_unknown hk, placeCue_unknown (c := fromNetwork c) hk]
    exact .inl ⟨rfl, rfl⟩
  by_cases hl : s.splice.cues.length < 16
  case neg =>
    rw [placeCue_full hk (not_lt.mp hl), placeCue_full (c := fromNetwork c) hk (not_lt.mp hl)]
    exact .inl ⟨rfl, rfl⟩
  refine .inr ?_
  cases hp : planFor s c.avail c.service with
  | none =>
    rw [placeCue_unplanned hk (.inr hl) hp, placeCue_unplanned (c := fromNetwork c) hk (.inr hl) hp, enterUnfilled_network hno]
    exact ⟨rfl, rfl⟩
  | some p =>
    by_cases hf : serviceBound s c.service = false ∧ (idleChannel s).isSome = true
    case neg =>
      rw [placeCue_waiting hk (.inr hl) hp hf, placeCue_waiting (c := fromNetwork c) hk (.inr hl) hp hf, enterCue_network hno]
      exact ⟨rfl, rfl⟩
    by_cases hu : clipUsable s p.clip = true
    case neg =>
      rw [placeCue_unusable hk (.inr hl) hp hf hu, placeCue_unusable (c := fromNetwork c) hk (.inr hl) hp hf hu, enterUnfilled_network hno]
      exact ⟨rfl, rfl⟩
    obtain ⟨n, hn⟩ := Option.isSome_iff_exists.mp hf.2
    rw [placeCue_armed hk (.inr hl) hp hf.1 hn hu (cueOf_enterCue_new hno .armed),
      placeCue_armed (c := fromNetwork c) hk (.inr hl) hp hf.1 hn hu (cueOf_enterCue_new (c := fromNetwork c) hno .armed),
      enterCue_network hno, show newEntry (fromNetwork c) .armed s = relabelled c.avail (newEntry c .armed s) from (if_pos rfl).symm,
      bindChannel_relabel]
    exact ⟨rfl, rfl⟩

/-- An entry judged again is not made anew. -/
theorem placeCue_again_accepted (c : OutCue) (s : State) : (placeCue c true s).1.splice.accepted = s.splice.accepted := by
  by_cases hk : (serviceOf s c.service).any Service.eligible = true
  case neg =>
    rw [placeCue_unknown hk]
    rfl
  rw [placeCue_roomy hk (.inl rfl)]
  split
  · rfl
  · split
    · rfl
    · split
      · split <;> rfl
      · rfl

theorem judgeNewCue_sourced (hno : cueOf s c.avail = none) : Sourced c.avail s (judgeNewCue c s) (judgeNewCue (fromNetwork c) s) := by
  by_cases ht : (s.live.armingLead : Int) ≤ Seq.distance c.carrying c.start
  · rw [judgeNewCue_inTime ht, judgeNewCue_inTime (c := fromNetwork c) ht]
    exact placeCue_sourced hno
  · rw [judgeNewCue_late ht, judgeNewCue_late (c := fromNetwork c) ht]
    exact .inl ⟨rfl, rfl⟩

/-- Arbitration after it. -/
theorem Sourced.arbitrated {a : Nat} {h w : State × CueOutcome} (hsourced : Sourced a s h w) (n : Four) :
    Sourced a s (arbitrate n h.1, h.2) (arbitrate n w.1, w.2) := by
  obtain ⟨rfl, hacc⟩ | ⟨rfl, hacc⟩ := hsourced
  · exact .inl ⟨rfl, (arbitrate_accepted n _).trans hacc⟩
  · exact .inr ⟨by rw [arbitrate_relabel], (arbitrate_accepted n _).trans hacc⟩

/-- From a state that took as many entries. -/
theorem Sourced.of_accepted {a : Nat} {u : State} {h w : State × CueOutcome} (hsourced : Sourced a u h w)
    (hu : u.splice.accepted = s.splice.accepted) : Sourced a s h w := by
  unfold Sourced
  rw [← hu]
  exact hsourced

theorem reviseCue_sourced {e : CueEntry}
    (hbound : ∀ n ch, e.channel = some n → s.splice.channels.get n = some ch → ch.avail = c.avail) :
    Sourced c.avail s (reviseCue c e s) (reviseCue (fromNetwork c) e s) := by
  unfold reviseCue
  cases hch : e.channel with
  | none => exact (judgeNewCue_sourced (cueOf_removeCue _ _)).of_accepted rfl
  | some n =>
    dsimp only
    rw [show (countCue (fun k => { k with revision := sat 65535 (k.revision + 1) }) s).splice.channels = s.splice.channels from rfl]
    cases hn : s.splice.channels.get n with
    | none => exact ((judgeNewCue_sourced (cueOf_removeCue _ _)).of_accepted rfl).arbitrated n
    | some ch =>
      refine (Sourced.of_accepted (u := disarm n ch (countCue _ s)) (judgeNewCue_sourced ?_) rfl).arbitrated n
      rw [← hbound n ch hch hn]
      exact cueOf_removeCue _ _

theorem judgeOut_sourced (hbound : ∀ e n ch, cueOf s c.avail = some e → e.channel = some n → s.splice.channels.get n = some ch →
    ch.avail = c.avail) : Sourced c.avail s (judgeOut c s) (judgeOut (fromNetwork c) s) := by
  cases he : cueOf s c.avail with
  | none =>
    rw [judgeOut_new he, judgeOut_new (c := fromNetwork c) he]
    exact judgeNewCue_sourced he
  | some e =>
    by_cases hsame : sameContent c e = true
    · rw [judgeOut_same he hsame, judgeOut_same (c := fromNetwork c) he hsame]
      refine .inl ⟨rfl, ?_⟩
      split
      · exact placeCue_again_accepted c _
      · rfl
    by_cases ha : e.mode = .active
    · rw [judgeOut_late he hsame ha, judgeOut_late (c := fromNetwork c) he hsame ha]
      exact .inl ⟨rfl, rfl⟩
    · rw [judgeOut_revised he hsame ha, judgeOut_revised (c := fromNetwork c) he hsame ha]
      exact reviseCue_sourced (fun n ch => hbound e n ch he)

/-- What a network cue leaves, of what the host's leaves. -/
theorem Sourced.network {a : Nat} {h w : State × CueOutcome} (hsourced : Sourced a s h w) :
    w.2 = h.2 ∧ w.1 = { h.1 with splice := { h.1.splice with
      cues := if h.1.splice.accepted = s.splice.accepted then h.1.splice.cues
        else h.1.splice.cues.map (fun x => if x.avail = a then { x with source := .network } else x) } } := by
  obtain ⟨rfl, hacc⟩ | ⟨rfl, hacc⟩ := hsourced
  · rw [if_pos hacc]
    exact ⟨rfl, rfl⟩
  · have hne : h.1.splice.accepted ≠ s.splice.accepted := by
      rw [hacc]
      bv_omega
    rw [if_neg hne]
    exact ⟨rfl, rfl⟩

theorem judgeIn_accepted (avail : Nat) (x : Seq) (s : State) : (judgeIn avail x s).1.splice.accepted = s.splice.accepted := by
  unfold judgeIn
  split
  · dsimp only
    split
    · split
      · split <;> rfl
      · rfl
    · rfl
  · rfl

theorem judgeCancel_accepted (avail : Nat) (s : State) : (judgeCancel avail s).1.splice.accepted = s.splice.accepted := by
  unfold judgeCancel
  split
  · rfl
  · dsimp only
    split
    · rfl
    · split
      · split
        · exact arbitrate_accepted _ _
        · rfl
      · rfl

/-- A network cue beside a host cue. -/
theorem judgeCue_sourced (d : CueData) (carrying : Seq)
    (hbound : ∀ e n ch, cueOf s d.avail.toNat = some e → e.channel = some n → s.splice.channels.get n = some ch →
      ch.avail = d.avail.toNat) : Sourced d.avail.toNat s (judgeCue d .host carrying s) (judgeCue d .network carrying s) := by
  unfold judgeCue
  split
  · exact judgeOut_sourced (c := outCue d .host carrying) hbound
  · refine .inl ⟨rfl, ?_⟩
    split
    · exact judgeIn_accepted _ _ _
    · exact judgeCancel_accepted _ _

end

/-! ## The obligation (O54) -/

section
variable {s : State} {d : CueData}

theorem malformed_not (ha : d.avail ≠ 0) (h1 : 1 ≤ d.kind.toNat) (h3 : d.kind.toNat ≤ 3)
    (hout : d.kind = 1 → d.service ≠ 0 ∧ d.duration ≠ 0) : ¬ malformed d = true := by
  rw [malformed_iff]
  rintro (h | h | h | ⟨hk, h | h⟩)
  · exact ha h
  · omega
  · omega
  · exact (hout hk).1 h
  · exact (hout hk).2 h

theorem channelNum_eq (o : Option Four) : (channelNum o : Int) = match o with | some n => (n.num : Int) | none => 0 := by
  cases o <;> rfl

/-- No channel stands in the reply where the avail has no entry. -/
theorem channelNum_none {u : State} {a : Nat} (h : cueOf u a = none) : (channelNum ((cueOf u a).bind CueEntry.channel) : Int) = 0 := by
  rw [h]
  rfl

theorem channelNum_some {u : State} {a : Nat} {e : CueEntry} {n : Four} (h : cueOf u a = some e) (hn : e.channel = some n) :
    (channelNum ((cueOf u a).bind CueEntry.channel) : Int) = n.num := by
  rw [h, Option.bind_some, hn]
  rfl

/-- What the CUE request makes of a cue, judged with the base. -/
theorem cue_requests (tag : Byte) (hs : Ready s) (hm : ¬ malformed d = true) {b : Seq} (hrun : s.em.mode = .running)
    (hb : s.store.base = some b) :
    let cue := exec (.cue tag d) s
    let avail := d.avail.toNat
    let k := s.splice.counts
    (d.kind = 1 → cueOf s avail = none → Seq.distance b d.seq < s.live.armingLead → s.alarms.records.length = 36 →
      ∃ t, cue = .next t ∧ Replied t 0x40 tag .ok [7, 0] ∧
        AfterRequest [19] { s with splice := { s.splice with counts := { k with missed := min 65535 (k.missed + 1) } } } t) ∧
    (∀ e q n c, d.kind = 2 → cueOf s avail = some e → e.mode = .active → s.splice.lastStarted = some q →
      1 ≤ (d.seq - q).toNat → (d.seq - q).toNat < (e.ending - q).toNat → e.channel = some n →
      s.splice.channels.get n = some c →
      ∃ t, cue = .next t ∧ Replied t 0x40 tag .ok ([8] ++ be 1 n.num) ∧
        AfterRequest [] { s with splice := { s.splice with
          cues := s.splice.cues.map (fun x => if x.avail = avail then { x with ending := d.seq } else x)
          channels := s.splice.channels.set n (some { c with ending := d.seq })
          counts := { k with endMoved := min 65535 (k.endMoved + 1) } } } t) ∧
    (∀ e, d.kind = 3 → cueOf s avail = some e → e.mode = .waiting ∨ e.mode = .unfilled → e.channel = none →
      ∃ t, cue = .next t ∧ Replied t 0x40 tag .ok [10, 0] ∧
        AfterRequest [] { s with splice := { s.splice with
          cues := s.splice.cues.filter (fun x => x.avail ≠ avail)
          counts := { k with cancelled := min 65535 (k.cancelled + 1) } } } t) := by
  intro cue avail k
  refine ⟨fun hk hno hlate hlen => ?_, fun e q n c hk he ha hq h1 h2 hch hn => ?_, fun e hk he hmode hch => ?_⟩
  · have hj : judgeCue d .host b (s.setEv {}) =
        (({ s with splice := { s.splice with counts := { k with missed := min 65535 (k.missed + 1) } } } : State).setEv { items := [19] },
          .missed) := by
      refine (judgeCue_out hk).trans ((judgeOut_new (c := outCue d .host b) (s := s.setEv {}) hno).trans ?_)
      refine (judgeNewCue_late (c := outCue d .host b) (s := s.setEv {}) (not_le.mpr hlate)).trans ?_
      rw [missed_eq]
      rfl
    obtain ⟨t, hstep, hreply, hafter, -⟩ := cue_request tag hs hm hrun hb hj (channelNum_none hno) rfl (.inl hlen)
    exact ⟨t, hstep, hreply, hafter⟩
  · have hj : judgeCue d .host b (s.setEv {}) = (({ s with splice := { s.splice with
        cues := s.splice.cues.map (fun x => if x.avail = avail then { x with ending := d.seq } else x)
        channels := s.splice.channels.set n (some { c with ending := d.seq })
        counts := { k with endMoved := min 65535 (k.endMoved + 1) } } } : State).setEv {}, .endMoved) :=
      (judgeCue_in hk).trans (judgeIn_moved (s := s.setEv {}) he hq ha h1 h2 hch hn)
    obtain ⟨t, hstep, hreply, hafter, -⟩ := cue_request tag hs hm hrun hb hj
      (channelNum_some (e := { e with ending := d.seq }) (cueOf_editCue (f := fun x => { x with ending := d.seq }) (fun _ => rfl) he) hch)
      rfl (.inr rfl)
    exact ⟨t, hstep, hreply, hafter⟩
  · have hj : judgeCue d .host b (s.setEv {}) = (({ s with splice := { s.splice with
        cues := s.splice.cues.filter (fun x => x.avail ≠ avail)
        counts := { k with cancelled := min 65535 (k.cancelled + 1) } } } : State).setEv {}, .cancelled) := by
      refine (judgeCue_cancel hk).trans ((judgeCancel_unbound (s := s.setEv {}) he ?_ hch).trans ?_)
      · rcases hmode with h | h <;> rw [h] <;> decide
      · rw [cueResult_quiet]
        rfl
    obtain ⟨t, hstep, hreply, hafter, -⟩ := cue_request tag hs hm hrun hb hj (channelNum_none (cueOf_removeCue avail s)) rfl (.inr rfl)
    exact ⟨t, hstep, hreply, hafter⟩

/-- What the CUE request makes of an OUT cue that arms, repeats or revises. -/
theorem cue_requests_out (tag : Byte) (hs : Ready s) (hm : ¬ malformed d = true) {b : Seq} (hrun : s.em.mode = .running)
    (hb : s.store.base = some b) (hk : d.kind = 1) :
    let cue := exec (.cue tag d) s
    let avail := d.avail.toNat
    let k := s.splice.counts
    (∀ v p n, cueOf s avail = none → s.live.armingLead ≤ Seq.distance b d.seq →
      serviceOf s d.service.toNat = some v → v.eligible = true → s.splice.cues.length < 16 →
      planFor s avail d.service.toNat = some p → serviceBound s d.service.toNat = false → idleChannel s = some n →
      (clipRec s p.clip).mode = .ready → (clipRec s p.clip).perFrame < s.live.em.packets →
      let clip := clipRec s p.clip
      ∃ t, cue = .next t ∧ Replied t 0x40 tag .ok ([1] ++ be 1 n.num) ∧
        AfterRequest [] { s with
          clips := { s.clips with clips := s.clips.clips.set p.clip { clip with uses := clip.uses + 1 } }
          splice := { s.splice with
            accepted := s.splice.accepted + 1
            counts := { k with new := min 65535 (k.new + 1) }
            cues := s.splice.cues ++ [
              { avail := avail, service := d.service.toNat, start := d.seq, duration := d.duration.toNat,
                ending := d.seq + d.duration, source := .host, carrying := b, mode := .armed, channel := some n,
                order := s.splice.accepted + 1 }]
            channels := s.splice.channels.set n (some
              { active := false, avail := avail, service := d.service.toNat, start := d.seq,
                ending := d.seq + d.duration, clip := p.clip, perFrame := clip.perFrame, length := clip.length,
                map := p.map, harvest := p.harvest, early := p.early }) } } t ∧
        Noticed 4 [spliceBody ⟨n, avail, d.service.toNat, 1, 0, 0, s.splice.lastStarted.getD 0⟩] s t) ∧
    (∀ e, cueOf s avail = some e →
      let num := match e.channel with | some n => n.num | none => 0
      let same : Prop := e.service = d.service.toNat ∧ e.start = d.seq ∧ e.duration = d.duration.toNat
      let kept (n : CueCounts) : State := { s with splice := { s.splice with counts := n } }
      let others := s.splice.cues.filter (fun x => x.avail ≠ avail)
      (same → e.mode ≠ .unfilled →
        ∃ t, cue = .next t ∧ Replied t 0x40 tag .ok ([4] ++ be 1 num) ∧
          AfterRequest [] (kept { k with repeats := min 65535 (k.repeats + 1) }) t) ∧
      (¬ same → e.mode = .active →
        ∃ t, cue = .next t ∧ Replied t 0x40 tag .ok ([5] ++ be 1 num) ∧
          AfterRequest [] (kept { k with lateRevision := min 65535 (k.lateRevision + 1) }) t) ∧
      (¬ same → e.mode ≠ .active → e.channel = none → Seq.distance b d.seq < s.live.armingLead →
        s.alarms.records.length = 36 →
        ∃ t, cue = .next t ∧ Replied t 0x40 tag .ok [7, 0] ∧
          AfterRequest [19] { s with splice := { s.splice with
            cues := others
            counts := { k with revision := min 65535 (k.revision + 1), missed := min 65535 (k.missed + 1) } } } t) ∧
      (∀ n c, ¬ same → e.mode = .armed → e.channel = some n → s.splice.channels.get n = some c → c.avail = avail →
        Seq.distance b d.seq < s.live.armingLead → (∀ x ∈ others, x.mode ≠ .waiting) → s.alarms.records.length = 36 →
        let clip := clipRec s c.clip
        ∃ t, cue = .next t ∧ Replied t 0x40 tag .ok [7, 0] ∧
          AfterRequest [19] { s with
            clips := { s.clips with clips := s.clips.clips.set c.clip { clip with uses := clip.uses - 1 } }
            splice := { s.splice with
              channels := s.splice.channels.set n none
              cues := others
              counts := { k with revision := min 65535 (k.revision + 1), missed := min 65535 (k.missed + 1) } } } t ∧
          Noticed 4 [spliceBody ⟨n, avail, c.service, 4, 0, c.read, s.splice.lastStarted.getD 0⟩] s t)) := by
  intro cue avail k
  have hout : judgeCue d .host b (s.setEv {}) = judgeOut (outCue d .host b) (s.setEv {}) := judgeCue_out hk
  refine ⟨fun v p n hno ht hv hel hl hp hbound hn hready hper => ?_, fun e he => ?_⟩
  · intro clip
    have hj := hout.trans ((((judgeOut_placed (s := s.setEv {}) (c := outCue d .host b) hno ht).2.2 ⟨v, hv, hel⟩ hl).2 p hp).2.2 n hbound hn
      ⟨hready, hper⟩)
    rw [newEntry_outCue] at hj
    have hcue : (s.splice.cues ++ [{ newEntry (outCue d .host b) .armed s with channel := some n }]).find? (fun y => y.avail = avail) =
        some { newEntry (outCue d .host b) .armed s with channel := some n } := by
      rw [List.find?_append, show s.splice.cues.find? (fun y => y.avail = avail) = none from hno]
      simp [newEntry, outCue, avail]
    rw [newEntry_outCue] at hcue
    obtain ⟨t, hstep, hreply, hafter, hnoticed⟩ := cue_request (is := []) (u := { s with
          clips := { s.clips with clips := s.clips.clips.set p.clip { clip with uses := clip.uses + 1 } }
          splice := { s.splice with
            accepted := s.splice.accepted + 1
            counts := { k with new := min 65535 (k.new + 1) }
            cues := s.splice.cues ++ [
              { avail := avail, service := d.service.toNat, start := d.seq, duration := d.duration.toNat,
                ending := d.seq + d.duration, source := .host, carrying := b, mode := .armed, channel := some n,
                order := s.splice.accepted + 1 }]
            channels := s.splice.channels.set n (some
              { active := false, avail := avail, service := d.service.toNat, start := d.seq,
                ending := d.seq + d.duration, clip := p.clip, perFrame := clip.perFrame, length := clip.length,
                map := p.map, harvest := p.harvest, early := p.early }) } })
      (e := { splice := [⟨n, avail, d.service.toNat, 1, 0, 0, s.splice.lastStarted.getD 0⟩] }) tag hs hm hrun hb hj
      (channelNum_some hcue rfl) rfl (.inr rfl)
    exact ⟨t, hstep, hreply, hafter, hnoticed.of_eq (spliceBodies_one _)⟩
  · intro num same kept others
    have hsame : sameContent (outCue d .host b) e = true ↔ same := sameContent_iff
    have hnum : ∀ x : CueCounts, (channelNum ((cueOf (kept x) d.avail.toNat).bind CueEntry.channel) : Int) = num := fun x => by
      rw [show cueOf (kept x) d.avail.toNat = some e from he, Option.bind_some, channelNum_eq]
    refine ⟨fun hsm hmode => ?_, fun hsm hmode => ?_, fun hsm hmode hch hlate hlen => ?_,
      fun n c hsm hmode hch hn hav hlate hw hlen => ?_⟩
    · have hj : judgeCue d .host b (s.setEv {}) =
          ((kept { k with repeats := min 65535 (k.repeats + 1) }).setEv {}, .repeated) := by
        refine hout.trans ((judgeOut_same (s := s.setEv {}) (c := outCue d .host b) he (hsame.mpr hsm)).trans ((if_neg fun h => hmode h.1).trans ?_))
        rw [countRepeat_eq]
        rfl
      obtain ⟨t, hstep, hreply, hafter, -⟩ := cue_request tag hs hm hrun hb hj (hnum _) rfl (.inr rfl)
      exact ⟨t, hstep, hreply, hafter⟩
    · have hj : judgeCue d .host b (s.setEv {}) =
          ((kept { k with lateRevision := min 65535 (k.lateRevision + 1) }).setEv {}, .lateRevision) := by
        refine hout.trans ((judgeOut_late (s := s.setEv {}) (c := outCue d .host b) he (mt hsame.mp hsm) hmode).trans ?_)
        simp only [count_eq]
        rfl
      obtain ⟨t, hstep, hreply, hafter, -⟩ := cue_request tag hs hm hrun hb hj (hnum _) rfl (.inr rfl)
      exact ⟨t, hstep, hreply, hafter⟩
    · have hj : judgeCue d .host b (s.setEv {}) = (({ s with splice := { s.splice with
          cues := others
          counts := { k with revision := min 65535 (k.revision + 1), missed := min 65535 (k.missed + 1) } } } : State).setEv
            { items := [19] }, .missed) :=
        hout.trans ((judgeOut_revised (s := s.setEv {}) (c := outCue d .host b) he (mt hsame.mp hsm) hmode).trans
          (reviseCue_unbound (s := s.setEv {}) (c := outCue d .host b) hch (not_le.mpr hlate)))
      obtain ⟨t, hstep, hreply, hafter, -⟩ := cue_request tag hs hm hrun hb hj (channelNum_none (cueOf_removeCue avail s)) rfl
        (.inl hlen)
      exact ⟨t, hstep, hreply, hafter⟩
    · intro clip
      have hj : judgeCue d .host b (s.setEv {}) = (({ s with
          clips := { s.clips with clips := s.clips.clips.set c.clip { clip with uses := clip.uses - 1 } }
          splice := { s.splice with
            channels := s.splice.channels.set n none
            cues := others
            counts := { k with revision := min 65535 (k.revision + 1), missed := min 65535 (k.missed + 1) } } } : State).setEv
            { items := [19], splice := [⟨n, avail, c.service, 4, 0, c.read, s.splice.lastStarted.getD 0⟩] }, .missed) := by
        refine hout.trans ((judgeOut_revised (s := s.setEv {}) (c := outCue d .host b) he (mt hsame.mp hsm) (by rw [hmode]; decide)).trans
          ((reviseCue_armed (s := s.setEv {}) (c := outCue d .host b) hch hn hav (not_le.mpr hlate) hw).trans ?_))
        rw [show (outCue d .host b).avail = avail from rfl, show others = s.splice.cues.filter (fun x => x.avail ≠ avail) from rfl, ← hav]
        exact congrArg (fun u => (u, CueOutcome.missed)) (cueResult_released (s.setEv {}) n c _ [19])
      obtain ⟨t, hstep, hreply, hafter, hnoticed⟩ := cue_request tag hs hm hrun hb hj (channelNum_none (cueOf_removeCue avail s)) rfl
        (.inl hlen)
      exact ⟨t, hstep, hreply, hafter, hnoticed.of_eq (spliceBodies_one _)⟩

end

/-- Settles O54: a request by what judging leaves with the base as the carrying sequence, judging by the steps of R113 to R117. -/
theorem cueOutcomes : Obligations.CueOutcomes := by
  refine ⟨fun s tag d hs => ?_, rfl, fun s d source carrying => ?_⟩
  · intro cue avail k
    refine ⟨fun hbad => request_turnedDown 0x40 tag _ hs (if_pos ((malformed_iff d).mpr hbad)), fun ha h1 h3 hout => ?_⟩
    have hm := malformed_not ha h1 h3 hout
    refine ⟨fun hrun => request_turnedDown 0x40 tag _ hs ((if_neg hm).trans ?_), fun b hrun hb => ?_⟩
    · show (match s.em.mode, s.store.base with | .running, some b => _ | _, _ => _) = _
      cases hmode : s.em.mode with
      | running => exact absurd hmode hrun
      | off => rfl
      | anchoring => rfl
    obtain ⟨hmissed, hmoved, hcancelled⟩ := cue_requests tag hs hm hrun hb
    refine ⟨fun hlen => ?_, hmissed, fun v p n hk => (cue_requests_out tag hs hm hrun hb hk).1 v p n, hmoved,
      fun e hk => (cue_requests_out tag hs hm hrun hb hk).2 e, hcancelled⟩
    intro r num
    exact cue_request (u := r.1) (e := r.1.ev) tag hs hm hrun hb rfl (channelNum_eq _) rfl (.inl hlen)
  · intro r avail service k inTime known free usable result others
    refine ⟨fun hk hno ht => ?_, fun hk hno ht => ?_, fun e hk he hmode hserv hstart hdur => ?_, fun hk h => ?_, fun hk h => ?_,
      fun e n c hk he hmode hch hn hav hw => ?_, fun h => (judgeCue_sourced d carrying h).network⟩
    · intro entered new unfilled
      have hplaced := judgeOut_placed (c := outCue d source carrying) hno ht
      simp only [newEntry_outCue] at hplaced
      rw [← judgeCue_out hk] at hplaced
      obtain ⟨hunknown, hfull, hroom⟩ := hplaced
      refine ⟨hunknown, hfull, fun hkn hl => ⟨(hroom hkn hl).1, fun p hp => ?_⟩⟩
      obtain ⟨hwait, hunusable, harm⟩ := (hroom hkn hl).2 p hp
      refine ⟨hwait, hunusable, fun n hb hn hu => ?_⟩
      have hr := harm n hb hn hu
      exact ⟨congrArg Prod.snd hr, congrArg Prod.fst hr⟩
    · refine (judgeCue_out hk).trans ((judgeOut_new (c := outCue d source carrying) hno).trans
        ((judgeNewCue_late (s := s) (c := outCue d source carrying) ht).trans ?_))
      exact congrArg (fun u => (u, CueOutcome.missed)) (missed_eq s)
    · intro turned again unfilled
      have hsame : sameContent (outCue d source carrying) e = true := sameContent_iff.mpr ⟨hserv, hstart, hdur⟩
      refine ⟨fun ht => ?_, fun ht hkn => ?_, fun ht hkn => ?_⟩
      · refine (judgeCue_out hk).trans ((judgeOut_same (c := outCue d source carrying) he hsame).trans ((if_neg fun h => ht h.2).trans ?_))
        rw [countRepeat_eq]
        exact congrArg (fun u => (u, CueOutcome.repeated)) (cueResult_quiet s _ _ _).symm
      · exact (judgeCue_out hk).trans ((judgeOut_again (c := outCue d source carrying) he hmode hsame ht).1 hkn)
      · have hagain := (judgeOut_again (c := outCue d source carrying) he hmode hsame ht).2 hkn
        rw [← judgeCue_out hk] at hagain
        refine ⟨hagain.1, fun p hp => ?_⟩
        obtain ⟨hwait, hunusable, harm⟩ := hagain.2 p hp
        refine ⟨hwait, hunusable, fun n hb hn hu => ?_⟩
        have hr := harm n hb hn hu
        have hea : e.avail = avail := (cueOf_some he).2
        refine ⟨congrArg Prod.snd hr, (congrArg Prod.fst hr).trans ?_⟩
        unfold boundState
        rw [hea, hserv]
        rfl
    · exact (judgeCue_in hk).trans (judgeIn_ignored fun e q he hq => h e q he hq)
    · exact (judgeCue_cancel hk).trans (judgeCancel_ignored h)
    · intro clip
      have hr := (judgeCue_cancel (source := source) (carrying := carrying) hk).trans (judgeCancel_armed he hmode hch hn hav hw)
      refine ⟨congrArg Prod.snd hr, (congrArg Prod.fst hr).trans ?_⟩
      dsimp only
      rw [show others = s.splice.cues.filter (fun x => x.avail ≠ avail) from rfl, show avail = c.avail from hav.symm,
        show d.avail.toNat = c.avail from hav.symm]
      refine (cueResult_released s n c _ []).trans ?_
      rw [List.append_nil]

end Sys2Proof.Machine
end

section
/-! PROOF of the missing pulse and of the pulse that qualifies its input in HOLDOVER (O33). The facts about the parts of a pulse stand first:
what it makes of its input's record, what it makes of the governing input, and what it records. -/

namespace Sys2Proof.Machine
open Sys2Proof

theorem exec_missingPulse (n : InputId) (s : State) : exec (.missingPulse n) s = event (missingEffect n) s := rfl

/-! ## Input records -/

section
variable {s : State} {n : InputId}

@[simp] theorem setInput_setInput (n : InputId) (x y : InputRec) (s : State) : setInput n y (setInput n x s) = setInput n y s := by
  show s.setClock { s.clock with inputs := (s.clock.inputs.set n x).set n y } = _
  rw [PerInput.set_set]
  rfl

@[simp] theorem inputRec_setInput (n : InputId) (r : InputRec) (s : State) : inputRec (setInput n r s) n = r := PerInput.get_set ..

theorem inputRec_setInput_ne {m : InputId} (h : m ≠ n) (r : InputRec) (s : State) : inputRec (setInput n r s) m = inputRec s m :=
  PerInput.get_set_ne _ h _

/-- A change of an input's state to another (R13, R20). -/
theorem setInputMode_eq {m : InputMode} (h : (s.clock.inputs.get n).mode ≠ m) : setInputMode n m s =
    (s.setClock { s.clock with
      inputs := s.clock.inputs.set n { s.clock.inputs.get n with mode := m }
      forced := if m ≠ .qualified ∧ s.clock.forced = some n then none else s.clock.forced }).setEv
        { s.ev with inputNotes := s.ev.inputNotes.set n true } := by
  unfold setInputMode
  rw [if_neg (by exact h)]
  dsimp only
  by_cases hf : m ≠ .qualified ∧ s.clock.forced = some n
  · rw [if_pos hf]
    exact if_pos hf
  · rw [if_neg hf]
    exact if_neg hf

/-- The part with the record of an input that has changed its state. -/
def changedInput (n : InputId) (x : InputRec) (f : Option InputId) (s : State) : State :=
  (s.setClock { s.clock with
    inputs := s.clock.inputs.set n x
    forced := f }).setEv { s.ev with inputNotes := s.ev.inputNotes.set n true }

/-- Entry to SUSPECT of an input in another state (R7). -/
theorem enterSuspect_eq {x : InputRec} (h : x.mode ≠ .suspect) : enterSuspect n (setInput n x s) =
    changedInput n { x with mode := .suspect, suspectStart := s.clock.time, good := 0 }
      (if s.clock.forced = some n then none else s.clock.forced) s := by
  unfold enterSuspect
  rw [inputRec_setInput, setInput_setInput, setInputMode_eq (by rw [setInput_inputs, PerInput.get_set]; exact h), setInput_inputs,
    PerInput.get_set, PerInput.set_set]
  exact congrArg (fun f => changedInput n { x with mode := .suspect, suspectStart := s.clock.time, good := 0 } f s)
    (if_congr (and_iff_right nofun) rfl rfl)

/-- Entry to QUALIFIED of an input in another state (R6, R8). -/
theorem enterQualified_eq {x : InputRec} (h : x.mode ≠ .qualified) : enterQualified n (setInput n x s) =
    changedInput n { x with mode := .qualified, good := 0, disagree := 0 } s.clock.forced s := by
  unfold enterQualified
  rw [inputRec_setInput, setInput_setInput, setInputMode_eq (by rw [setInput_inputs, PerInput.get_set]; exact h), setInput_inputs,
    PerInput.get_set, PerInput.set_set, if_neg (fun h => h.1 rfl)]
  rfl

/-! ## The governing input (R12) -/

/-- The choice depends on the force, the governing input, the states of the inputs and the settings. -/
theorem chooseGoverning_congr {t : State} (hf : t.clock.forced = s.clock.forced) (hg : t.clock.governing = s.clock.governing)
    (hq : ∀ m, (t.clock.inputs.get m).mode = (s.clock.inputs.get m).mode) (hl : t.live = s.live) :
    chooseGoverning t = chooseGoverning s := by
  have hqualified : isQualified t = isQualified s := funext fun m => congrArg (· == InputMode.qualified) (hq m)
  have hbetter : betterInput t = betterInput s := by
    funext best m
    unfold betterInput inputPriority
    rw [hl]
  unfold chooseGoverning bestQualified
  rw [hqualified, hbetter, hf, hg, hl]

/-- The one QUALIFIED input is chosen. -/
theorem chooseGoverning_lone (hq : (s.clock.inputs.get n).mode = .qualified) (ho : ∀ m, m ≠ n → (s.clock.inputs.get m).mode ≠ .qualified) :
    chooseGoverning s = some n := by
  have hbest : bestQualified s = some n := bestQualified_some hq fun m hm h => absurd h (ho m hm)
  have hone : ∀ m, (s.clock.inputs.get m).mode = .qualified → m = n := fun m h => by_contra fun hm => ho m hm h
  unfold chooseGoverning
  split
  case h_1 f hf =>
    rw [hone f (isQualified_iff.mp (Option.filter_eq_some_iff.mp hf).2)]
  case h_2 =>
    split
    case h_1 g hg =>
      obtain ⟨-, hg⟩ := Option.filter_eq_some_iff.mp hg
      simp only [Bool.and_eq_true] at hg
      rw [hone g (isQualified_iff.mp hg.2)]
    case h_2 => exact hbest

theorem chooseGoverning_none (h : ∀ m, (s.clock.inputs.get m).mode ≠ .qualified) : chooseGoverning s = none := by
  cases hc : chooseGoverning s with
  | none => rfl
  | some m => exact absurd (chooseGoverning_qualified hc) (h m)

theorem regovern_settled (h : chooseGoverning s = s.clock.governing) : regovern s = s := if_pos h

/-! ## What a pulse makes of its input's record (R4 to R8) -/

/-- A pulse of an input that is neither to be seeded nor to be proved anew. -/
theorem pulseEffect_heard (hon : s.live.clock.enabled.get n = true) (ha : (s.clock.inputs.get n).mode ≠ .absent)
    (hd : (s.clock.inputs.get n).mode ≠ .disqualified) (hr : (s.clock.inputs.get n).reseed = false) :
    let e := pulseError s.clock.time
    let number := (s.clock.inputs.get n).received
    let u := pulseTransition n (outOfBand s n e) (wrongNumber s number) (filterPulse n e (countPulse n e (pulseGood s n e) s))
    let v := if pulseGood s n e then crossCheck n u else u
    pulseEffect n s = recordPulse n e (pulseWillStep n e v) number (governPulse n e number v) := by
  intro e number u v
  have hon' : inputEnabled s n = true := hon
  have henters : pulseEnters (inputRec s n) = false := by simp [pulseEnters, inputRec, ha, hd]
  have hreseed : meetsReseed (inputRec s n) = false := by simp [meetsReseed, inputRec, hr]
  simp only [pulseEffect, hon', if_true, henters, hreseed, Bool.not_false, Bool.true_and, Bool.and_true]
  rfl

/-- The filter moved by a pulse (R5). -/
def filtered (s : State) (r : InputRec) (e : Int) : Int := r.eps + (e * 256 - r.eps) / (2 : Int) ^ filterShift s

variable {r : InputRec} {e : Int} {good : Bool}

theorem outOfBand_setInput {x : InputRec} (h : x.eps = (s.clock.inputs.get n).eps) (e : Int) :
    outOfBand (setInput n x s) n e = outOfBand s n e := by
  unfold outOfBand epsOf
  rw [inputRec_setInput, h]
  rfl

/-- The filter of an input that is neither to be seeded nor DISQUALIFIED, once its pulse is counted. -/
theorem filterPulse_counted (x : InputRec) (heps : x.eps = (s.clock.inputs.get n).eps) (hm : x.mode ≠ .absent ∧ x.mode ≠ .disqualified)
    (hseed : x.reseed = false) : filterPulse n e (setInput n x s) =
      if x.mode ≠ .qualifying ∧ outOfBand s n e = true then setInput n x s else setInput n { x with eps := filtered s x e } s := by
  unfold filterPulse
  dsimp only
  rw [inputRec_setInput, outOfBand_setInput heps]
  simp only [setInput_setInput]
  have hseeded : (pulseEnters x || meetsReseed x) = false := by simp [pulseEnters, meetsReseed, hm.1, hm.2, hseed]
  rw [hseeded]
  exact (if_neg Bool.false_ne_true).trans (if_neg hm.2)

/-- A pulse of a QUALIFYING input. -/
theorem heard_qualifying (hr : s.clock.inputs.get n = r) (hm : r.mode = .qualifying) (hseed : r.reseed = false) :
    filterPulse n e (countPulse n e good s) = setInput n { r with
      good := if good then min 15 (r.good + 1) else 0, missing := 0, expiries := 0, eps := filtered s r e } s := by
  have hcount : countPulse n e good s = setInput n { r with
      good := if good then min 15 (r.good + 1) else 0, missing := 0, expiries := 0 } s := by
    simp [countPulse, inputRec, hr, hm, meetsReseed, hseed, sat_eq_min]
  rw [hcount]
  refine (filterPulse_counted { r with good := if good then min 15 (r.good + 1) else 0, missing := 0, expiries := 0 } (by rw [hr])
    ⟨ne_of_eq_of_ne hm (by decide), ne_of_eq_of_ne hm (by decide)⟩ hseed).trans ?_
  exact if_neg fun h => h.1 hm

/-- A pulse of a QUALIFIED input, which moves its filter inside the suspect band. -/
theorem heard_qualified (hr : s.clock.inputs.get n = r) (hm : r.mode = .qualified) (hseed : r.reseed = false) :
    filterPulse n e (countPulse n e good s) = setInput n { r with
      missing := 0, expiries := 0, eps := if outOfBand s n e then r.eps else filtered s r e } s := by
  have hcount : countPulse n e good s = setInput n { r with missing := 0, expiries := 0 } s := by
    simp [countPulse, inputRec, hr, hm]
  rw [hcount]
  refine (filterPulse_counted { r with missing := 0, expiries := 0 } (by rw [hr])
    ⟨ne_of_eq_of_ne hm (by decide), ne_of_eq_of_ne hm (by decide)⟩ hseed).trans ?_
  cases outOfBand s n e
  · exact if_neg fun h => by cases h.2
  · exact if_pos ⟨by rw [hm]; decide, rfl⟩

/-- A pulse of a SUSPECT input beyond the band. -/
theorem heard_suspect (hr : s.clock.inputs.get n = r) (hm : r.mode = .suspect) (hseed : r.reseed = false) (hout : outOfBand s n e = true) :
    filterPulse n e (countPulse n e good s) = setInput n { r with good := 0, missing := 0, expiries := 0 } s := by
  have hcount : countPulse n e good s = setInput n { r with good := 0, missing := 0, expiries := 0 } s := by
    simp [countPulse, inputRec, hr, hm, hout]
  rw [hcount]
  refine (filterPulse_counted { r with good := 0, missing := 0, expiries := 0 } (by rw [hr])
    ⟨ne_of_eq_of_ne hm (by decide), ne_of_eq_of_ne hm (by decide)⟩ hseed).trans ?_
  rw [hout]
  exact if_pos ⟨by rw [hm]; decide, rfl⟩

/-! ## What a pulse records (R3) -/

/-- The clock once a pulse is recorded. -/
theorem recordPulse_clock (n : InputId) (e : Int) (stepped : Bool) (number : Option Nat) (s : State) :
    (recordPulse n e stepped number s).clock = { s.clock with
      inputs := s.clock.inputs.set n { s.clock.inputs.get n with
        rawErr := if stepped then 0 else e, lastPulse := some s.clock.time, lastSecond := number.or (s.clock.inputs.get n).lastSecond,
        received := none } } := by
  unfold recordPulse
  cases number <;> rfl

/-- A record is no occasion of a CLOCK notice. -/
theorem recordPulse_notices (n : InputId) (e : Int) (stepped : Bool) (number : Option Nat) (s : State) :
    clockNotices (recordPulse n e stepped number s) = clockNotices s := by
  have hmode : ∀ m, ((recordPulse n e stepped number s).clock.inputs.get m).mode = (s.clock.inputs.get m).mode := fun m => by
    rw [recordPulse_clock]
    dsimp only
    by_cases hm : m = n
    · rw [hm, PerInput.get_set]
    · rw [PerInput.get_set_ne _ hm]
  unfold clockNotices clockNotice
  simp only [hmode]
  rfl

/-- The CLOCK notice of one input's change (R20). -/
theorem clockNotices_one {n : InputId} (h : s.ev.inputNotes = ({} : Report).inputNotes.set n true) :
    clockNotices s = [clockNotice s (some n)] := by
  have hone : InputId.all.filter s.ev.inputNotes.get = [n] := by rw [h]; cases n <;> rfl
  unfold clockNotices
  rw [hone]
  rfl

/-! ## The governing pulse (R15, R16, R19) -/

variable {number : Option Nat} {v g : State}

theorem setSecondCount_set (h : s.clock.secondsSet = true) : setSecondCount number s = s := by
  unfold setSecondCount
  split
  · exact if_neg fun hc => by rw [h] at hc; exact absurd hc.2 (by decide)
  · rfl

theorem setSecondCount_mode (number : Option Nat) (s : State) : (setSecondCount number s).clock.mode = s.clock.mode := by
  unfold setSecondCount
  split
  · split
    · dsimp only
      split
      · rfl
      · unfold stepEvent stepEmission reAnchorUnlessOff
        dsimp only [moveDriveTimes, State.setDrive_clock]
        split
        · rfl
        · rw [enterAnchoring_frame]
          rfl
    · rfl
  · rfl

/-- A pulse of the input that governs in LOCKED. -/
theorem governPulse_locked (hg : regovern v = g) (hn : g.clock.governing = some n) (hm : g.clock.mode = .locked) :
    governPulse n e number v = slewClock n (setSecondCount number (judgeFit g)) ∧ pulseWillStep n e v = false := by
  have hstep : pulseSteps g e = false := by simp [pulseSteps, hm]
  have hmode : (setSecondCount number (judgeFit g)).clock.mode = .locked := by rw [setSecondCount_mode, judgeFit_clock, hm]
  unfold governPulse pulseWillStep
  simp only [hg, hn, hstep, if_true, Bool.false_eq_true, if_false, hm, hmode, reduceCtorEq, or_true, Bool.and_false, and_self]

/-- The lock count at a governing pulse in ACQUIRING (R15). -/
theorem countLock_eq (n : InputId) (s : State) :
    let count := if ((s.clock.inputs.get n).eps / 256).natAbs ≤ s.live.clock.lockWindow then min 60 (s.clock.lockCount + 1) else 0
    countLock n s = if s.live.clock.lockCount ≤ count then
        (s.setClock { s.clock with lockCount := count, mode := .locked, u := 0 }).setEv { s.ev with clockNote := true }
      else s.setClock { s.clock with lockCount := count } := by
  intro count
  have hcount : (if (epsOf s n).natAbs ≤ s.live.clock.lockWindow then sat 60 (s.clock.lockCount + 1) else 0) = count := by
    rw [sat_eq_min]
    rfl
  unfold countLock
  dsimp only
  rw [hcount]
  rfl

/-- A pulse of the input that governs in ACQUIRING, within the step threshold and with the seconds set. -/
theorem governPulse_acquiring (hg : regovern v = g) (hn : g.clock.governing = some n) (hm : g.clock.mode = .acquiring)
    (he : e.natAbs ≤ g.live.clock.stepThreshold) (hset : g.clock.secondsSet = true) :
    governPulse n e number v = slewClock n (judgeFit (countLock n g)) ∧ pulseWillStep n e v = false := by
  have hstep : pulseSteps g e = false := by simp [pulseSteps, not_lt.mpr he]
  have hcounted : (countLock n g).clock.secondsSet = true ∧ ((countLock n g).clock.mode = .acquiring ∨ (countLock n g).clock.mode = .locked) := by
    rw [countLock_eq]
    dsimp only
    generalize (if ((g.clock.inputs.get n).eps / 256).natAbs ≤ g.live.clock.lockWindow then min 60 (g.clock.lockCount + 1) else 0) = count
    split
    · exact ⟨hset, .inr rfl⟩
    · exact ⟨hset, .inl hm⟩
  have hsecond : setSecondCount number (judgeFit (countLock n g)) = judgeFit (countLock n g) :=
    setSecondCount_set (by rw [judgeFit_clock]; exact hcounted.1)
  unfold governPulse pulseWillStep
  simp only [hg, hn, hstep, if_true, Bool.false_eq_true, if_false, hm, hsecond, judgeFit_clock, hcounted.2, Bool.and_false, and_self]

/-- A pulse of an input that does not govern. -/
theorem governPulse_other (hg : regovern v = g) (hn : g.clock.governing ≠ some n) :
    governPulse n e number v = judgeFit g ∧ pulseWillStep n e v = false := by
  unfold governPulse pulseWillStep
  simp [hg, hn]

/-- The clock once a governing pulse has steered it (R19). -/
theorem slewClock_clock (n : InputId) (s : State) :
    let p := clamp (-50) 50 (-(((s.clock.inputs.get n).eps / 256).tdiv ((2 : Int) ^ s.live.clock.slewShift)))
    (slewClock n s).clock = { s.clock with
      slew := p, slewPos := 0, slewLeft := p.natAbs,
      corr := clamp (-2000000) 2000000 (s.clock.corr + (p * 100000).tdiv ((2 : Int) ^ s.live.clock.learnShift)) } := rfl

theorem regovern_changed {c : Option InputId} (hc : chooseGoverning s = c) (h : c ≠ s.clock.governing) :
    regovern s = actOnGoverning (noteClock (s.setClock { s.clock with governing := c })) := by
  rw [← hc] at h ⊢
  exact if_neg h

/-- LOCKED ends where no input governs (R17). -/
theorem regovern_lost (hc : chooseGoverning s = none) (hg : s.clock.governing ≠ none) (hm : s.clock.mode = .locked) :
    regovern s = enterClock .holdover (noteClock (s.setClock { s.clock with governing := none })) := by
  rw [regovern_changed hc hg.symm]
  unfold actOnGoverning
  rw [show (noteClock (s.setClock { s.clock with governing := none })).clock.mode = .locked from hm]
  rfl

/-- An input comes to govern in HOLDOVER or EXPIRED (R17). -/
theorem regovern_found (hc : chooseGoverning s = some n) (hg : s.clock.governing = none)
    (hm : s.clock.mode = .holdover ∨ s.clock.mode = .expired) : regovern s =
      enterClock (if ((s.clock.inputs.get n).eps / 256).natAbs ≤ s.live.clock.relockWindow then .locked else .acquiring)
        (noteClock (s.setClock { s.clock with governing := some n })) := by
  rw [regovern_changed hc (by rw [hg]; nofun)]
  generalize hu : noteClock (s.setClock { s.clock with governing := some n }) = u
  have hn : u.clock.governing = some n := by rw [← hu]; rfl
  have hwithin : withinRelock u n = decide (((s.clock.inputs.get n).eps / 256).natAbs ≤ s.live.clock.relockWindow) := by rw [← hu]; rfl
  have hmode : u.clock.mode = s.clock.mode := by rw [← hu]; rfl
  unfold actOnGoverning
  rw [hn, hmode]
  rcases hm with hm | hm <;>
  · rw [hm]
    dsimp only
    rw [hwithin]
    simp only [decide_eq_true_eq]
    split <;> rfl

theorem noneQualified_set (ho : ∀ m, m ≠ n → (s.clock.inputs.get m).mode ≠ .qualified) {x : InputRec} (hx : x.mode ≠ .qualified) (m : InputId) :
    ((s.clock.inputs.set n x).get m).mode ≠ .qualified := by
  by_cases hm : m = n
  · rw [hm, PerInput.get_set]
    exact hx
  · rw [PerInput.get_set_ne _ hm]
    exact ho m hm

end

/-! ## The missing pulse (R4, R7, R17) -/

/-- The clock in HOLDOVER, once the one QUALIFIED input has gone SUSPECT: before Emission judges its fitness. -/
def heldOverState (n : InputId) (x : InputRec) (f : Option InputId) (s : State) : State :=
  (s.setClock { s.clock with
    mode := .holdover, governing := none, forced := f, u := 0, slew := 0, slewPos := 0, slewLeft := 0,
    boundary := max s.clock.boundary (boundaryBefore s.clock.time), inputs := s.clock.inputs.set n x }).setEv
      { s.ev with
        clockNote := true
        inputNotes := s.ev.inputNotes.set n true
        items := s.ev.items ++ [1] }

theorem regovern_changedInput_lost {s : State} {n : InputId} {x : InputRec} (f : Option InputId) (hm : s.clock.mode = .locked)
    (hg : s.clock.governing = some n) (hx : x.mode ≠ .qualified) (ho : ∀ m, m ≠ n → (s.clock.inputs.get m).mode ≠ .qualified) :
    regovern (changedInput n x f s) = heldOverState n x f s := by
  have hc : chooseGoverning (changedInput n x f s) = none := chooseGoverning_none (s := changedInput n x f s) (noneQualified_set ho hx)
  have hn : (changedInput n x f s).clock.governing ≠ none := ne_of_eq_of_ne hg nofun
  rw [regovern_lost hc hn hm]
  simp only [enterClock, noteClock, changedInput, heldOverState, dropSlew, occur, State.setClock, State.setEv]

theorem missingTransition_lost {s : State} {n : InputId} (x : InputRec) (hm : s.clock.mode = .locked) (hg : s.clock.governing = some n)
    (hq : x.mode = .qualified) (ho : ∀ m, m ≠ n → (s.clock.inputs.get m).mode ≠ .qualified) :
    regovern (missingTransition n (setInput n x s)) = heldOverState n
      { x with mode := .suspect, suspectStart := s.clock.time, good := 0 } (if s.clock.forced = some n then none else s.clock.forced) s := by
  have hsuspect : missingTransition n (setInput n x s) = enterSuspect n (setInput n x s) := by
    unfold missingTransition
    rw [inputRec_setInput]
    simp only [hq]
  rw [hsuspect, enterSuspect_eq (ne_of_eq_of_ne hq nofun)]
  exact regovern_changedInput_lost _ hm hg nofun ho

theorem missingEffect_lost {s : State} {n : InputId} {p : Int} (hon : s.live.clock.enabled.get n = true) (hm : s.clock.mode = .locked)
    (hg : s.clock.governing = some n) (hq : (s.clock.inputs.get n).mode = .qualified)
    (ho : ∀ m, m ≠ n → (s.clock.inputs.get m).mode ≠ .qualified) (hp : (s.clock.inputs.get n).lastPulse = some p)
    (hx : (s.clock.inputs.get n).expiries = 0) (hdue : p + 15000000 ≤ s.clock.time) :
    missingEffect n s = judgeFit (heldOverState n { s.clock.inputs.get n with
      mode := .suspect, suspectStart := s.clock.time, good := 0, missing := min 3 ((s.clock.inputs.get n).missing + 1), expiries := 1 }
      (if s.clock.forced = some n then none else s.clock.forced) s) := by
  have hmissing : missingDue s n = true := by
    unfold missingDue
    simp only [inputRec, hp, hx, hq, Nat.zero_mul, Nat.cast_zero, add_zero, decide_eq_true hdue, Bool.and_true]
    rw [show inputEnabled s n = true from hon]
    rfl
  have hrec : inputRec s n = s.clock.inputs.get n := rfl
  refine (if_pos hmissing).trans (congrArg judgeFit ?_)
  rw [hrec, hx, sat_eq_min]
  exact missingTransition_lost { s.clock.inputs.get n with missing := min 3 ((s.clock.inputs.get n).missing + 1), expiries := 1 } hm hg hq ho

/-! ## A pulse that proves its input (R6, R17 to R19) -/

section
variable {s : State} {n : InputId} {x : InputRec} {e : Int} {out wrong : Bool}

theorem wrongNumber_unlocked (h : s.clock.mode ≠ .locked) (number : Option Nat) : wrongNumber s number = false := by
  cases number with
  | none => rfl
  | some k => simp [wrongNumber, h]

theorem pulseGood_intro {last : Int} (hp : (s.clock.inputs.get n).lastPulse = some last) (h1 : 9999000 ≤ s.clock.time - last)
    (h2 : s.clock.time - last ≤ 10001000) (hj : (e - (s.clock.inputs.get n).rawErr).natAbs ≤ s.live.clock.jitter)
    (hw : wrongNumber s (s.clock.inputs.get n).received = false) : pulseGood s n e = true := by
  unfold pulseGood
  simp only [inputRec, hp, hw, decide_eq_true h1, decide_eq_true h2, Bool.not_false, Bool.and_true, Bool.true_and]
  exact decide_eq_true hj

theorem transition_proving (hm : x.mode = .qualifying) (h : x.good < s.live.clock.entryCount) :
    pulseTransition n out wrong (setInput n x s) = setInput n x s := by
  unfold pulseTransition
  rw [inputRec_setInput]
  simp only [hm]
  exact if_neg (not_le.mpr h)

theorem transition_proved (hm : x.mode = .qualifying) (h : s.live.clock.entryCount ≤ x.good) :
    pulseTransition n out wrong (setInput n x s) = changedInput n { x with mode := .qualified, good := 0, disagree := 0 } s.clock.forced s := by
  refine Eq.trans ?_ (enterQualified_eq (ne_of_eq_of_ne hm nofun))
  unfold pulseTransition
  rw [inputRec_setInput]
  simp only [hm]
  exact if_pos h

theorem crossCheck_free (h : s.clock.governing = none) : crossCheck n s = s := by
  unfold crossCheck
  rw [h]

/-- The clock after a pulse of an input that does not govern. -/
theorem recorded_other (n : InputId) (e : Int) (number : Option Nat) (g : State) : (recordPulse n e false number (judgeFit g)).clock = { g.clock with
    inputs := g.clock.inputs.set n { g.clock.inputs.get n with
      rawErr := e, lastPulse := some g.clock.time, lastSecond := number.or (g.clock.inputs.get n).lastSecond, received := none } } := by
  rw [recordPulse_clock, judgeFit_clock]
  rfl

/-- The clock after a pulse that steers it. -/
theorem recorded_steered (n : InputId) (e : Int) (number : Option Nat) (g : State) :
    let p := clamp (-50) 50 (-(((g.clock.inputs.get n).eps / 256).tdiv ((2 : Int) ^ g.live.clock.slewShift)))
    (recordPulse n e false number (slewClock n (judgeFit g))).clock = { g.clock with
      slew := p, slewPos := 0, slewLeft := p.natAbs,
      corr := clamp (-2000000) 2000000 (g.clock.corr + (p * 100000).tdiv ((2 : Int) ^ g.live.clock.learnShift)),
      inputs := g.clock.inputs.set n { g.clock.inputs.get n with
        rawErr := e, lastPulse := some g.clock.time, lastSecond := number.or (g.clock.inputs.get n).lastSecond, received := none } } := by
  intro p
  rw [recordPulse_clock, slewClock_clock, judgeFit_clock, judgeFit_live]
  rfl

theorem steered_notices (n : InputId) (e : Int) (number : Option Nat) (g : State) :
    clockNotices (recordPulse n e false number (slewClock n (judgeFit g))) = clockNotices g := by
  rw [recordPulse_notices]
  exact (show clockNotices (slewClock n (judgeFit g)) = clockNotices (judgeFit g) from rfl).trans (judgeFit_clockNotices g)

theorem other_notices (n : InputId) (e : Int) (number : Option Nat) (g : State) :
    clockNotices (recordPulse n e false number (judgeFit g)) = clockNotices g := by
  rw [recordPulse_notices, judgeFit_clockNotices]

end

/-- The CLOCK notices of an event. -/
theorem event_clockNotices {f : State → State} {s t u : State} (hp : Powered s) (hf : f (s.setEv {}) = u) (hl : u.live = s.live)
    (hlink : u.link = s.link) (ha : u.alarms = s.alarms) (h : event f s = .next t) : Noticed 1 (clockNotices u) s t := by
  have hn := noticed_event (kind := 1) (by decide) hp hf hl (congrArg _ hlink) (congrArg _ ha) h
  rwa [bodiesOf_judgePermission (by decide), bodiesOf_clock] at hn

/-- The end of a pulse, with its CLOCK notices. -/
theorem pulse_left {n : InputId} {s : State} (hp : Powered s) : ∃ t, exec (.timePulse n) s = .next t ∧ Left (pulseEffect n (s.setEv {})) t ∧
    Noticed 1 (clockNotices (pulseEffect n (s.setEv {}))) s t := by
  obtain ⟨t, hstep, hleft⟩ := event_left hp (f := pulseEffect n) rfl
  have honly : pulseEffect n (s.setEv {}) = _ := pulseEffect_only n (s.setEv {})
  refine ⟨t, (exec_timePulse n s).trans hstep, hleft, event_clockNotices hp rfl ?_ ?_ ?_ hstep⟩
  · rw [honly]; rfl
  · rw [honly]; rfl
  · rw [honly]; rfl

section
variable {s : State} {n : InputId} {r : InputRec} {last e : Int}

/-- A good pulse of a QUALIFYING input, where no input governs. -/
theorem pulseEffect_proving (hon : s.live.clock.enabled.get n = true) (hg : s.clock.governing = none) (hl : s.clock.mode ≠ .locked)
    (hr : s.clock.inputs.get n = r) (hm : r.mode = .qualifying) (hseed : r.reseed = false)
    (hp : r.lastPulse = some last) (h1 : 9999000 ≤ s.clock.time - last) (h2 : s.clock.time - last ≤ 10001000)
    (he : pulseError s.clock.time = e) (hj : (e - r.rawErr).natAbs ≤ s.live.clock.jitter) :
    let x : InputRec := { r with good := min 15 (r.good + 1), missing := 0, expiries := 0, eps := filtered s r e }
    let y : InputRec := { x with mode := .qualified, good := 0, disagree := 0 }
    (min 15 (r.good + 1) < s.live.clock.entryCount → pulseEffect n s =
      recordPulse n e (pulseWillStep n e (setInput n x s)) r.received (governPulse n e r.received (setInput n x s))) ∧
    (s.live.clock.entryCount ≤ min 15 (r.good + 1) →
      let v := changedInput n y s.clock.forced s
      pulseEffect n s = recordPulse n e (pulseWillStep n e v) r.received (governPulse n e r.received v)) := by
  intro x y
  subst hr
  have hgood : pulseGood s n (pulseError s.clock.time) = true :=
    pulseGood_intro hp h1 h2 (by rw [he]; exact hj) (wrongNumber_unlocked hl _)
  have heffect := pulseEffect_heard hon (ne_of_eq_of_ne hm nofun) (ne_of_eq_of_ne hm nofun) hseed
  dsimp only at heffect
  rw [hgood, heard_qualifying rfl hm hseed, he] at heffect
  simp only [if_true] at heffect
  refine ⟨fun h => ?_, fun h => ?_⟩
  · rw [heffect, transition_proving (x := x) hm h, crossCheck_free (s := setInput n x s) hg]
  · rw [heffect, transition_proved (x := x) hm h]
    rw [crossCheck_free (s := changedInput n y s.clock.forced s) hg]

/-- The part once an input has come to govern in HOLDOVER or EXPIRED, with its clock LOCKED, or ACQUIRING anew. -/
def foundState (n : InputId) (y : InputRec) (m : ClockMode) (s : State) : State :=
  enterClock m (noteClock ((changedInput n y s.clock.forced s).setClock { (changedInput n y s.clock.forced s).clock with governing := some n }))

theorem regovern_proved {y : InputRec} (hg : s.clock.governing = none) (hm : s.clock.mode = .holdover ∨ s.clock.mode = .expired)
    (hy : y.mode = .qualified) (ho : ∀ m, m ≠ n → (s.clock.inputs.get m).mode ≠ .qualified) :
    regovern (changedInput n y s.clock.forced s) =
      foundState n y (if (y.eps / 256).natAbs ≤ s.live.clock.relockWindow then .locked else .acquiring) s := by
  have hc : chooseGoverning (changedInput n y s.clock.forced s) = some n := chooseGoverning_lone
    (by rw [show (changedInput n y s.clock.forced s).clock.inputs = s.clock.inputs.set n y from rfl, PerInput.get_set, hy])
    (fun m hm => by
      rw [show (changedInput n y s.clock.forced s).clock.inputs = s.clock.inputs.set n y from rfl, PerInput.get_set_ne _ hm]
      exact ho m hm)
  refine (regovern_found hc hg hm).trans ?_
  rw [show (changedInput n y s.clock.forced s).clock.inputs = s.clock.inputs.set n y from rfl, PerInput.get_set]
  rfl

/-- The pulse of an input that is still to be proved. -/
theorem governPulse_proving {x : InputRec} {number : Option Nat} (hg : s.clock.governing = none) (hx : x.mode ≠ .qualified)
    (ho : ∀ m, m ≠ n → (s.clock.inputs.get m).mode ≠ .qualified) :
    recordPulse n e (pulseWillStep n e (setInput n x s)) number (governPulse n e number (setInput n x s)) =
      recordPulse n e false number (judgeFit (setInput n x s)) := by
  have hc : chooseGoverning (setInput n x s) = none := chooseGoverning_none (s := setInput n x s) (noneQualified_set ho hx)
  have hstill : regovern (setInput n x s) = setInput n x s := regovern_settled (hc.trans hg.symm)
  obtain ⟨hgovern, hsteps⟩ := governPulse_other (n := n) (e := e) (number := number) hstill (ne_of_eq_of_ne hg nofun)
  rw [hgovern, hsteps]

/-- The pulse of an input that comes to govern within the relock window. -/
theorem governPulse_relocks {y : InputRec} {number : Option Nat} (hg : s.clock.governing = none)
    (hm : s.clock.mode = .holdover ∨ s.clock.mode = .expired) (hset : s.clock.secondsSet = true) (hy : y.mode = .qualified)
    (ho : ∀ m, m ≠ n → (s.clock.inputs.get m).mode ≠ .qualified) (hw : (y.eps / 256).natAbs ≤ s.live.clock.relockWindow) :
    let v := changedInput n y s.clock.forced s
    recordPulse n e (pulseWillStep n e v) number (governPulse n e number v) =
      recordPulse n e false number (slewClock n (judgeFit (foundState n y .locked s))) := by
  intro v
  have hfound : regovern v = foundState n y .locked s := by rw [regovern_proved hg hm hy ho, if_pos hw]
  obtain ⟨hgovern, hsteps⟩ := governPulse_locked (n := n) (e := e) (number := number) hfound rfl rfl
  rw [hgovern, hsteps, setSecondCount_set (by rw [judgeFit_clock]; exact hset)]

/-- The part that has found its input beyond the relock window, with the lock count that its pulse leaves. -/
def acquiringState (n : InputId) (y : InputRec) (s : State) : State :=
  (foundState n y .acquiring s).setClock { (foundState n y .acquiring s).clock with lockCount := 0 }

/-- The pulse of an input that comes to govern beyond the relock window. -/
theorem governPulse_acquires {y : InputRec} {number : Option Nat} (hg : s.clock.governing = none)
    (hm : s.clock.mode = .holdover ∨ s.clock.mode = .expired) (hset : s.clock.secondsSet = true) (hy : y.mode = .qualified)
    (ho : ∀ m, m ≠ n → (s.clock.inputs.get m).mode ≠ .qualified) (hw : s.live.clock.relockWindow < (y.eps / 256).natAbs)
    (hlw : s.live.clock.lockWindow ≤ s.live.clock.relockWindow) (hlc : 1 ≤ s.live.clock.lockCount)
    (he : e.natAbs ≤ s.live.clock.stepThreshold) :
    let v := changedInput n y s.clock.forced s
    recordPulse n e (pulseWillStep n e v) number (governPulse n e number v) =
      recordPulse n e false number (slewClock n (judgeFit (acquiringState n y s))) := by
  intro v
  have hfound : regovern v = foundState n y .acquiring s := by rw [regovern_proved hg hm hy ho, if_neg (not_le.mpr hw)]
  obtain ⟨hgovern, hsteps⟩ := governPulse_acquiring (n := n) (e := e) (number := number) hfound rfl rfl he hset
  have hrec : (foundState n y .acquiring s).clock.inputs.get n = y := PerInput.get_set ..
  have hcount : countLock n (foundState n y .acquiring s) = acquiringState n y s := by
    rw [countLock_eq, hrec]
    dsimp only
    rw [if_neg (show ¬ (y.eps / 256).natAbs ≤ (foundState n y .acquiring s).live.clock.lockWindow from not_le.mpr (hlw.trans_lt hw)),
      if_neg (show ¬ (foundState n y .acquiring s).live.clock.lockCount ≤ 0 from not_le.mpr hlc)]
    rfl
  rw [hgovern, hsteps, hcount]

theorem foundState_locked (y : InputRec) : (foundState n y .locked s).clock = { s.clock with
    mode := .locked, u := 0, governing := some n, inputs := s.clock.inputs.set n y } := rfl

theorem foundState_live (y : InputRec) (m : ClockMode) : (foundState n y m s).live = s.live := by
  rw [show foundState n y m s = _ from enterClock_only m _]
  rfl

theorem acquiringState_live (y : InputRec) : (acquiringState n y s).live = s.live := by
  rw [acquiringState, State.setClock_live, foundState_live]

theorem acquiringState_clock (y : InputRec) : (acquiringState n y s).clock = { s.clock with
    mode := .acquiring, u := 4294967295, lockCount := 0, governing := some n, inputs := s.clock.inputs.set n y } := by
  simp only [acquiringState, foundState, enterClock, noteClock, changedInput, maxUncertainty, State.setClock, State.setEv]

/-- The notice of an input's change (R20). -/
theorem clockNotice_changed {g : State} {m : ClockMode} {c : Option InputId} {k : InputMode} (hm : g.clock.mode = m)
    (hc : g.clock.governing = c) (hk : (g.clock.inputs.get n).mode = k) (hs : g.ev.stepped = false) :
    clockNotice g (some n) = be 1 (clockCode m) ++ be 1 (inputNum c) ++ be 1 n.num ++ [BitVec.ofNat 8 (inputCode k), 0] := by
  have hcode : be 1 (inputCode k) ++ flagByte false = [BitVec.ofNat 8 (inputCode k), 0] := by cases k <;> rfl
  rw [← hcode, ← hk, ← hm, ← hc, ← hs, ← List.append_assoc]
  rfl

end

/-- Settles O33: the missing pulse of the only QUALIFIED input, and the pulse that proves an input in HOLDOVER or EXPIRED. -/
theorem missingPulseLosesLock : Obligations.MissingPulseLosesLock := by
  refine ⟨fun s n p hp hon hm hg hq ho hpulse hx hdue hlen => ?_, fun s n last hp hon hm hg hset hq hseed ho hpulse h1 h2 => ?_⟩
  · have hf : missingEffect n (s.setEv {}) = _ := missingEffect_lost (s := s.setEv {}) hon hm hg hq ho hpulse hx hdue
    generalize hv : heldOverState n { s.clock.inputs.get n with
      mode := .suspect, suspectStart := s.clock.time, good := 0, missing := min 3 ((s.clock.inputs.get n).missing + 1), expiries := 1 }
      (if s.clock.forced = some n then none else s.clock.forced) (s.setEv {}) = v at hf
    replace hf : missingEffect n (s.setEv {}) = judgeFit v := hf.trans (congrArg judgeFit hv)
    obtain ⟨t, hstep, hleft⟩ := event_left hp hf
    have hlive : (judgeFit v).live = s.live := by rw [judgeFit_live, ← hv]; rfl
    have hlink : (judgeFit v).link = s.link := by rw [judgeFit_link, ← hv]; rfl
    have halarms : (judgeFit v).alarms = s.alarms := by rw [judgeFit_alarms, ← hv]; rfl
    have hnotes := event_clockNotices hp hf hlive hlink halarms hstep
    rw [judgeFit_clockNotices, clockNotices_one (n := n) (by rw [← hv]; rfl)] at hnotes
    have hclock : t.clock = v.clock := by rw [hleft.clock, judgeFit_clock]
    refine ⟨t, (exec_missingPulse n s).trans hstep, ?_, ?_, ?_, ?_, ?_, ?_, ?_, ?_,
      occurred_event (by decide) (by decide) hp hf (by rw [judgeFit_items, ← hv]; rfl) hlive (congrArg _ hlink) halarms hlen hstep,
      hnotes.of_eq ?_⟩
    any_goals rw [hclock, ← hv]; rfl
    have hrec : (v.clock.inputs.get n).mode = .suspect := by
      rw [← hv, heldOverState, State.setEv_clock, State.setClock_clock, PerInput.get_set]
    rw [clockNotice_changed (m := .holdover) (c := none) (by rw [← hv]; rfl) (by rw [← hv]; rfl) hrec (by rw [← hv]; rfl)]
    cases n <;> rfl
  · intro r f e eps p corr pulsed hj
    obtain ⟨t, hstep, hleft, hnotes⟩ := pulse_left (n := n) hp
    have hl : s.clock.mode ≠ .locked := by rcases hm with h | h <;> rw [h] <;> nofun
    obtain ⟨hproving, hproved⟩ := pulseEffect_proving (s := s.setEv {}) (n := n) (r := r) (e := e) hon hg hl rfl hq hseed hpulse h1 h2 rfl hj
    have hshift : filterShift (s.setEv {}) = s.live.clock.beta := by
      unfold filterShift
      rcases hm with h | h <;> rw [show (s.setEv {}).clock.mode = _ from h] <;> rfl
    have heps : filtered (s.setEv {}) r e = eps := by
      unfold filtered
      rw [hshift]
    rw [heps] at hproving hproved
    have hx : ∀ x : InputRec, x = { r with good := min 15 (r.good + 1), missing := 0, expiries := 0, eps := eps } → x.mode ≠ .qualified :=
      fun x h => by rw [h]; exact ne_of_eq_of_ne hq nofun
    have hy : ∀ y : InputRec, y = { r with mode := .qualified, good := 0, disagree := 0, missing := 0, expiries := 0, eps := eps } →
        y.mode = .qualified ∧ y.eps = eps := fun y h => by rw [h]; exact ⟨rfl, rfl⟩
    have hpx : ∀ x : InputRec, x = { r with good := min 15 (r.good + 1), missing := 0, expiries := 0, eps := eps } →
        { x with rawErr := e, lastPulse := some s.clock.time, lastSecond := r.received.or x.lastSecond, received := none } =
          pulsed .qualifying (min 15 (r.good + 1)) r.disagree := fun x h => by
      rw [h, ← hq]
    have hpy : ∀ y : InputRec, y = { r with mode := .qualified, good := 0, disagree := 0, missing := 0, expiries := 0, eps := eps } →
        { y with rawErr := e, lastPulse := some s.clock.time, lastSecond := r.received.or y.lastSecond, received := none } =
          pulsed .qualified 0 0 := fun y h => by rw [h]
    generalize hX : ({ r with good := min 15 (r.good + 1), missing := 0, expiries := 0, eps := eps } : InputRec) = x at hproving
    generalize hY : ({ r with mode := .qualified, good := 0, disagree := 0, missing := 0, expiries := 0, eps := eps } : InputRec) = y at hproved
    replace hx := hx x hX.symm
    replace hpx := hpx x hX.symm
    obtain ⟨hyq, hye⟩ := hy y hY.symm
    replace hpy := hpy y hY.symm
    refine ⟨fun hgood => ⟨t, hstep, ?_, ?_⟩, fun hgood hwithin => ⟨t, hstep, ?_, ?_⟩,
      fun hgood hbeyond hwindow hcount hthreshold => ⟨t, hstep, ?_, ?_⟩⟩
    · rw [hleft.clock, hproving hgood, governPulse_proving (s := s.setEv {}) hg hx ho, recorded_other, setInput_inputs, PerInput.get_set,
        PerInput.set_set, ← hpx]
      rfl
    · rw [hproving hgood, governPulse_proving (s := s.setEv {}) hg hx ho, other_notices, clockNotices_quiet rfl] at hnotes
      exact hnotes
    · rw [hleft.clock, hproved hgood, governPulse_relocks (s := s.setEv {}) hg hm hset hyq ho (by rw [hye]; exact hwithin),
        recorded_steered, foundState_live, foundState_locked]
      dsimp only
      rw [PerInput.get_set, PerInput.set_set, ← hpy, hye]
      rfl
    · rw [hproved hgood, governPulse_relocks (s := s.setEv {}) hg hm hset hyq ho (by rw [hye]; exact hwithin), steered_notices,
        clockNotices_one (n := n) rfl] at hnotes
      refine hnotes.of_eq (congrArg (fun b => [b]) ?_)
      exact clockNotice_changed (m := .locked) (c := some n) (k := .qualified) rfl rfl
        (by rw [foundState_locked]; dsimp only; rw [PerInput.get_set, hyq]) rfl
    · have hb : (s.setEv {}).live.clock.relockWindow < (y.eps / 256).natAbs := by rw [hye]; exact hbeyond
      rw [hleft.clock, hproved hgood, governPulse_acquires (s := s.setEv {}) hg hm hset hyq ho hb hwindow hcount hthreshold,
        recorded_steered, acquiringState_live, acquiringState_clock]
      dsimp only
      rw [PerInput.get_set, PerInput.set_set, ← hpy, hye]
      rfl
    · have hb : (s.setEv {}).live.clock.relockWindow < (y.eps / 256).natAbs := by rw [hye]; exact hbeyond
      rw [hproved hgood, governPulse_acquires (s := s.setEv {}) hg hm hset hyq ho hb hwindow hcount hthreshold, steered_notices,
        clockNotices_one (n := n) rfl] at hnotes
      refine hnotes.of_eq (congrArg (fun b => [b]) ?_)
      exact clockNotice_changed (m := .acquiring) (c := some n) (k := .qualified) rfl rfl
        (by rw [acquiringState_clock]; dsimp only; rw [PerInput.get_set, hyq]) rfl

end Sys2Proof.Machine
end

section
/-! PROOF of the suspect timeout, the end of the hold-off, pulses beyond the suspect band and the cross-check's verdicts (O34). -/

namespace Sys2Proof.Machine
open Sys2Proof

theorem exec_suspectTimeout (n : InputId) (s : State) : exec (.suspectTimeout n) s = event (suspectTimeoutEffect n) s := rfl
theorem exec_holdOffExpiry (n : InputId) (s : State) : exec (.holdOffExpiry n) s = event (holdOffEffect n) s := rfl

@[simp] theorem PerInput.get_map {α β : Type} (f : α → β) (x : PerInput α) (n : InputId) : (x.map f).get n = f (x.get n) := by
  cases n <;> rfl

/-! ## Items reported before stand -/

section
variable {s : State} {i : Nat}

theorem enterClock_items (m : ClockMode) (h : i ∈ s.ev.items) : i ∈ (enterClock m s).ev.items := by
  cases m with
  | free => exact h
  | acquiring => exact h
  | locked => exact h
  | holdover => exact List.mem_append_left _ h
  | expired => exact List.mem_append_left _ h

theorem actOnGoverning_items (h : i ∈ s.ev.items) : i ∈ (actOnGoverning s).ev.items := by
  unfold actOnGoverning
  split
  · exact enterClock_items _ h
  · exact h
  · exact h
  · exact enterClock_items _ h
  · split
    · exact h
    · exact enterClock_items _ h
  · exact enterClock_items _ h
  · split <;> exact enterClock_items _ h
  · split <;> exact enterClock_items _ h
  · exact h
  · exact h

theorem regovern_items (h : i ∈ s.ev.items) : i ∈ (regovern s).ev.items := by
  unfold regovern
  split
  · exact h
  · exact actOnGoverning_items h

theorem regovernFit_items (h : i ∈ s.ev.items) : i ∈ (regovernFit s).ev.items := by
  unfold regovernFit
  rw [judgeFit_items]
  exact regovern_items h

end

/-! ## An input that leaves QUALIFIED, or is disqualified -/

section
variable {s : State} {n : InputId}

/-- The force without an input that has left QUALIFIED (R13). -/
def unforced (n : InputId) (s : State) : Option InputId := if s.clock.forced = some n then none else s.clock.forced

theorem unforced_ne (n : InputId) (s : State) : unforced n s ≠ some n := by
  unfold unforced
  split
  · nofun
  · assumption

theorem setInput_self (n : InputId) (s : State) : setInput n (s.clock.inputs.get n) s = s := by
  unfold setInput
  rw [PerInput.set_get]
  rfl

theorem enterSuspect_changed (h : (s.clock.inputs.get n).mode ≠ .suspect) : enterSuspect n s =
    changedInput n { s.clock.inputs.get n with mode := .suspect, suspectStart := s.clock.time, good := 0 } (unforced n s) s := by
  conv_lhs => rw [← setInput_self n s]
  exact enterSuspect_eq h

theorem enterDisqualified_eq (h : (s.clock.inputs.get n).mode = .suspect) : enterDisqualified n s =
    occur (3 + n.num) (changedInput n { s.clock.inputs.get n with
      mode := .disqualified, disqTime := s.clock.time, holdDone := s.live.clock.holdOff == 0 } (unforced n s) s) := by
  refine congrArg (occur (3 + n.num)) ?_
  rw [setInputMode_eq (by rw [setInput_inputs, PerInput.get_set]; exact ne_of_eq_of_ne h nofun), setInput_inputs, PerInput.get_set,
    PerInput.set_set]
  exact congrArg (fun f => changedInput n { s.clock.inputs.get n with
      mode := .disqualified, disqTime := s.clock.time, holdDone := s.live.clock.holdOff == 0 } f s)
    (if_congr (and_iff_right nofun) rfl rfl)

theorem crossCheck_unqualified (h : (s.clock.inputs.get n).mode ≠ .qualified) : crossCheck n s = s := by
  have hq : isQualified s n = false := Bool.eq_false_iff.mpr fun hq => h (isQualified_iff.mp hq)
  unfold crossCheck
  split
  · rw [hq]
    rfl
  · rfl

/-- A pulse of an input that is not QUALIFIED once it has acted. -/
theorem pulse_elsewhere {u : State} (h : (u.clock.inputs.get n).mode ≠ .qualified) (e : Int) (good : Bool) (number : Option Nat) :
    let v := if good then crossCheck n u else u
    recordPulse n e (pulseWillStep n e v) number (governPulse n e number v) = recordPulse n e false number (regovernFit u) := by
  intro v
  have hv : v = u := by
    show (if good then crossCheck n u else u) = u
    rw [crossCheck_unqualified h, ite_self]
  rw [hv]
  obtain ⟨hgovern, hsteps⟩ := governPulse_elsewhere h e number
  rw [hgovern, hsteps]

/-- The clock after a pulse that leaves the governing input to be chosen. -/
theorem recorded_regoverned (n : InputId) (e : Int) (number : Option Nat) (u : State) :
    let w := recordPulse n e false number (regovernFit u)
    w.clock.time = u.clock.time ∧ w.clock.forced = u.clock.forced ∧ w.clock.governing = chooseGoverning u ∧
    w.clock.inputs = u.clock.inputs.set n { u.clock.inputs.get n with
      rawErr := e, lastPulse := some u.clock.time, lastSecond := number.or (u.clock.inputs.get n).lastSecond, received := none } := by
  intro w
  obtain ⟨hsame, hgov, -⟩ := regovernFit_same u
  have hw : w.clock = _ := recordPulse_clock n e false number (regovernFit u)
  rw [hw]
  refine ⟨hsame.time, hsame.forced, hgov, ?_⟩
  dsimp only
  rw [hsame.inputs, hsame.time]
  rfl

/-- The CLOCK notice of an input's change, once the governing input has been chosen. -/
theorem clockNotices_changed {w : State} {k : InputMode} (hin : w.ev.inputNotes = ({} : Report).inputNotes.set n true)
    (hs : w.ev.stepped = false) (hk : (w.clock.inputs.get n).mode = k) :
    clockNotices w = [be 1 (clockCode w.clock.mode) ++ be 1 (inputNum w.clock.governing) ++ be 1 n.num ++ [BitVec.ofNat 8 (inputCode k), 0]] := by
  rw [clockNotices_one hin, clockNotice_changed rfl rfl hk hs]

end

section
variable {s : State} {n : InputId} {x r : InputRec} {e : Int} {wrong : Bool}

theorem transition_out (hm : x.mode = .qualified) : pulseTransition n true wrong (setInput n x s) = changedInput n
    { x with mode := .suspect, suspectStart := s.clock.time, good := 0 } (unforced n s) s := by
  refine Eq.trans ?_ (enterSuspect_eq (ne_of_eq_of_ne hm nofun))
  unfold pulseTransition
  rw [inputRec_setInput]
  simp only [hm]
  rfl

theorem transition_kept (hm : x.mode = .qualified) : pulseTransition n false false (setInput n x s) = setInput n x s := by
  unfold pulseTransition
  rw [inputRec_setInput]
  simp only [hm]
  rfl

theorem transition_suspected {out : Bool} (hm : x.mode = .suspect) (h : x.good < s.live.clock.returnCount) :
    pulseTransition n out wrong (setInput n x s) = setInput n x s := by
  unfold pulseTransition
  rw [inputRec_setInput]
  simp only [hm]
  exact if_neg (not_le.mpr h)

/-- A pulse beyond the suspect band of a QUALIFIED input (R5, R7). -/
theorem pulseEffect_out (hon : s.live.clock.enabled.get n = true) (hr : s.clock.inputs.get n = r) (hm : r.mode = .qualified)
    (hseed : r.reseed = false) (he : pulseError s.clock.time = e) (hout : outOfBand s n e = true) :
    pulseEffect n s = recordPulse n e false r.received (regovernFit (changedInput n { r with
      mode := .suspect, suspectStart := s.clock.time, good := 0, missing := 0, expiries := 0 } (unforced n s) s)) := by
  subst hr he
  have heffect := pulseEffect_heard hon (ne_of_eq_of_ne hm nofun) (ne_of_eq_of_ne hm nofun) hseed
  dsimp only at heffect
  rw [hout, heard_qualified rfl hm hseed, if_pos hout,
    transition_out (x := { s.clock.inputs.get n with missing := 0, expiries := 0 }) hm] at heffect
  refine heffect.trans (pulse_elsewhere ?_ _ _ _)
  exact ne_of_eq_of_ne (congrArg InputRec.mode (PerInput.get_set s.clock.inputs n _)) nofun

/-- A pulse beyond the suspect band of a SUSPECT input (R8). -/
theorem pulseEffect_suspect (hon : s.live.clock.enabled.get n = true) (hr : s.clock.inputs.get n = r) (hm : r.mode = .suspect)
    (hseed : r.reseed = false) (he : pulseError s.clock.time = e) (hout : outOfBand s n e = true) (hc : 1 ≤ s.live.clock.returnCount) :
    pulseEffect n s = recordPulse n e false r.received (regovernFit (setInput n { r with good := 0, missing := 0, expiries := 0 } s)) := by
  subst hr he
  have heffect := pulseEffect_heard hon (ne_of_eq_of_ne hm nofun) (ne_of_eq_of_ne hm nofun) hseed
  dsimp only at heffect
  rw [heard_suspect rfl hm hseed hout,
    transition_suspected (x := { s.clock.inputs.get n with good := 0, missing := 0, expiries := 0 }) hm hc] at heffect
  refine heffect.trans (pulse_elsewhere ?_ _ _ _)
  rw [setInput_inputs, PerInput.get_set]
  exact ne_of_eq_of_ne hm nofun

end

/-- A pulse of an input that its band turns away, and the SUSPECT timeout and the end of the hold-off. -/
theorem suspectPulses (s : State) (n : InputId) (hp : Powered s) :
    let r := s.clock.inputs.get n
    (r.mode = .suspect → r.suspectStart + (s.live.clock.suspectTimeout : Int) * 10000000 ≤ s.clock.time →
      s.alarms.records.length = 36 →
      ∃ t, exec (.suspectTimeout n) s = .next t ∧
        t.clock.inputs = s.clock.inputs.set n { r with
          mode := .disqualified, disqTime := s.clock.time, holdDone := s.live.clock.holdOff == 0 } ∧
        Noticed 1 [be 1 (clockCode t.clock.mode) ++ be 1 (inputNum t.clock.governing) ++ be 1 n.num ++ [4, 0]] s t ∧
        t.clock.forced ≠ some n ∧ t.clock.time = s.clock.time ∧ (alarmRec t (3 + n.num)).latched = true) ∧
    (r.mode = .disqualified → r.disqTime + (s.live.clock.holdOff : Int) * 10000000 ≤ s.clock.time →
      ∃ t, exec (.holdOffExpiry n) s = .next t ∧
        AfterEvent [] { s with clock := { s.clock with inputs := s.clock.inputs.set n { r with holdDone := true } } } t) ∧
    (s.live.clock.enabled.get n = true → r.mode = .qualified → r.reseed = false →
      let f := s.clock.time % 10000000
      let e := if f < 5000000 then f else f - 10000000
      s.live.clock.suspectBand < (e - r.eps / 256).natAbs →
      ∃ t, exec (.timePulse n) s = .next t ∧ t.clock.time = s.clock.time ∧ t.clock.forced ≠ some n ∧ t.clock.governing ≠ some n ∧
        t.clock.inputs = s.clock.inputs.set n { r with
          mode := .suspect, suspectStart := s.clock.time, good := 0, missing := 0, expiries := 0, rawErr := e,
          lastPulse := some s.clock.time, lastSecond := r.received.or r.lastSecond, received := none } ∧
        Noticed 1 [be 1 (clockCode t.clock.mode) ++ be 1 (inputNum t.clock.governing) ++ be 1 n.num ++ [3, 0]] s t) ∧
    (s.live.clock.enabled.get n = true → r.mode = .suspect → r.reseed = false →
      let f := s.clock.time % 10000000
      let e := if f < 5000000 then f else f - 10000000
      s.live.clock.suspectBand < (e - r.eps / 256).natAbs → 1 ≤ s.live.clock.returnCount →
      ∃ t, exec (.timePulse n) s = .next t ∧ t.clock.inputs = s.clock.inputs.set n { r with
        good := 0, missing := 0, expiries := 0, rawErr := e, lastPulse := some s.clock.time,
        lastSecond := r.received.or r.lastSecond, received := none }) := by
  intro r
  refine ⟨fun hm hdue hlen => ?_, fun hm hdue => ?_, fun hon hm hseed => ?_, fun hon hm hseed => ?_⟩
  · have hdue' : r.mode = .suspect ∧ r.suspectStart + (s.live.clock.suspectTimeout * Config.second : Nat) ≤ s.clock.time :=
      ⟨hm, by rw [Nat.cast_mul]; exact hdue⟩
    have hf : suspectTimeoutEffect n (s.setEv {}) = regovernFit (enterDisqualified n (s.setEv {})) := if_pos hdue'
    rw [enterDisqualified_eq (s := s.setEv {}) hm] at hf
    generalize hv : occur (3 + n.num) (changedInput n { (s.setEv {}).clock.inputs.get n with
      mode := .disqualified, disqTime := (s.setEv {}).clock.time, holdDone := (s.setEv {}).live.clock.holdOff == 0 }
      (unforced n (s.setEv {})) (s.setEv {})) = v at hf
    have hinputs : v.clock.inputs = s.clock.inputs.set n { r with
        mode := .disqualified, disqTime := s.clock.time, holdDone := s.live.clock.holdOff == 0 } := by rw [← hv]; rfl
    have hitems : 3 + n.num ∈ v.ev.items := by rw [← hv]; exact List.mem_append_right _ (List.mem_singleton_self _)
    have hnotes : v.ev.inputNotes = ({} : Report).inputNotes.set n true := by rw [← hv]; rfl
    have hquiet : v.ev.stepped = false := by rw [← hv]; rfl
    have hforced : v.clock.forced ≠ some n := by rw [← hv]; exact unforced_ne n (s.setEv {})
    have htime : v.clock.time = s.clock.time := by rw [← hv]; rfl
    have hlive : v.live = s.live := by rw [← hv]; rfl
    have hlink : v.link = s.link := by rw [← hv]; rfl
    have halarms : v.alarms = s.alarms := by rw [← hv]; rfl
    obtain ⟨hsame, -, -, hin, hst⟩ := regovernFit_same v
    have honly : regovernFit v = _ := regovernFit_only v
    obtain ⟨t, hstep, hleft⟩ := event_left hp hf
    have hnoticed := event_clockNotices hp hf (by rw [honly]; exact hlive) (by rw [honly]; exact hlink) (by rw [honly]; exact halarms) hstep
    have hmode : ((regovernFit v).clock.inputs.get n).mode = .disqualified := by rw [hsame.inputs, hinputs, PerInput.get_set]
    rw [clockNotices_changed (hin.trans hnotes) (hst.trans hquiet) hmode] at hnoticed
    refine ⟨t, (exec_suspectTimeout n s).trans hstep, by rw [hleft.clock]; exact hsame.inputs.trans hinputs, by rw [hleft.clock]; exact hnoticed,
      by rw [hleft.clock, hsame.forced]; exact hforced, by rw [hleft.clock]; exact hsame.time.trans htime, ?_⟩
    refine event_latches hp hf (by rw [honly]; exact (congrArg (fun a => a.records.length) halarms).trans hlen) hstep ?_ ?_ (regovernFit_items hitems)
    · omega
    · cases n <;> decide
  · have hf : holdOffEffect n (s.setEv {}) = setInput n { r with holdDone := true } (s.setEv {}) :=
      if_pos (by exact ⟨hm, by rw [Nat.cast_mul]; exact hdue⟩)
    obtain ⟨t, hstep, hafter⟩ := afterEvent_intro (is := []) (u := { s with clock := { s.clock with
      inputs := s.clock.inputs.set n { r with holdDone := true } } }) (e := {}) hp hf rfl (.inr rfl)
    exact ⟨t, (exec_holdOffExpiry n s).trans hstep, hafter⟩
  · intro f e hband
    have heffect := pulseEffect_out (s := s.setEv {}) (n := n) (r := r) (e := e) hon rfl hm hseed rfl (decide_eq_true hband)
    generalize hv : changedInput n { r with
      mode := .suspect, suspectStart := (s.setEv {}).clock.time, good := 0, missing := 0, expiries := 0 } (unforced n (s.setEv {}))
        (s.setEv {}) = v at heffect
    obtain ⟨t, hstep, hleft, hnoticed⟩ := pulse_left (n := n) hp
    obtain ⟨htime, hforced, hgov, hinputs⟩ := recorded_regoverned n e r.received v
    obtain ⟨hsame, -, -, hin, hst⟩ := regovernFit_same v
    have hrec : v.clock.inputs.get n = { r with
        mode := .suspect, suspectStart := s.clock.time, good := 0, missing := 0, expiries := 0 } := by
      rw [← hv]
      exact PerInput.get_set ..
    have hmode : ((regovernFit v).clock.inputs.get n).mode = .suspect := by rw [hsame.inputs, hrec]
    have hnotes : (regovernFit v).ev.inputNotes = ({} : Report).inputNotes.set n true := by rw [hin, ← hv]; rfl
    have hquiet : (regovernFit v).ev.stepped = false := by rw [hst, ← hv]; rfl
    rw [heffect] at hleft hnoticed
    rw [recordPulse_notices, clockNotices_changed hnotes hquiet hmode] at hnoticed
    refine ⟨t, hstep, ?_, ?_, ?_, ?_, ?_⟩
    · rw [hleft.clock, htime, ← hv]
      rfl
    · rw [hleft.clock, hforced, ← hv]
      exact unforced_ne n (s.setEv {})
    · rw [hleft.clock, hgov]
      intro h
      have hq := chooseGoverning_qualified h
      rw [hrec] at hq
      cases hq
    · rw [hleft.clock, hinputs, hrec, ← hv]
      exact PerInput.set_set ..
    · rw [hleft.clock, show (recordPulse n e false r.received (regovernFit v)).clock.mode = (regovernFit v).clock.mode by rw [recordPulse_clock],
        show (recordPulse n e false r.received (regovernFit v)).clock.governing = (regovernFit v).clock.governing by rw [recordPulse_clock]]
      exact hnoticed
  · intro f e hband hc
    have heffect := pulseEffect_suspect (s := s.setEv {}) (n := n) (r := r) (e := e) hon rfl hm hseed rfl (decide_eq_true hband) hc
    obtain ⟨t, hstep, hleft, -⟩ := pulse_left (n := n) hp
    obtain ⟨-, -, -, hinputs⟩ := recorded_regoverned n e r.received (setInput n { r with good := 0, missing := 0, expiries := 0 } (s.setEv {}))
    refine ⟨t, hstep, ?_⟩
    rw [hleft.clock, heffect, hinputs, setInput_inputs, PerInput.get_set, PerInput.set_set]
    rfl

/-! ## The cross-check's verdict (R11) -/

/-- The part with every disagreement count at 0, and INPUTS DISAGREE reported. -/
def verdictState (s : State) : State :=
  occur 7 (s.setClock { s.clock with inputs := s.clock.inputs.map (fun r => { r with disagree := 0 }) })

section
variable {s : State} {n g : InputId} {x r : InputRec} {e last : Int}

theorem crossCheck_verdict (x : InputRec) (hg : s.clock.governing = some g) (hgn : g ≠ n) (hx : x.mode = .qualified)
    (ho : ∀ m, m ≠ n → (s.clock.inputs.get m).mode ≠ .suspect)
    (hlimit : s.live.clock.crossLimit < (x.eps / 256 - (s.clock.inputs.get g).eps / 256).natAbs)
    (hcount : s.live.clock.crossCount ≤ min 15 (x.disagree + 1)) :
    let u := setInput n { x with disagree := min 15 (x.disagree + 1) } s
    crossCheck n (setInput n x s) = enterSuspect (verdictInput u n) (verdictState u) := by
  intro u
  have hq : isQualified (setInput n x s) n = true := isQualified_iff.mpr (by rw [setInput_inputs, PerInput.get_set, hx])
  have hnone : InputId.all.all (fun i => (inputRec (setInput n x s) i).mode != .suspect) = true := List.all_eq_true.mpr fun m _ => by
    by_cases hm : m = n
    · rw [hm, inputRec_setInput, hx]
      rfl
    · rw [inputRec_setInput_ne hm]
      exact bne_iff_ne.mpr (ho m hm)
  have hlimit' : (setInput n x s).live.clock.crossLimit < (epsOf (setInput n x s) n - epsOf (setInput n x s) g).natAbs := by
    unfold epsOf
    rw [inputRec_setInput, inputRec_setInput_ne hgn]
    exact hlimit
  unfold crossCheck
  rw [show (setInput n x s).clock.governing = some g from hg]
  dsimp only
  rw [hq, hnone, bne_iff_ne.mpr hgn, if_pos (by rfl), if_pos hlimit', inputRec_setInput, setInput_setInput, sat_eq_min]
  exact if_pos hcount

/-- A good pulse of a QUALIFIED input inside its band that completes its disagreement count. -/
theorem pulseEffect_verdict (hon : s.live.clock.enabled.get n = true) (hr : s.clock.inputs.get n = r) (hm : r.mode = .qualified)
    (hseed : r.reseed = false) (he : pulseError s.clock.time = e) (hout : outOfBand s n e = false) (hp : r.lastPulse = some last)
    (h1 : 9999000 ≤ s.clock.time - last) (h2 : s.clock.time - last ≤ 10001000)
    (hj : (e - r.rawErr).natAbs ≤ s.live.clock.jitter) (hw : wrongNumber s r.received = false)
    (hg : s.clock.governing = some g) (hgn : g ≠ n) (ho : ∀ m, m ≠ n → (s.clock.inputs.get m).mode ≠ .suspect)
    (hlimit : s.live.clock.crossLimit < (filtered s r e / 256 - (s.clock.inputs.get g).eps / 256).natAbs)
    (hcount : s.live.clock.crossCount ≤ min 15 (r.disagree + 1)) :
    let u := setInput n { r with missing := 0, expiries := 0, eps := filtered s r e, disagree := min 15 (r.disagree + 1) } s
    let v := enterSuspect (verdictInput u n) (verdictState u)
    pulseEffect n s = recordPulse n e (pulseWillStep n e v) r.received (governPulse n e r.received v) := by
  intro u v
  subst hr he
  have hgood : pulseGood s n (pulseError s.clock.time) = true := pulseGood_intro hp h1 h2 hj hw
  have heffect := pulseEffect_heard hon (ne_of_eq_of_ne hm nofun) (ne_of_eq_of_ne hm nofun) hseed
  dsimp only at heffect
  rw [hgood, hout, hw, heard_qualified rfl hm hseed, hout] at heffect
  simp only [if_true, Bool.false_eq_true, if_false] at heffect
  have hverdict : crossCheck n (setInput n { s.clock.inputs.get n with
      missing := 0, expiries := 0, eps := filtered s (s.clock.inputs.get n) (pulseError s.clock.time) } s) = v :=
    crossCheck_verdict { s.clock.inputs.get n with
      missing := 0, expiries := 0, eps := filtered s (s.clock.inputs.get n) (pulseError s.clock.time) } hg hgn hm ho hlimit hcount
  rw [transition_kept (x := { s.clock.inputs.get n with
    missing := 0, expiries := 0, eps := filtered s (s.clock.inputs.get n) (pulseError s.clock.time) }) hm, hverdict] at heffect
  exact heffect

/-- The record of each input after a verdict, before the input that it names goes SUSPECT. -/
theorem verdictState_input (y : InputRec) (m : InputId) : (verdictState (setInput n y s)).clock.inputs.get m =
    if m = n then { y with disagree := 0 } else { s.clock.inputs.get m with disagree := 0 } := by
  show (((s.clock.inputs.set n y).map (fun r => { r with disagree := 0 })).get m) = _
  rw [PerInput.get_map]
  split
  case isTrue h => rw [h, PerInput.get_set]
  case isFalse h => rw [PerInput.get_set_ne _ h]

/-- Two QUALIFIED inputs name the one whose count brought the verdict. -/
theorem verdictInput_two {k : InputId} (h : (s.clock.inputs.get k).mode ≠ .qualified) : verdictInput s n = n := by
  refine if_neg fun hall => h (isQualified_iff.mp ?_)
  exact List.all_eq_true.mp hall k (by cases k <;> decide)

/-! ### Of three QUALIFIED inputs -/

/-- Of two inputs, `a` stays the one that a verdict of three sends to SUSPECT. -/
theorem verdictWorse_left {d : InputId → Nat} {a b : InputId} (hg : s.clock.governing = some g)
    (h : d b < d a ∨ (d b = d a ∧ (b = g ∨ (a ≠ g ∧ inputPriority s b < inputPriority s a)))) : verdictWorse s d a b = a := by
  unfold verdictWorse
  rw [hg]
  rcases h with h | ⟨hd, h | ⟨ha, h⟩⟩
  · exact if_pos h
  · rw [if_neg (by omega), if_neg (by omega)]
    subst h
    split
    case isTrue heq => exact Option.some.inj heq
    case isFalse => exact if_pos rfl
  · rw [if_neg (by omega), if_neg (by omega), if_neg (by simpa using Ne.symm ha)]
    exact ite_eq_left_iff.mpr fun _ => if_pos h

theorem verdictWorse_right {d : InputId → Nat} {a b : InputId} (hg : s.clock.governing = some g)
    (h : d a < d b ∨ (d a = d b ∧ (a = g ∨ (b ≠ g ∧ inputPriority s a < inputPriority s b)))) : verdictWorse s d a b = b := by
  unfold verdictWorse
  rw [hg]
  rcases h with h | ⟨hd, h | ⟨ha, h⟩⟩
  · rw [if_neg (by omega)]
    exact if_pos h
  · rw [if_neg (by omega), if_neg (by omega)]
    exact if_pos (congrArg some h.symm)
  · rw [if_neg (by omega), if_neg (by omega)]
    split
    · rfl
    · rw [if_neg (by simpa using Ne.symm ha)]
      exact if_neg (not_lt.mpr h.le)

theorem verdictWorse_three {d : InputId → Nat} {w : InputId} (hg : s.clock.governing = some g)
    (h : ∀ m, m ≠ w → d m < d w ∨ (d m = d w ∧ (m = g ∨ (w ≠ g ∧ inputPriority s m < inputPriority s w)))) :
    verdictWorse s d (verdictWorse s d .in1 .in2) .in3 = w := by
  cases w with
  | in1 => rw [verdictWorse_left (a := .in1) (b := .in2) hg (h .in2 nofun), verdictWorse_left hg (h .in3 nofun)]
  | in2 => rw [verdictWorse_right (a := .in1) (b := .in2) hg (h .in1 nofun), verdictWorse_left hg (h .in3 nofun)]
  | in3 =>
    refine verdictWorse_right hg (h _ ?_)
    unfold verdictWorse
    (repeat' split) <;> nofun

/-- The farthest of three QUALIFIED inputs is named. -/
theorem verdictInput_three {w : InputId} (hq : ∀ m, (s.clock.inputs.get m).mode = .qualified) (hg : s.clock.governing = some g)
    (h : let far (m : InputId) : Nat := (epsOf s m - median (epsOf s .in1) (epsOf s .in2) (epsOf s .in3)).natAbs
      ∀ m, m ≠ w → far m < far w ∨ (far m = far w ∧ (m = g ∨ (w ≠ g ∧ inputPriority s m < inputPriority s w)))) :
    verdictInput s n = w :=
  (if_pos (List.all_eq_true.mpr fun m _ => isQualified_iff.mpr (hq m))).trans (verdictWorse_three hg h)

end

/-! ## What the governing pulse leaves of the verdict -/

/-- A step event is the move of the clock, at the clock. -/
theorem stepEvent_clock (d : Int) (s : State) : (stepEvent d s).clock = (moveClock d s).clock := by
  unfold stepEvent stepEmission reAnchorUnlessOff
  dsimp only [moveDriveTimes, State.setDrive_clock]
  split
  · rfl
  · rw [enterAnchoring_frame]
    rfl

theorem stepEvent_items (d : Int) {s : State} {i : Nat} (h : i ∈ s.ev.items ∨ i = 3) : i ∈ (stepEvent d s).ev.items := by
  have hmem : i ∈ s.ev.items ++ [3] := by simpa using h
  unfold stepEvent stepEmission reAnchorUnlessOff
  dsimp only [moveDriveTimes, State.setDrive_ev]
  split
  · exact hmem
  · exact enterAnchoring_items _ _ hmem

/-- The force, the governing input, each input's state and good-pulse count, and the items reported stand; a disagreement count at 0 stays
there. -/
def PulseKeeps (s t : State) : Prop :=
  t.clock.forced = s.clock.forced ∧ t.clock.governing = s.clock.governing ∧
  (∀ m, (t.clock.inputs.get m).mode = (s.clock.inputs.get m).mode ∧ (t.clock.inputs.get m).good = (s.clock.inputs.get m).good ∧
    ((s.clock.inputs.get m).disagree = 0 → (t.clock.inputs.get m).disagree = 0)) ∧
  ∀ i ∈ s.ev.items, i ∈ t.ev.items

section
variable {s t u : State}

theorem PulseKeeps.trans (h : PulseKeeps s t) (k : PulseKeeps t u) : PulseKeeps s u := by
  obtain ⟨hf, hg, hin, hi⟩ := h
  obtain ⟨kf, kg, kin, ki⟩ := k
  refine ⟨kf.trans hf, kg.trans hg, fun m => ?_, fun i h => ki i (hi i h)⟩
  obtain ⟨hm, hgood, hd⟩ := hin m
  obtain ⟨km, kgood, kd⟩ := kin m
  exact ⟨km.trans hm, kgood.trans hgood, fun h => kd (hd h)⟩

/-- Where the input records stand. -/
theorem pulseKeeps_inputs (hf : t.clock.forced = s.clock.forced) (hg : t.clock.governing = s.clock.governing)
    (hin : t.clock.inputs = s.clock.inputs) (hi : ∀ i ∈ s.ev.items, i ∈ t.ev.items) : PulseKeeps s t :=
  ⟨hf, hg, fun m => by rw [hin]; exact ⟨rfl, rfl, id⟩, hi⟩

theorem pulseKeeps_refl (s : State) : PulseKeeps s s := pulseKeeps_inputs rfl rfl rfl fun _ h => h

theorem pulseKeeps_judgeFit (s : State) : PulseKeeps s (judgeFit s) :=
  pulseKeeps_inputs (by rw [judgeFit_clock]) (by rw [judgeFit_clock]) (by rw [judgeFit_clock]) fun i h => by rwa [judgeFit_items]

theorem pulseKeeps_countLock (n : InputId) (s : State) : PulseKeeps s (countLock n s) := by
  rw [countLock_eq]
  dsimp only
  generalize (if ((s.clock.inputs.get n).eps / 256).natAbs ≤ s.live.clock.lockWindow then min 60 (s.clock.lockCount + 1) else 0) = count
  split <;> exact pulseKeeps_inputs rfl rfl rfl fun _ h => h

theorem pulseKeeps_slewClock (n : InputId) (s : State) : PulseKeeps s (slewClock n s) := pulseKeeps_inputs rfl rfl rfl fun _ h => h

theorem pulseKeeps_stepEvent (d : Int) (s : State) : PulseKeeps s (stepEvent d s) := by
  refine ⟨by rw [stepEvent_clock]; rfl, by rw [stepEvent_clock]; rfl, fun m => ?_, fun i h => stepEvent_items d (.inl h)⟩
  rw [stepEvent_clock, moveClock, State.setClock_clock]
  dsimp only
  rw [PerInput.get_map]
  exact ⟨rfl, rfl, id⟩

theorem pulseKeeps_setSecondCount (number : Option Nat) (s : State) : PulseKeeps s (setSecondCount number s) := by
  have hset : PulseKeeps s (s.setClock { s.clock with secondsSet := true }) := pulseKeeps_inputs rfl rfl rfl fun _ h => h
  unfold setSecondCount
  split
  · split
    · dsimp only
      split
      · exact hset
      · exact hset.trans (pulseKeeps_stepEvent _ _)
    · exact pulseKeeps_refl s
  · exact pulseKeeps_refl s

/-- The input records of a step, before the move of site time (R2). -/
def steppedInputs (n : InputId) (e : Int) (x : PerInput InputRec) : PerInput InputRec :=
  (x.map (fun r => { r with rawErr := r.rawErr - e, eps := r.eps - e * 256, disagree := 0 })).set n
    { x.get n with rawErr := 0, eps := 0, disagree := 0 }

theorem steppedInputs_get (n : InputId) (e : Int) (x : PerInput InputRec) (m : InputId) : (steppedInputs n e x).get m =
    if m = n then { x.get n with rawErr := 0, eps := 0, disagree := 0 }
    else { x.get m with rawErr := (x.get m).rawErr - e, eps := (x.get m).eps - e * 256, disagree := 0 } := by
  unfold steppedInputs
  split
  case isTrue h => rw [h, PerInput.get_set]
  case isFalse h => rw [PerInput.get_set_ne _ h, PerInput.get_map]

theorem pulseKeeps_stepClock (n : InputId) (e : Int) (number : Option Nat) (s : State) : PulseKeeps s (stepClock n e number s) := by
  unfold stepClock
  dsimp only
  refine PulseKeeps.trans ?_ (pulseKeeps_stepEvent _ _)
  refine ⟨rfl, rfl, fun m => ?_, fun _ h => h⟩
  show ((steppedInputs n e s.clock.inputs).get m).mode = _ ∧ ((steppedInputs n e s.clock.inputs).get m).good = _ ∧
    (_ → ((steppedInputs n e s.clock.inputs).get m).disagree = 0)
  rw [steppedInputs_get]
  by_cases hm : m = n
  · rw [if_pos hm, hm]
    exact ⟨rfl, rfl, fun _ => rfl⟩
  · rw [if_neg hm]
    exact ⟨rfl, rfl, fun _ => rfl⟩

theorem pulseKeeps_recordPulse (n : InputId) (e : Int) (stepped : Bool) (number : Option Nat) (s : State) :
    PulseKeeps s (recordPulse n e stepped number s) := by
  refine ⟨by rw [recordPulse_clock], by rw [recordPulse_clock], fun m => ?_, fun _ h => h⟩
  rw [recordPulse_clock]
  dsimp only
  by_cases hm : m = n
  · rw [hm, PerInput.get_set]
    exact ⟨rfl, rfl, id⟩
  · rw [PerInput.get_set_ne _ hm]
    exact ⟨rfl, rfl, id⟩

theorem pulseKeeps_governPulse (n : InputId) (e : Int) (number : Option Nat) (s : State) :
    PulseKeeps (regovern s) (governPulse n e number s) := by
  unfold governPulse
  dsimp only
  split
  · split
    · exact (pulseKeeps_judgeFit _).trans (pulseKeeps_stepClock _ _ _ _)
    · have hcounted : PulseKeeps (regovern s) (judgeFit (if (regovern s).clock.mode = .acquiring then countLock n (regovern s) else regovern s)) := by
        refine PulseKeeps.trans ?_ (pulseKeeps_judgeFit _)
        split
        · exact pulseKeeps_countLock _ _
        · exact pulseKeeps_refl _
      have hset := hcounted.trans (pulseKeeps_setSecondCount number _)
      generalize setSecondCount number (judgeFit (if (regovern s).clock.mode = .acquiring then countLock n (regovern s) else regovern s)) = w at hset ⊢
      split
      · exact hset.trans (pulseKeeps_slewClock _ _)
      · exact hset
  · exact pulseKeeps_judgeFit _

end

/-- What a pulse leaves of the verdict that it brought. -/
theorem verdict_left {n x : InputId} {e : Int} {number : Option Nat} {v w : State}
    (hw : w = recordPulse n e (pulseWillStep n e v) number (governPulse n e number v)) (hx : (v.clock.inputs.get x).mode ≠ .qualified)
    (hf : v.clock.forced ≠ some x) : w.clock.forced ≠ some x ∧ w.clock.governing ≠ some x ∧
      (∀ m, (w.clock.inputs.get m).mode = (v.clock.inputs.get m).mode ∧ (w.clock.inputs.get m).good = (v.clock.inputs.get m).good ∧
        ((v.clock.inputs.get m).disagree = 0 → (w.clock.inputs.get m).disagree = 0)) ∧
      ∀ i ∈ v.ev.items, i ∈ w.ev.items := by
  obtain ⟨hsame, hgov, -⟩ := regovern_same v
  obtain ⟨hforced, hgoverning, hin, hi⟩ :=
    (pulseKeeps_governPulse n e number v).trans (pulseKeeps_recordPulse n e (pulseWillStep n e v) number _)
  rw [← hw] at hforced hgoverning hin hi
  refine ⟨by rw [hforced, hsame.forced]; exact hf, fun h => ?_, fun m => ?_, fun i h => hi i (regovern_items h)⟩
  · exact hx (chooseGoverning_qualified ((hgov.symm.trans hgoverning.symm).trans h))
  · rw [← hsame.inputs]
    exact hin m

section
variable {s : State} {n g x : InputId} {r : InputRec} {e last : Int}

/-- The input that a verdict has named, and the others. -/
theorem verdict_named (y : InputRec) (hx : ((setInput n y s).clock.inputs.get x).mode = .qualified) :
    let u := setInput n y s
    let v := enterSuspect x (verdictState u)
    v.clock.forced ≠ some x ∧ v.clock.time = s.clock.time ∧ v.clock.governing = s.clock.governing ∧ 7 ∈ v.ev.items ∧
    v.clock.inputs.get x = { u.clock.inputs.get x with mode := .suspect, suspectStart := s.clock.time, good := 0, disagree := 0 } ∧
    ∀ m, m ≠ x → v.clock.inputs.get m = { u.clock.inputs.get m with disagree := 0 } := by
  intro u v
  have hinputs : ∀ m, (verdictState u).clock.inputs.get m = { u.clock.inputs.get m with disagree := 0 } := fun m => PerInput.get_map ..
  have hv : v = changedInput x { (verdictState u).clock.inputs.get x with mode := .suspect, suspectStart := s.clock.time, good := 0 }
      (unforced x (verdictState u)) (verdictState u) := enterSuspect_changed (by rw [hinputs x]; exact ne_of_eq_of_ne hx nofun)
  rw [hv, hinputs x]
  refine ⟨unforced_ne x _, rfl, rfl, List.mem_append_right _ (List.mem_singleton_self _), PerInput.get_set .., fun m hm => ?_⟩
  exact (PerInput.get_set_ne _ hm _).trans (hinputs m)

theorem filterShift_locked (h : s.clock.mode = .locked) : filterShift s = s.live.clock.beta := by
  unfold filterShift
  rw [h]

theorem inputs_three {k m : InputId} (hgn : g ≠ n) (hkn : k ≠ n) (hkg : k ≠ g) (hm : m ≠ n) : m = g ∨ m = k := by
  revert hgn hkn hkg hm
  cases n <;> cases g <;> cases k <;> cases m <;> simp

end

/-- Settles O34: the timeouts and the band by the input's own change, the verdict by the input that it names. -/
theorem suspectTimeoutAndHoldOff : Obligations.SuspectTimeoutAndHoldOff := by
  intro s n hp r
  obtain ⟨htimeout, hholdoff, hout, hsuspect⟩ := suspectPulses s n hp
  refine ⟨htimeout, hholdoff, hout, hsuspect, fun g k last hon hm hseed hlocked hg hgn hkn hkg hgq hkq hks hpulse h1 h2 hw hlen => ?_,
    fun g x last hon hseed hlocked hg hgn hall hpulse h1 h2 hw hlen => ?_⟩
  · intro f e eps hj hband hlimit hcount
    have hfiltered : filtered (s.setEv {}) r e = eps := by
      unfold filtered
      rw [filterShift_locked (s := s.setEv {}) hlocked]
      rfl
    have ho : ∀ m, m ≠ n → (s.clock.inputs.get m).mode ≠ .suspect := fun m hmn => by
      rcases inputs_three hgn hkn hkg hmn with rfl | rfl
      · exact ne_of_eq_of_ne hgq nofun
      · exact hks
    have heffect := pulseEffect_verdict (s := s.setEv {}) (r := r) (e := e) hon rfl hm hseed rfl (decide_eq_false (not_lt.mpr hband)) hpulse h1 h2 hj hw hg
      hgn ho (by rw [hfiltered]; exact hlimit) hcount
    rw [hfiltered] at heffect
    dsimp only at heffect
    have hy : ∀ y : InputRec, y = { r with missing := 0, expiries := 0, eps := eps, disagree := min 15 (r.disagree + 1) } →
        y.mode = .qualified ∧ { y with
          mode := .suspect, suspectStart := s.clock.time, good := 0, disagree := 0, rawErr := e, lastPulse := some s.clock.time,
          lastSecond := r.received.or y.lastSecond, received := none } = { r with
            mode := .suspect, suspectStart := s.clock.time, good := 0, disagree := 0, missing := 0, expiries := 0, rawErr := e,
            eps := eps, lastPulse := some s.clock.time, lastSecond := r.received.or r.lastSecond, received := none } := fun y h => by
      rw [h]
      exact ⟨hm, rfl⟩
    generalize hY : ({ r with missing := 0, expiries := 0, eps := eps, disagree := min 15 (r.disagree + 1) } : InputRec) = y at heffect
    obtain ⟨hyq, hyr⟩ := hy y hY.symm
    rw [verdictInput_two (k := k) (by rw [setInput_inputs, PerInput.get_set_ne _ hkn]; exact hkq)] at heffect
    obtain ⟨hforced, htime, -, hitem, hrec, hothers⟩ := verdict_named (s := s.setEv {}) (n := n) (x := n) y
      (by rw [setInput_inputs, PerInput.get_set]; exact hyq)
    generalize enterSuspect n (verdictState (setInput n y (s.setEv {}))) = v at *
    rw [setInput_inputs, PerInput.get_set] at hrec
    obtain ⟨hgovern, hsteps⟩ := governPulse_elsewhere (n := n) (s := v) (by rw [hrec]; nofun) e r.received
    rw [hgovern, hsteps] at heffect
    obtain ⟨-, hforced', hgov, hinputs⟩ := recorded_regoverned n e r.received v
    obtain ⟨t, hstep, hleft, -⟩ := pulse_left (n := n) hp
    have honly : pulseEffect n (s.setEv {}) = _ := pulseEffect_only n (s.setEv {})
    refine ⟨t, hstep, ?_, ?_, ?_, ?_, fun m hmn => ?_⟩
    · rw [hleft.clock, heffect, hforced']
      exact hforced
    · rw [hleft.clock, heffect, hgov]
      intro h
      have hq := chooseGoverning_qualified h
      rw [hrec] at hq
      cases hq
    · refine event_latches (f := pulseEffect n) hp rfl (by rw [honly]; exact hlen) hstep (by decide) (by decide) ?_
      rw [heffect]
      exact regovernFit_items hitem
    · rw [hleft.clock, heffect, hinputs, PerInput.get_set, hrec, htime]
      exact hyr
    · rw [hleft.clock, heffect, hinputs, PerInput.get_set_ne _ hmn, hothers m hmn, setInput_inputs, PerInput.get_set_ne _ hmn]
      rfl
  · intro f e eps whole median' far hj hband hlimit hcount hworst
    have hfiltered : filtered (s.setEv {}) r e = eps := by
      unfold filtered
      rw [filterShift_locked (s := s.setEv {}) hlocked]
      rfl
    have hwn : whole n = eps / 256 := if_pos rfl
    have hwg : whole g = (s.clock.inputs.get g).eps / 256 := if_neg hgn
    have heffect := pulseEffect_verdict (s := s.setEv {}) (r := r) (e := e) hon rfl (hall n) hseed rfl (decide_eq_false (not_lt.mpr hband)) hpulse h1 h2 hj
      hw hg hgn (fun m _ => ne_of_eq_of_ne (hall m) nofun) (by rw [hfiltered, ← hwn]; exact hwg ▸ hlimit) hcount
    rw [hfiltered] at heffect
    dsimp only at heffect
    have hy : ∀ y : InputRec, y = { r with missing := 0, expiries := 0, eps := eps, disagree := min 15 (r.disagree + 1) } →
        y.mode = .qualified ∧ y.eps = eps := fun y h => by
      rw [h]
      exact ⟨hall n, rfl⟩
    generalize hY : ({ r with missing := 0, expiries := 0, eps := eps, disagree := min 15 (r.disagree + 1) } : InputRec) = y at heffect
    obtain ⟨hyq, hye⟩ := hy y hY.symm
    have hq : ∀ m, ((setInput n y (s.setEv {})).clock.inputs.get m).mode = .qualified := fun m => by
      by_cases hmn : m = n
      · rw [hmn, setInput_inputs, PerInput.get_set, hyq]
      · rw [setInput_inputs, PerInput.get_set_ne _ hmn]
        exact hall m
    have hwhole : ∀ m, epsOf (setInput n y (s.setEv {})) m = whole m := fun m => by
      unfold epsOf
      by_cases hmn : m = n
      · rw [hmn, inputRec_setInput, hye]
        exact hwn.symm
      · rw [inputRec_setInput_ne hmn]
        exact (if_neg hmn).symm
    have hnamed : verdictInput (setInput n y (s.setEv {})) n = x := by
      refine verdictInput_three hq hg ?_
      simp only [hwhole]
      exact hworst
    rw [hnamed] at heffect
    obtain ⟨hforced, htime, -, hitem, hrec, hothers⟩ := verdict_named (s := s.setEv {}) (n := n) (x := x) y (hq x)
    generalize enterSuspect x (verdictState (setInput n y (s.setEv {}))) = v at *
    obtain ⟨hf, hgov, hin, hi⟩ := verdict_left heffect (x := x) (by rw [hrec]; nofun) hforced
    obtain ⟨t, hstep, hleft, -⟩ := pulse_left (n := n) hp
    have honly : pulseEffect n (s.setEv {}) = _ := pulseEffect_only n (s.setEv {})
    refine ⟨t, hstep, by rw [hleft.clock]; exact hf, by rw [hleft.clock]; exact hgov, ?_, ?_, ?_, fun m hmx => ?_, fun m => ?_⟩
    · exact event_latches (f := pulseEffect n) hp rfl (by rw [honly]; exact hlen) hstep (by decide) (by decide) (hi 7 hitem)
    · rw [hleft.clock, (hin x).1, hrec]
    · rw [hleft.clock, (hin x).2.1, hrec]
    · rw [hleft.clock, (hin m).1, hothers m hmx]
      exact hq m
    · rw [hleft.clock]
      refine (hin m).2.2 ?_
      by_cases hmx : m = x
      · rw [hmx, hrec]
      · rw [hothers m hmx]

end Sys2Proof.Machine
end

section
/-! PROOF of the governing pulse (O32): what a step event brings to every block, and the pulse in LOCKED and in ACQUIRING. -/

namespace Sys2Proof.Machine
open Sys2Proof

/-! ## The verification queue stands when channels return -/

theorem arbitrateLoop_queue (fuel : Nat) (n : Four) (s : State) : (arbitrateLoop fuel n s).clips.queue = s.clips.queue := by
  induction fuel generalizing s with
  | zero => rfl
  | succ fuel ih =>
    unfold arbitrateLoop
    split
    · rfl
    · split
      · exact ih _
      · split
        · exact ih _
        · split
          · rfl
          · exact ih _

theorem arbitrate_queue (n : Four) (s : State) : (arbitrate n s).clips.queue = s.clips.queue := by
  unfold arbitrate
  split
  · exact arbitrateLoop_queue ..
  · rfl

theorem returnChannel_queue (n : Four) (c : Channel) (reason : ReturnReason) (s : State) :
    (returnChannel n c reason s).clips.queue = s.clips.queue := by
  have hended : (endSplice n c reason s).clips.queue = s.clips.queue := by
    rw [endSplice_eq]
    rfl
  unfold returnChannel
  dsimp only
  split
  · exact hended
  · exact (arbitrate_queue _ _).trans hended

theorem spliceAnchoring_queue (s : State) : (spliceAnchoring s).clips.queue = s.clips.queue := by
  have hone : ∀ u n, (reAnchorChannel u n).clips.queue = u.clips.queue := fun u n => by
    unfold reAnchorChannel
    split
    · split
      · exact returnChannel_queue ..
      · rfl
    · rfl
  show (Four.all.foldl reAnchorChannel s).clips.queue = s.clips.queue
  simp only [Four.all, List.foldl_cons, List.foldl_nil, hone]

theorem enterAnchoring_queue (o : Nat) (s : State) : (enterAnchoring o s).clips.queue = s.clips.queue := by
  rw [enterAnchoring_eq, spliceAnchoring_queue]
  rfl

/-! ## A step event (R2, R39, R47, R88, R145) -/

/-- The end of the wait stands when permission is judged. -/
theorem judgePermission_retryEnd (s : State) : (judgePermission s).drive.retryEnd = s.drive.retryEnd := by
  have hramping : ∀ u : State, (enterRamping 1 u).drive.retryEnd = u.drive.retryEnd := fun u => by
    unfold enterRamping steadyAtCeiling
    dsimp only
    split
    · split <;> rfl
    · split <;> rfl
  unfold judgePermission
  split
  · split
    · exact hramping s
    · rfl
  · split <;> rfl
  · split <;> rfl
  · rfl

section
variable (d : Int) (s : State)

/-- A step event in OFF. -/
theorem stepEvent_off (h : s.em.mode = .off) : stepEvent d s = { s with
    clock := (moveClock d s).clock
    feed := (moveFeedTimes d s).feed
    store := (moveStoreTimes d s).store
    em := { s.em with anchor := s.em.anchor.map (fun a => { a with instant := a.instant + d }), origin := s.em.origin + d }
    drive := (moveDriveTimes d s).drive
    ev := { s.ev with items := s.ev.items ++ [3], stepped := true } } := by
  unfold stepEvent stepEmission reAnchorUnlessOff
  dsimp only
  rw [if_pos (by exact h)]
  rfl

/-- A step event out of OFF, what it leaves beside Splicing and the clips. -/
theorem stepEvent_on (h : s.em.mode ≠ .off) : ∃ (sp : SpliceState) (cl : ClipState) (em : EmissionState) (items : List Nat)
    (notes : List SpliceNote), stepEvent d s = { s with
      clock := (moveClock d s).clock
      feed := (moveFeedTimes d s).feed
      store := { emptiedStore s.store with marks := ⟨true, true⟩ }
      em := em
      drive := (moveDriveTimes d s).drive
      clips := cl
      splice := sp
      ev := { s.ev with
        items := items, stepped := true, splice := notes, emission := s.ev.emission ++ muteOccasions s ++ [7] } } ∧
    em.mode = .anchoring ∧ em.anchor = none ∧ cl.queue = s.clips.queue := by
  unfold stepEvent stepEmission reAnchorUnlessOff
  dsimp only
  rw [if_neg (by exact h), enterAnchoring_frame]
  exact ⟨_, _, _, _, _, rfl, rfl, rfl, enterAnchoring_queue _ _⟩

end

/-! ## The pulse of the input that governs -/

section
variable {s : State} {n : InputId} {r : InputRec} {e : Int}

theorem crossCheck_governing (h : s.clock.governing = some n) : crossCheck n s = s := by
  unfold crossCheck
  rw [h]
  exact if_neg (by simp)

/-- A pulse of the governing input inside its band, with no wrong number. -/
theorem pulseEffect_governing (hon : s.live.clock.enabled.get n = true) (hr : s.clock.inputs.get n = r) (hm : r.mode = .qualified)
    (hseed : r.reseed = false) (he : pulseError s.clock.time = e) (hout : outOfBand s n e = false) (hw : wrongNumber s r.received = false)
    (hg : s.clock.governing = some n) (hc : chooseGoverning s = some n) :
    let v := setInput n { r with missing := 0, expiries := 0, eps := filtered s r e } s
    pulseEffect n s = recordPulse n e (pulseWillStep n e v) r.received (governPulse n e r.received v) ∧ regovern v = v := by
  intro v
  subst hr he
  have heffect := pulseEffect_heard hon (ne_of_eq_of_ne hm nofun) (ne_of_eq_of_ne hm nofun) hseed
  dsimp only at heffect
  rw [hout, hw, heard_qualified rfl hm hseed, hout] at heffect
  simp only [Bool.false_eq_true, if_false] at heffect
  rw [transition_kept (x := { s.clock.inputs.get n with
    missing := 0, expiries := 0, eps := filtered s (s.clock.inputs.get n) (pulseError s.clock.time) }) hm, crossCheck_governing (s := v) hg,
    ite_self] at heffect
  refine ⟨heffect, regovern_settled (Eq.trans ?_ (hc.trans hg.symm))⟩
  refine chooseGoverning_congr (t := v) rfl rfl (fun m => ?_) rfl
  by_cases hmn : m = n
  · rw [hmn, setInput_inputs, PerInput.get_set]
  · exact congrArg InputRec.mode (PerInput.get_set_ne _ hmn _)

/-- A fit clock leaves the Frame Store and Splicing. -/
theorem judgeFit_fit (h : clockFit s = true) : (judgeFit s).store = s.store ∧ (judgeFit s).splice = s.splice := by
  unfold judgeFit
  split
  · exact ⟨rfl, rfl⟩
  · split
    · rw [if_neg (by simp [h])]
      exact ⟨rfl, rfl⟩
    · rw [setMute_eq]
      exact ⟨rfl, rfl⟩
    · exact ⟨rfl, rfl⟩

theorem clockFit_locked (h : s.clock.mode = .locked) : clockFit s = true := by
  unfold clockFit
  rw [h]

end

/-- The pulse in LOCKED, with the seconds set. -/
theorem lockedPulse {s : State} {n : InputId} {r : InputRec} {e : Int} (hon : s.live.clock.enabled.get n = true)
    (hlocked : s.clock.mode = .locked) (hr : s.clock.inputs.get n = r) (hm : r.mode = .qualified) (hseed : r.reseed = false)
    (he : pulseError s.clock.time = e) (hout : outOfBand s n e = false) (hw : wrongNumber s r.received = false)
    (hg : s.clock.governing = some n) (hc : chooseGoverning s = some n) (hset : s.clock.secondsSet = true) :
    pulseEffect n s = recordPulse n e false r.received (slewClock n (judgeFit
      (setInput n { r with missing := 0, expiries := 0, eps := filtered s r e } s))) := by
  obtain ⟨heffect, hstill⟩ := pulseEffect_governing hon hr hm hseed he hout hw hg hc
  obtain ⟨hgovern, hsteps⟩ := governPulse_locked (n := n) (e := e) (number := r.received) hstill hg hlocked
  rw [heffect, hgovern, hsteps, setSecondCount_set (by rw [judgeFit_clock]; exact hset)]

/-- The pulse in ACQUIRING within the step threshold, with the seconds set. -/
theorem acquiringPulse {s : State} {n : InputId} {r : InputRec} {e : Int} (hon : s.live.clock.enabled.get n = true)
    (hacq : s.clock.mode = .acquiring) (hr : s.clock.inputs.get n = r) (hm : r.mode = .qualified) (hseed : r.reseed = false)
    (he : pulseError s.clock.time = e) (hout : outOfBand s n e = false) (hg : s.clock.governing = some n)
    (hc : chooseGoverning s = some n) (hset : s.clock.secondsSet = true) (hstep : e.natAbs ≤ s.live.clock.stepThreshold) :
    pulseEffect n s = recordPulse n e false r.received (slewClock n (judgeFit (countLock n
      (setInput n { r with missing := 0, expiries := 0, eps := filtered s r e } s)))) := by
  obtain ⟨heffect, hstill⟩ := pulseEffect_governing hon hr hm hseed he hout (wrongNumber_unlocked (ne_of_eq_of_ne hacq nofun) _) hg hc
  obtain ⟨hgovern, hsteps⟩ := governPulse_acquiring (n := n) (e := e) (number := r.received) hstill hg hacq hstep hset
  rw [heffect, hgovern, hsteps]

/-- The pulse in ACQUIRING beyond the step threshold. -/
theorem steppingPulse {s : State} {n : InputId} {r : InputRec} {e : Int} (hon : s.live.clock.enabled.get n = true)
    (hacq : s.clock.mode = .acquiring) (hr : s.clock.inputs.get n = r) (hm : r.mode = .qualified) (hseed : r.reseed = false)
    (he : pulseError s.clock.time = e) (hout : outOfBand s n e = false) (hg : s.clock.governing = some n)
    (hc : chooseGoverning s = some n) (hstep : s.live.clock.stepThreshold < e.natAbs) :
    pulseEffect n s = recordPulse n e true r.received (stepClock n e r.received (judgeFit
      (setInput n { r with missing := 0, expiries := 0, eps := filtered s r e } s))) := by
  obtain ⟨heffect, hstill⟩ := pulseEffect_governing hon hr hm hseed he hout (wrongNumber_unlocked (ne_of_eq_of_ne hacq nofun) _) hg hc
  have hsteps : pulseSteps (setInput n { r with missing := 0, expiries := 0, eps := filtered s r e } s) e = true := by
    unfold pulseSteps
    rw [show (setInput n { r with missing := 0, expiries := 0, eps := filtered s r e } s).clock.mode = .acquiring from hacq]
    exact decide_eq_true hstep
  have hgovern : governPulse n e r.received (setInput n { r with missing := 0, expiries := 0, eps := filtered s r e } s) =
      stepClock n e r.received (judgeFit (setInput n { r with missing := 0, expiries := 0, eps := filtered s r e } s)) := by
    unfold governPulse
    rw [hstill]
    exact (if_pos hg).trans (if_pos hsteps)
  have hwill : pulseWillStep n e (setInput n { r with missing := 0, expiries := 0, eps := filtered s r e } s) = true := by
    unfold pulseWillStep
    rw [hstill]
    exact Bool.and_eq_true_iff.mpr ⟨beq_iff_eq.mpr hg, hsteps⟩
  rw [heffect, hgovern, hwill]

/-! ## The pulse that steps site time -/

/-- What a step event leaves, in OFF and out of it. -/
theorem stepEvent_leaves (d : Int) (s : State) :
    let t := stepEvent d s
    (t.clock = (moveClock d s).clock ∧ t.feed = (moveFeedTimes d s).feed ∧ t.drive = (moveDriveTimes d s).drive ∧
      t.store.marks = ⟨true, true⟩ ∧ t.clips.queue = s.clips.queue ∧ t.live = s.live ∧ t.mem = s.mem) ∧
    (t.ev.stepped = true ∧ t.ev.inputNotes = s.ev.inputNotes) ∧
    (s.em.mode = .off →
      t.em = { s.em with anchor := s.em.anchor.map (fun a => { a with instant := a.instant + d }), origin := s.em.origin + d } ∧
      t.store = (moveStoreTimes d s).store ∧ t.ev.emission = s.ev.emission) ∧
    (s.em.mode ≠ .off → t.em.mode = .anchoring ∧ t.em.anchor = none ∧ t.store = { emptiedStore s.store with marks := ⟨true, true⟩ } ∧
      t.ev.emission = s.ev.emission ++ muteOccasions s ++ [7]) := by
  intro t
  by_cases h : s.em.mode = .off
  · have ht : t = _ := stepEvent_off d s h
    rw [ht]
    exact ⟨⟨rfl, rfl, rfl, rfl, rfl, rfl, rfl⟩, ⟨rfl, rfl⟩, fun _ => ⟨rfl, rfl, rfl⟩, fun hne => absurd h hne⟩
  · obtain ⟨sp, cl, em, items, notes, ht, hmode, hanchor, hqueue⟩ := stepEvent_on d s h
    rw [show t = _ from ht]
    exact ⟨⟨rfl, rfl, rfl, rfl, hqueue, rfl, rfl⟩, ⟨rfl, rfl⟩, fun hoff => absurd hoff h, fun _ => ⟨hmode, hanchor, rfl, rfl⟩⟩

section
variable (s : State)

theorem judgeFit_drive : (judgeFit s).drive = s.drive := by
  unfold judgeFit
  split
  · rfl
  · split
    · split <;> rfl
    · rw [setMute_eq]
      rfl
    · rfl

/-- Emission that has judged the clock's fitness is in the state that it was in, and its store is emptied to the same. -/
theorem judgeFit_emptied : (judgeFit s).em.mode = s.em.mode ∧ emptiedStore (judgeFit s).store = emptiedStore s.store := by
  unfold judgeFit
  split
  · exact ⟨rfl, rfl⟩
  · split
    · split <;> exact ⟨rfl, rfl⟩
    · rw [setMute_eq]
      exact ⟨rfl, rfl⟩
    · exact ⟨rfl, rfl⟩

theorem judgeFit_occasions (h : s.ev.emission = []) : ∀ o ∈ (judgeFit s).ev.emission, 7 ≤ o := by
  unfold judgeFit
  split
  · simp [h]
  · split
    · split
      · intro o ho
        have : o ∈ s.ev.emission ++ [10] := ho
        rw [h] at this
        simp at this
        omega
      · simp [h]
    · rw [setMute_eq]
      intro o ho
      have : o ∈ s.ev.emission ++ if ({ s.em.mute with time := !clockFit s } : MuteSet) = s.em.mute then [] else [11] := ho
      rw [h] at this
      split at this <;> simp at this
      omega
    · simp [h]

end

theorem min_seven {xs : List Nat} (h : ∀ o ∈ xs, 7 ≤ o) : (xs ++ [7]).min? = some 7 :=
  List.min?_eq_some_iff.mpr ⟨by simp, fun o ho => by
    rcases List.mem_append.mp ho with ho | ho
    · exact h o ho
    · exact (List.mem_singleton.mp ho).ge⟩

/-- The EMISSION occasion of a step out of OFF is the step (R90). -/
theorem stepped_occasion {s w : State} (hs : ∀ o ∈ s.ev.emission, 7 ≤ o) (h : w.ev.emission = s.ev.emission ++ muteOccasions s ++ [7]) :
    w.ev.emission.min? = some 7 := by
  rw [h]
  refine min_seven fun o ho => ?_
  rcases List.mem_append.mp ho with ho | ho
  · exact hs o ho
  · unfold muteOccasions at ho
    split at ho
    · cases ho
    · obtain rfl := List.mem_singleton.mp ho
      decide

/-- The part whose clock is set for a step, before site time moves (R2). -/
def readyToStep (n : InputId) (e : Int) (s : State) : State :=
  s.setClock { s.clock with
    inputs := steppedInputs n e s.clock.inputs, lockCount := 0, secondsSet := true, slew := 0, slewPos := 0, slewLeft := 0 }

theorem stepClock_eq (n : InputId) (e : Int) (number : Option Nat) (s : State) :
    let second : Int := match number with | some k => k | none => (s.clock.time + 5000000) / 10000000
    stepClock n e number s = stepEvent (second * 10000000 - s.clock.time) (readyToStep n e s) := by
  cases number <;> rfl

/-! ## The obligation (O32) -/

/-- A pulse in LOCKED, and one in ACQUIRING that does not step. -/
theorem steeringPulses (s : State) (n : InputId) (hp : Powered s) (hon : s.live.clock.enabled.get n = true)
    (hg : s.clock.governing = some n) (hc : chooseGoverning s = some n) (hset : s.clock.secondsSet = true)
    (hq : (s.clock.inputs.get n).mode = .qualified) (hseed : (s.clock.inputs.get n).reseed = false) :
    let r := s.clock.inputs.get n
    let f := s.clock.time % 10000000
    let e := if f < 5000000 then f else f - 10000000
    let steered (eps : Int) (c : ClockState) : ClockState :=
      let p := clamp (-50) 50 (-((eps / 256).tdiv ((2 : Int) ^ s.live.clock.slewShift)))
      { c with
        slew := p, slewPos := 0, slewLeft := p.natAbs,
        corr := clamp (-2000000) 2000000 (s.clock.corr + (p * 100000).tdiv ((2 : Int) ^ s.live.clock.learnShift)),
        inputs := s.clock.inputs.set n { r with
          rawErr := e, eps := eps, missing := 0, lastPulse := some s.clock.time, lastSecond := r.received.or r.lastSecond,
          received := none, expiries := 0 } }
    (e - r.eps / 256).natAbs ≤ s.live.clock.suspectBand →
    (s.clock.mode = .locked → wrongNumber s r.received = false →
      ∃ t, exec (.timePulse n) s = .next t ∧ t.clock = steered (r.eps + (e * 256 - r.eps) / (2 : Int) ^ s.live.clock.beta) s.clock ∧
        t.feed = s.feed ∧ t.store = s.store ∧ t.clips = s.clips ∧ t.splice = s.splice ∧ t.live = s.live ∧ t.mem = s.mem) ∧
    (s.clock.mode = .acquiring → e.natAbs ≤ s.live.clock.stepThreshold →
      let eps := r.eps + (e * 256 - r.eps) / (2 : Int) ^ s.live.clock.betaFast
      let count := if (eps / 256).natAbs ≤ s.live.clock.lockWindow then min 60 (s.clock.lockCount + 1) else 0
      let locks := s.live.clock.lockCount ≤ count
      ∃ t, exec (.timePulse n) s = .next t ∧
        t.clock = steered eps { s.clock with
          lockCount := count, mode := if locks then .locked else .acquiring, u := if locks then 0 else s.clock.u } ∧
        t.feed = s.feed ∧ t.clips = s.clips ∧ t.live = s.live ∧ t.mem = s.mem) := by
  intro r f e steered hband
  have hout : outOfBand (s.setEv {}) n e = false := decide_eq_false (not_lt.mpr hband)
  obtain ⟨t, hstep, hleft, -⟩ := pulse_left (n := n) hp
  refine ⟨fun hlocked hw => ⟨t, hstep, ?_⟩, fun hacq hthreshold => ?_⟩
  · have heffect := lockedPulse (s := s.setEv {}) (r := r) (e := e) hon hlocked rfl hq hseed rfl hout hw hg hc hset
    have hfiltered : filtered (s.setEv {}) r e = r.eps + (e * 256 - r.eps) / (2 : Int) ^ s.live.clock.beta := by
      unfold filtered
      rw [filterShift_locked (s := s.setEv {}) hlocked]
      rfl
    rw [hfiltered] at heffect
    generalize hx : ({ r with missing := 0, expiries := 0, eps := r.eps + (e * 256 - r.eps) / (2 : Int) ^ s.live.clock.beta } : InputRec) = x
      at heffect
    have hxe : x.eps = r.eps + (e * 256 - r.eps) / (2 : Int) ^ s.live.clock.beta := by rw [← hx]
    have hv : ∀ v, v = setInput n x (s.setEv {}) → (judgeFit v).feed = s.feed ∧ (judgeFit v).store = s.store ∧ (judgeFit v).clips = s.clips ∧
        (judgeFit v).splice = s.splice ∧ (judgeFit v).live = s.live ∧ (judgeFit v).mem = s.mem := fun v h => by
      have hfit := judgeFit_fit (s := v) (clockFit_locked (by rw [h]; exact hlocked))
      rw [judgeFit_feed, hfit.1, judgeFit_clips, hfit.2, judgeFit_live, judgeFit_mem, h]
      exact ⟨rfl, rfl, rfl, rfl, rfl, rfl⟩
    refine ⟨?_, ?_⟩
    · rw [hleft.clock, heffect, recorded_steered, setInput_inputs, PerInput.get_set, PerInput.set_set, hxe, ← hx]
      rfl
    · rw [hleft.feed, hleft.store, hleft.clips, hleft.splice, hleft.live, hleft.mem, heffect]
      exact hv _ rfl
  · intro eps count locks
    refine ⟨t, hstep, ?_⟩
    have heffect := acquiringPulse (s := s.setEv {}) (r := r) (e := e) hon hacq rfl hq hseed rfl hout hg hc hset hthreshold
    have hfiltered : filtered (s.setEv {}) r e = eps := by
      unfold filtered filterShift
      rw [show (s.setEv {}).clock.mode = .acquiring from hacq]
      rfl
    rw [hfiltered] at heffect
    generalize hx : ({ r with missing := 0, expiries := 0, eps := eps } : InputRec) = x at heffect
    have hxe : x.eps = eps := by rw [← hx]
    have hcount : countLock n (setInput n x (s.setEv {})) = if locks then
          ((setInput n x (s.setEv {})).setClock { (setInput n x (s.setEv {})).clock with lockCount := count, mode := .locked, u := 0 }).setEv
            { clockNote := true }
        else (setInput n x (s.setEv {})).setClock { (setInput n x (s.setEv {})).clock with lockCount := count } := by
      rw [countLock_eq, setInput_inputs, PerInput.get_set, hxe]
      rfl
    generalize hg' : countLock n (setInput n x (s.setEv {})) = g at heffect hcount
    have hclock : g.clock = { s.clock with
        lockCount := count, mode := if locks then .locked else .acquiring, u := if locks then 0 else s.clock.u,
        inputs := s.clock.inputs.set n x } := by
      rw [hcount]
      by_cases hl : locks
      · simp only [if_pos hl]
        rfl
      · simp only [if_neg hl, ← hacq]
        rfl
    have hrest : g.feed = s.feed ∧ g.clips = s.clips ∧ g.live = s.live ∧ g.mem = s.mem := by
      rw [hcount]
      split <;> exact ⟨rfl, rfl, rfl, rfl⟩
    obtain ⟨hfeed, hclips, hlive, hmem⟩ := hrest
    refine ⟨?_, ?_⟩
    · rw [hleft.clock, heffect, recorded_steered, hlive, hclock]
      dsimp only
      rw [PerInput.get_set, PerInput.set_set, hxe, ← hx]
    · rw [hleft.feed, hleft.clips, hleft.live, hleft.mem, heffect]
      exact ⟨(judgeFit_feed g).trans hfeed, (judgeFit_clips g).trans hclips, (judgeFit_live g).trans hlive, (judgeFit_mem g).trans hmem⟩

/-- The CLOCK notice of a step without an input's change (R20). -/
theorem clockNotices_stepped {g : State} {n : InputId} {m : ClockMode} (hin : g.ev.inputNotes = ({} : Report).inputNotes)
    (hs : g.ev.stepped = true) (hm : g.clock.mode = m) (hg : g.clock.governing = some n) :
    clockNotices g = [[BitVec.ofNat 8 (clockCode m)] ++ be 1 n.num ++ [0, 0, 1]] := by
  rw [clockNotices_quiet hin, hs, Bool.or_true, if_pos rfl]
  unfold clockNotice
  rw [hs, hm, hg]
  cases m <;> cases n <;> rfl

/-- A pulse in ACQUIRING beyond the step threshold. -/
theorem steppingPulses (s : State) (n : InputId) (hp : Powered s) (hon : s.live.clock.enabled.get n = true)
    (hacq : s.clock.mode = .acquiring) (hg : s.clock.governing = some n) (hc : chooseGoverning s = some n)
    (hq : (s.clock.inputs.get n).mode = .qualified) (hseed : (s.clock.inputs.get n).reseed = false) (hlen : s.alarms.records.length = 36) :
    let r := s.clock.inputs.get n
    let f := s.clock.time % 10000000
    let e := if f < 5000000 then f else f - 10000000
    let second : Int := match r.received with | some k => k | none => (s.clock.time + 5000000) / 10000000
    let delta := second * 10000000 - s.clock.time
    (e - r.eps / 256).natAbs ≤ s.live.clock.suspectBand → s.live.clock.stepThreshold < e.natAbs → 0 ≤ second →
    second * 10000000 < 18446744073709551616 →
    ∃ t, exec (.timePulse n) s = .next t ∧ t.clock.time = second * 10000000 ∧ t.clock.mode = .acquiring ∧
      t.clock.lockCount = 0 ∧ t.clock.secondsSet = true ∧ t.clock.slew = 0 ∧ t.clock.slewLeft = 0 ∧ t.clock.corr = s.clock.corr ∧
      (∀ m, t.clock.inputs.get m =
        let x := s.clock.inputs.get m
        if m = n then
          { x with
            rawErr := 0, eps := 0, disagree := 0, missing := 0, expiries := 0, lastPulse := some (second * 10000000),
            suspectStart := x.suspectStart + delta, disqTime := x.disqTime + delta,
            lastSecond := r.received.or r.lastSecond, received := none }
        else
          { x with
            rawErr := x.rawErr - e, eps := x.eps - e * 256, disagree := 0, lastPulse := x.lastPulse.map (· + delta),
            suspectStart := x.suspectStart + delta, disqTime := x.disqTime + delta }) ∧
      (alarmRec t 3).latched = true ∧
      (∀ q, t.feed.ports.get q =
        { s.feed.ports.get q with deadline := (s.feed.ports.get q).deadline.map (· + delta) }) ∧ t.feed.hold = s.feed.hold ∧
      t.drive.retryEnd = s.drive.retryEnd.map (· + delta) ∧ t.store.marks = ⟨true, true⟩ ∧
      (s.em.mode = .off → t.em = { s.em with
          anchor := s.em.anchor.map (fun a => { a with instant := a.instant + delta }), origin := s.em.origin + delta } ∧
        t.store = (moveStoreTimes delta s).store) ∧
      (s.em.mode ≠ .off → t.em.mode = .anchoring ∧ t.em.anchor = none ∧
        t.store = { s.store with
          slots := List.replicate 64 .free, base := none, jumpRun := 0, mismatchRun := 0, marks := ⟨true, true⟩ }) ∧
      Noticed 1 [[1] ++ be 1 n.num ++ [0, 0, 1]] s t ∧
      Noticed 3 (if s.em.mode = .off then [] else [emissionBody t 7]) s t ∧
      t.clips.queue = s.clips.queue ∧ t.live = s.live ∧ t.mem = s.mem := by
  intro r f e second delta hband hthreshold hnonneg hbound
  have hout : outOfBand (s.setEv {}) n e = false := decide_eq_false (not_lt.mpr hband)
  have heffect := steppingPulse (s := s.setEv {}) (r := r) (e := e) hon hacq rfl hq hseed rfl hout hg hc hthreshold
  obtain ⟨t, hstep, hleft, hnotes⟩ := pulse_left (n := n) hp
  have honly : pulseEffect n (s.setEv {}) = _ := pulseEffect_only n (s.setEv {})
  have hx : ∀ x : InputRec, x = { r with missing := 0, expiries := 0, eps := filtered (s.setEv {}) r e } →
      ({ x with
          rawErr := 0, eps := 0, disagree := 0, lastPulse := some (second * 10000000), suspectStart := x.suspectStart + delta,
          disqTime := x.disqTime + delta, lastSecond := r.received.or x.lastSecond, received := none } : InputRec) =
        { r with
          rawErr := 0, eps := 0, disagree := 0, missing := 0, expiries := 0, lastPulse := some (second * 10000000),
          suspectStart := r.suspectStart + delta, disqTime := r.disqTime + delta, lastSecond := r.received.or r.lastSecond,
          received := none } := fun x h => by rw [h]
  generalize hX : ({ r with missing := 0, expiries := 0, eps := filtered (s.setEv {}) r e } : InputRec) = x at heffect
  replace hx := hx x hX.symm
  generalize hv : setInput n x (s.setEv {}) = v at heffect
  have hvclock : v.clock = { s.clock with inputs := s.clock.inputs.set n x } := by rw [← hv]; rfl
  have hvem : v.em = s.em := by rw [← hv]; rfl
  have hvev : v.ev = {} := by rw [← hv]; rfl
  have hrest : v.feed = s.feed ∧ v.store = s.store ∧ v.clips = s.clips ∧ v.drive = s.drive ∧ v.live = s.live ∧ v.mem = s.mem := by
    rw [← hv]
    exact ⟨rfl, rfl, rfl, rfl, rfl, rfl⟩
  obtain ⟨hvfeed, hvstore, hvclips, hvdrive, hvlive, hvmem⟩ := hrest
  have hstepped := stepClock_eq n e r.received (judgeFit v)
  rw [judgeFit_clock, show v.clock.time = s.clock.time by rw [hvclock]] at hstepped
  replace hstepped : stepClock n e r.received (judgeFit v) = stepEvent delta (readyToStep n e (judgeFit v)) := hstepped
  rw [hstepped] at heffect
  obtain ⟨⟨hclock, hfeed, hdrive, hmarks, hqueue, hlive, hmem⟩, ⟨hst, hin⟩, hoff, hnotoff⟩ := stepEvent_leaves delta (readyToStep n e (judgeFit v))
  have hitem : 3 ∈ (stepEvent delta (readyToStep n e (judgeFit v))).ev.items := stepEvent_items _ (.inr rfl)
  generalize stepEvent delta (readyToStep n e (judgeFit v)) = w at *
  have hready : (readyToStep n e (judgeFit v)).clock = { s.clock with
      inputs := steppedInputs n e (s.clock.inputs.set n x), lockCount := 0, secondsSet := true, slew := 0, slewPos := 0, slewLeft := 0 } := by
    rw [readyToStep, State.setClock_clock, judgeFit_clock, hvclock]
  have hwclock : w.clock = { s.clock with
      time := second * 10000000, boundary := second * 10000000 / 10000000, lockCount := 0, secondsSet := true, slew := 0, slewPos := 0,
      slewLeft := 0,
      inputs := (steppedInputs n e (s.clock.inputs.set n x)).map (fun r => { r with
        lastPulse := r.lastPulse.map (· + delta), suspectStart := r.suspectStart + delta, disqTime := r.disqTime + delta }) } := by
    rw [hclock, moveClock, State.setClock_clock, hready]
    dsimp only
    rw [show s.clock.time + delta = second * 10000000 by omega, Int.emod_eq_of_lt (by omega) hbound]
    rfl
  have hem := judgeFit_emptied v
  rw [hvem, hvstore] at hem
  have hready_em : (readyToStep n e (judgeFit v)).em = (judgeFit v).em := rfl
  rw [hready_em] at hoff hnotoff
  have hunjudged : s.em.mode = .off → judgeFit v = v := fun h => judgeFit_unstamped (.inr (by rw [hvem]; exact h))
  have hrec := recordPulse_clock n e true r.received w
  refine ⟨t, hstep, ?_, ?_, ?_, ?_, ?_, ?_, ?_, fun m => ?_, ?_, fun q => ?_, ?_, ?_, ?_, fun h => ?_, fun h => ?_, ?_, ?_, ?_, ?_, ?_⟩
  any_goals rw [hleft.clock, heffect, hrec, hwclock]
  · exact hacq
  · dsimp only
    by_cases hmn : m = n
    · subst hmn
      rw [PerInput.get_set, PerInput.get_map, steppedInputs_get, if_pos rfl, PerInput.get_set, if_pos rfl, if_pos rfl]
      exact hx
    · rw [PerInput.get_set_ne _ hmn, PerInput.get_map, steppedInputs_get, if_neg hmn, PerInput.get_set_ne _ hmn, if_neg hmn]
  · refine event_latches (f := pulseEffect n) hp rfl (by rw [honly]; exact hlen) hstep (by decide) (by decide) ?_
    rw [heffect]
    exact hitem
  · rw [hleft.feed, heffect, show (recordPulse n e true r.received w).feed = w.feed from rfl, hfeed, moveFeedTimes]
    show ((judgeFit v).feed.ports.map _).get q = _
    rw [judgeFit_feed, hvfeed]
    cases q <;> rfl
  · rw [hleft.feed, heffect, show (recordPulse n e true r.received w).feed = w.feed from rfl, hfeed, moveFeedTimes]
    show (judgeFit v).feed.hold = _
    rw [judgeFit_feed, hvfeed]
  · rw [hleft.drive, judgePermission_retryEnd, heffect, show (recordPulse n e true r.received w).drive = w.drive from rfl, hdrive]
    show (judgeFit v).drive.retryEnd.map _ = _
    rw [judgeFit_drive, hvdrive]
  · rw [hleft.store, heffect]
    exact hmarks
  · obtain ⟨hoffem, hoffstore, -⟩ := hoff (hem.1.trans h)
    rw [hleft.em, hleft.store, heffect, show (recordPulse n e true r.received w).em = w.em from rfl,
      show (recordPulse n e true r.received w).store = w.store from rfl, hoffem, hoffstore, hunjudged h, hvem]
    refine ⟨rfl, ?_⟩
    show (moveStoreTimes delta v).store = _
    unfold moveStoreTimes
    dsimp only
    rw [hvstore]
    rfl
  · obtain ⟨honmode, honanchor, honstore, -⟩ := hnotoff (ne_of_eq_of_ne hem.1 h)
    rw [hleft.em, hleft.store, heffect, show (recordPulse n e true r.received w).em = w.em from rfl,
      show (recordPulse n e true r.received w).store = w.store from rfl]
    refine ⟨honmode, honanchor, honstore.trans ?_⟩
    rw [show (readyToStep n e (judgeFit v)).store = (judgeFit v).store from rfl, hem.2]
    rfl
  · rw [heffect, recordPulse_notices, clockNotices_stepped (n := n) (m := .acquiring) ?_ hst (by rw [hwclock]; exact hacq) (by rw [hwclock]; exact hg)]
      at hnotes
    · exact hnotes
    · rw [hin]
      exact (judgeFit_clockNotes v).1.trans (by rw [hvev])
  · have hlink : (pulseEffect n (s.setEv {})).link = s.link := by rw [honly]; rfl
    have halarms : (pulseEffect n (s.setEv {})).alarms = s.alarms := by rw [honly]; rfl
    have hplive : (pulseEffect n (s.setEv {})).live = s.live := by rw [honly]; rfl
    refine (event_emission (f := pulseEffect n) hp rfl hplive hlink halarms hleft.em hstep).of_eq ?_
    rw [heffect, show (recordPulse n e true r.received w).ev.emission = w.ev.emission from rfl]
    by_cases h : s.em.mode = .off
    · rw [if_pos h, (hoff (hem.1.trans h)).2.2]
      show (match ((judgeFit v).ev.emission).min? with | some occasion => _ | none => _) = _
      rw [hunjudged h, hvev]
      rfl
    · rw [if_neg h]
      have hocc := stepped_occasion (s := readyToStep n e (judgeFit v)) (w := w) (judgeFit_occasions v (by rw [hvev]))
        (hnotoff (ne_of_eq_of_ne hem.1 h)).2.2.2
      rw [hocc]
      rfl
  · rw [hleft.clips, heffect]
    refine hqueue.trans ?_
    show (judgeFit v).clips.queue = _
    rw [judgeFit_clips, hvclips]
  · rw [hleft.live, heffect]
    refine hlive.trans ?_
    show (judgeFit v).live = _
    rw [judgeFit_live, hvlive]
  · rw [hleft.mem, heffect]
    refine hmem.trans ?_
    show (judgeFit v).mem = _
    rw [judgeFit_mem, hvmem]

/-! ### The second count in LOCKED (R2, R16) -/

/-- The part with the seconds set. -/
def secondsKnown (s : State) : State := s.setClock { s.clock with secondsSet := true }

theorem setSecondCount_first {s : State} (hm : s.clock.mode = .locked) (hset : s.clock.secondsSet = false) (k : Nat) :
    let delta := ((k : Int) - (s.clock.time + 5000000) / 10000000) * 10000000
    setSecondCount (some k) s = if delta = 0 then secondsKnown s else stepEvent delta (secondsKnown s) := if_pos ⟨hm, hset⟩

/-- What the first second count leaves. -/
theorem setSecondCount_leaves {s : State} (hm : s.clock.mode = .locked) (hset : s.clock.secondsSet = false) (k : Nat)
    (hin : s.ev.inputNotes = ({} : Report).inputNotes) (hnote : s.ev.clockNote = false) (hst : s.ev.stepped = false) {n : InputId}
    (hg : s.clock.governing = some n) :
    let delta := ((k : Int) - (s.clock.time + 5000000) / 10000000) * 10000000
    let g := setSecondCount (some k) s
    0 ≤ s.clock.time + delta → s.clock.time + delta < 18446744073709551616 →
    g.clock.time = s.clock.time + delta ∧ g.clock.mode = .locked ∧ g.clock.secondsSet = true ∧
    (∀ m, (g.clock.inputs.get m).lastPulse = (s.clock.inputs.get m).lastPulse.map (· + delta)) ∧
    clockNotices g = (if delta = 0 then [] else [[2] ++ be 1 n.num ++ [0, 0, 1]]) ∧
    (delta ≠ 0 → 3 ∈ g.ev.items ∧ g.store.marks = ⟨true, true⟩ ∧ (s.em.mode ≠ .off → g.em.mode = .anchoring ∧ g.em.anchor = none)) := by
  intro delta g h0 hbound
  have hfirst : g = if delta = 0 then secondsKnown s else stepEvent delta (secondsKnown s) := setSecondCount_first hm hset k
  by_cases hd : delta = 0
  · rw [if_pos hd] at hfirst
    rw [hfirst, hd, if_pos rfl]
    refine ⟨(Int.add_zero _).symm, hm, rfl, fun m => ?_, ?_, fun h => absurd rfl h⟩
    · rw [show (fun x : Int => x + 0) = id from funext Int.add_zero, Option.map_id]
      rfl
    · rw [clockNotices_quiet (s := secondsKnown s) hin]
      exact if_neg (by
        rw [show (secondsKnown s).ev = s.ev from rfl, hnote, hst]
        decide)
  · rw [if_neg hd] at hfirst
    obtain ⟨⟨hclock, -, -, hmarks, -, -, -⟩, ⟨hst', hin'⟩, -, hnotoff⟩ := stepEvent_leaves delta (secondsKnown s)
    have hitem : 3 ∈ (stepEvent delta (secondsKnown s)).ev.items := stepEvent_items _ (.inr rfl)
    have htime : (moveClock delta (secondsKnown s)).clock.time = s.clock.time + delta := Int.emod_eq_of_lt h0 hbound
    rw [hfirst, if_neg hd]
    refine ⟨by rw [hclock, htime], by rw [hclock]; exact hm, by rw [hclock]; rfl, fun m => ?_, ?_,
      fun _ => ⟨hitem, hmarks, fun h => ⟨(hnotoff h).1, (hnotoff h).2.1⟩⟩⟩
    · rw [hclock]
      show InputRec.lastPulse ((s.clock.inputs.map _).get m) = _
      rw [PerInput.get_map]
    · exact clockNotices_stepped (m := .locked) (hin'.trans hin) hst' (by rw [hclock]; exact hm) (by rw [hclock]; exact hg)

/-- The pulse in LOCKED that carries the first second count. -/
theorem countingPulses (s : State) (n : InputId) (k : Nat) (hp : Powered s) (hon : s.live.clock.enabled.get n = true)
    (hlocked : s.clock.mode = .locked) (hg : s.clock.governing = some n) (hc : chooseGoverning s = some n)
    (hset : s.clock.secondsSet = false) (hq : (s.clock.inputs.get n).mode = .qualified) (hseed : (s.clock.inputs.get n).reseed = false)
    (hk : (s.clock.inputs.get n).received = some k) (hlen : s.alarms.records.length = 36) :
    let r := s.clock.inputs.get n
    let f := s.clock.time % 10000000
    let e := if f < 5000000 then f else f - 10000000
    let delta := ((k : Int) - (s.clock.time + 5000000) / 10000000) * 10000000
    (e - r.eps / 256).natAbs ≤ s.live.clock.suspectBand → 0 ≤ s.clock.time + delta → s.clock.time + delta < 18446744073709551616 →
    ∃ t, exec (.timePulse n) s = .next t ∧ t.clock.time = s.clock.time + delta ∧ t.clock.mode = .locked ∧ t.clock.secondsSet = true ∧
      (t.clock.inputs.get n).lastPulse = some (s.clock.time + delta) ∧ (t.clock.inputs.get n).lastSecond = some k ∧
      (∀ m, m ≠ n → (t.clock.inputs.get m).lastPulse = (s.clock.inputs.get m).lastPulse.map (· + delta)) ∧
      Noticed 1 (if delta = 0 then [] else [[2] ++ be 1 n.num ++ [0, 0, 1]]) s t ∧
      (delta ≠ 0 → (alarmRec t 3).latched = true ∧ t.store.marks = ⟨true, true⟩ ∧
        (s.em.mode ≠ .off → t.em.mode = .anchoring ∧ t.em.anchor = none)) := by
  intro r f e delta hband h0 hbound
  have hout : outOfBand (s.setEv {}) n e = false := decide_eq_false (not_lt.mpr hband)
  have hw : wrongNumber (s.setEv {}) r.received = false := by
    unfold wrongNumber
    rw [show r.received = some k from hk, show (s.setEv {}).clock.secondsSet = false from hset]
    simp
  obtain ⟨heffect, hstill⟩ := pulseEffect_governing (s := s.setEv {}) (r := r) (e := e) hon rfl hq hseed rfl hout hw hg hc
  generalize ({ r with missing := 0, expiries := 0, eps := filtered (s.setEv {}) r e } : InputRec) = x at heffect hstill
  obtain ⟨hgovern, hsteps⟩ := governPulse_locked (n := n) (e := e) (number := r.received) hstill hg hlocked
  rw [hgovern, hsteps, show r.received = some k from hk] at heffect
  generalize hv : setInput n x (s.setEv {}) = v at heffect
  have hvclock : v.clock = { s.clock with inputs := s.clock.inputs.set n x } := by rw [← hv]; rfl
  have hvev : v.ev = {} := by rw [← hv]; rfl
  obtain ⟨hin, hnote, hst⟩ := judgeFit_clockNotes v
  have hjem : (judgeFit v).em.mode = s.em.mode := by
    rw [(judgeFit_emptied v).1, ← hv]
    rfl
  have hjclock : (judgeFit v).clock = { s.clock with inputs := s.clock.inputs.set n x } := by rw [judgeFit_clock, hvclock]
  generalize judgeFit v = j at *
  have hleaves := setSecondCount_leaves (s := j) (n := n) (by rw [hjclock]; exact hlocked) (by rw [hjclock]; exact hset) k
    (by rw [hin, hvev]) (by rw [hnote, hvev]) (by rw [hst, hvev]) (by rw [hjclock]; exact hg)
  rw [show j.clock.time = s.clock.time by rw [hjclock]] at hleaves
  obtain ⟨htime, hmode, hsecs, hpulses, hnotices, hstepped⟩ := hleaves h0 hbound
  generalize setSecondCount (some k) j = g at *
  obtain ⟨t, hstep, hleft, hnotes⟩ := pulse_left (n := n) hp
  have honly : pulseEffect n (s.setEv {}) = _ := pulseEffect_only n (s.setEv {})
  have hclock : t.clock = _ := hleft.clock.trans ((congrArg State.clock heffect).trans (recordPulse_clock n e false (some k) (slewClock n g)))
  refine ⟨t, hstep, ?_, ?_, ?_, ?_, ?_, fun m hmn => ?_, ?_, fun hd => ?_⟩
  · rw [hclock]
    exact htime
  · rw [hclock]
    exact hmode
  · rw [hclock]
    exact hsecs
  · rw [hclock]
    dsimp only
    rw [PerInput.get_set]
    exact congrArg some htime
  · rw [hclock]
    dsimp only
    rw [PerInput.get_set]
    rfl
  · rw [hclock]
    dsimp only
    rw [PerInput.get_set_ne _ hmn, show (slewClock n g).clock.inputs = g.clock.inputs from rfl, hpulses m, hjclock]
    dsimp only
    rw [PerInput.get_set_ne _ hmn]
  · rw [heffect, recordPulse_notices, show clockNotices (slewClock n g) = clockNotices g from rfl, hnotices] at hnotes
    exact hnotes
  · obtain ⟨hitem, hmarks, hem⟩ := hstepped hd
    refine ⟨?_, ?_, fun h => ?_⟩
    · refine event_latches (f := pulseEffect n) hp rfl (by rw [honly]; exact hlen) hstep (by decide) (by decide) ?_
      rw [heffect]
      exact hitem
    · rw [hleft.store, heffect]
      exact hmarks
    · rw [hleft.em, heffect]
      exact hem (ne_of_eq_of_ne hjem h)

/-- Settles O32: the pulse that steers, in LOCKED and in ACQUIRING, the one that steps site time, and the first second count. -/
theorem lockedPulseSteers : Obligations.LockedPulseSteers := by
  refine ⟨fun s n hp hon hlocked hg hc hset hq hseed hw => ?_, fun s n hp hon hacq hg hc hq hseed hlen => ?_, fun delta s i h seq => ?_,
    fun s n k hp hon hlocked hg hc hset hq hseed hk hlen => countingPulses s n k hp hon hlocked hg hc hset hq hseed hk hlen⟩
  · intro r f e eps p hband
    exact (steeringPulses s n hp hon hg hc hset hq hseed hband).1 hlocked hw
  · intro r f e eps p hband
    refine ⟨fun hthreshold hset => (steeringPulses s n hp hon hg hc hset hq hseed hband).2 hacq hthreshold, fun hthreshold => ?_⟩
    exact steppingPulses s n hp hon hacq hg hc hq hseed hlen hband hthreshold
  · refine ⟨fun hs => ?_, fun hs => ?_⟩
    · show (s.store.slots.map _)[i]? = _
      rw [List.getElem?_map, hs]
      rfl
    · show (s.store.slots.map _)[i]? = _
      rw [List.getElem?_map, hs]
      rfl

end Sys2Proof.Machine
end

section
/-! SUPPORT for O23 and O24. The laws of the table of settings stand first: each setting holds what is put, and what it holds can be put back. -/

namespace Sys2Proof.Machine
open Sys2Proof

/-! ## The laws of the parameter table (R178) -/

/-- Both enable lists of the Alarm Unit have their full lengths. -/
def EnablesOk (p : Params) : Prop := p.alarm.report.length = 36 ∧ p.alarm.notice.length = 8

/-- A setting gives back what is put, and the value that it holds changes nothing when put again. -/
structure Lawful (x : Setting) : Prop where
  put_get : ∀ p, x.put p (x.get p) = p
  get_put : ∀ p w v, judgeValue x.values w = some v → EnablesOk p → x.get (x.put p v) = v

theorem boolCode_one (b : Bool) : (boolCode b == 1) = b := by cases b <;> rfl

theorem clamp_nonneg {lo hi w : Int} (hlo : 0 ≤ lo) (hhi : 0 ≤ hi) : 0 ≤ clamp lo hi w := by
  unfold clamp
  split
  · exact hlo
  · split <;> omega

/-- A code of yes or no that is judged to be one. -/
theorem boolCode_of_judged {w v : Int} (h : judgeValue yesNo w = some v) : boolCode (v == 1) = v := by
  have hv : v = 0 ∨ v = 1 := by
    simp only [yesNo, judgeValue] at h
    split at h
    case isTrue hc =>
      obtain rfl := Option.some.inj h
      simpa using hc
    case isFalse => exact absurd h nofun
  rcases hv with rfl | rfl <;> rfl

theorem lawful_number {lo hi : Int} {get : Params → Nat} {put : Params → Nat → Params} (hlo : 0 ≤ lo) (hhi : 0 ≤ hi)
    (hg : ∀ p v, get (put p v) = v) (hp : ∀ p, put p (get p) = p) :
    Lawful ⟨.numeric lo hi, fun p => get p, fun p v => put p v.toNat⟩ where
  put_get p := hp p
  get_put p w v h _ := by
    obtain rfl := Option.some.inj h
    show ((get (put p (clamp lo hi w).toNat) : Nat) : Int) = _
    rw [hg, Int.toNat_of_nonneg (clamp_nonneg hlo hhi)]

/-- A setting of codes that are no negative numbers. -/
theorem lawful_codes {codes : List Nat} {get : Params → Nat} {put : Params → Nat → Params} (hg : ∀ p v, get (put p v) = v)
    (hp : ∀ p, put p (get p) = p) :
    Lawful ⟨.enumerated (codes.map Int.ofNat), fun p => get p, fun p v => put p v.toNat⟩ where
  put_get p := hp p
  get_put p w v h _ := by
    simp only [judgeValue] at h
    split at h
    case isTrue hc =>
      obtain rfl := Option.some.inj h
      obtain ⟨n, -, rfl⟩ := List.mem_map.mp (List.contains_iff_mem.mp hc)
      exact congrArg Int.ofNat (hg p n)
    case isFalse => exact absurd h nofun

theorem lawful_flag {get : Params → Bool} {put : Params → Bool → Params} (hg : ∀ p v, EnablesOk p → get (put p v) = v)
    (hp : ∀ p, put p (get p) = p) : Lawful ⟨yesNo, fun p => boolCode (get p), fun p v => put p (v == 1)⟩ where
  put_get p := by
    show put p (boolCode (get p) == 1) = p
    rw [boolCode_one, hp]
  get_put p w v h hl := by
    show boolCode (get (put p (v == 1))) = v
    rw [hg p _ hl, boolCode_of_judged h]

section
variable {x : Setting} {lo hi : Int} {i : Nat}

theorem clockNum_lawful {get : ClockParams → Nat} {put : ClockParams → Nat → ClockParams} (h : clockNum lo hi get put = some x)
    (hlo : 0 ≤ lo) (hhi : 0 ≤ hi) (hg : ∀ c v, get (put c v) = v) (hp : ∀ c, put c (get c) = c) : Lawful x := by
  obtain rfl := Option.some.inj h
  exact lawful_number (get := fun p => get p.clock) (put := fun p v => { p with clock := put p.clock v }) hlo hhi
    (fun p => hg p.clock) fun p => by rw [hp]

theorem feedNum_lawful {get : FeedParams → Nat} {put : FeedParams → Nat → FeedParams} (h : feedNum lo hi get put = some x)
    (hlo : 0 ≤ lo) (hhi : 0 ≤ hi) (hg : ∀ c v, get (put c v) = v) (hp : ∀ c, put c (get c) = c) : Lawful x := by
  obtain rfl := Option.some.inj h
  exact lawful_number (get := fun p => get p.feed) (put := fun p v => { p with feed := put p.feed v }) hlo hhi
    (fun p => hg p.feed) fun p => by rw [hp]

theorem emNum_lawful {get : EmissionParams → Nat} {put : EmissionParams → Nat → EmissionParams} (h : emNum lo hi get put = some x)
    (hlo : 0 ≤ lo) (hhi : 0 ≤ hi) (hg : ∀ c v, get (put c v) = v) (hp : ∀ c, put c (get c) = c) : Lawful x := by
  obtain rfl := Option.some.inj h
  exact lawful_number (get := fun p => get p.em) (put := fun p v => { p with em := put p.em v }) hlo hhi
    (fun p => hg p.em) fun p => by rw [hp]

theorem driveNum_lawful {get : DriveParams → Nat} {put : DriveParams → Nat → DriveParams} (h : driveNum lo hi get put = some x)
    (hlo : 0 ≤ lo) (hhi : 0 ≤ hi) (hg : ∀ c v, get (put c v) = v) (hp : ∀ c, put c (get c) = c) : Lawful x := by
  obtain rfl := Option.some.inj h
  exact lawful_number (get := fun p => get p.drive) (put := fun p v => { p with drive := put p.drive v }) hlo hhi
    (fun p => hg p.drive) fun p => by rw [hp]

theorem clockFlag_lawful {get : ClockParams → Bool} {put : ClockParams → Bool → ClockParams} (h : clockFlag get put = some x)
    (hg : ∀ c v, get (put c v) = v) (hp : ∀ c, put c (get c) = c) : Lawful x := by
  obtain rfl := Option.some.inj h
  exact lawful_flag (get := fun p => get p.clock) (put := fun p v => { p with clock := put p.clock v })
    (fun p v _ => hg p.clock v) fun p => by rw [hp]

theorem emFlag_lawful {get : EmissionParams → Bool} {put : EmissionParams → Bool → EmissionParams} (h : emFlag get put = some x)
    (hg : ∀ c v, get (put c v) = v) (hp : ∀ c, put c (get c) = c) : Lawful x := by
  obtain rfl := Option.some.inj h
  exact lawful_flag (get := fun p => get p.em) (put := fun p v => { p with em := put p.em v })
    (fun p v _ => hg p.em v) fun p => by rw [hp]

theorem portFlag_lawful {n : PortId} (h : portFlag n = some x) : Lawful x := by
  obtain rfl := Option.some.inj h
  exact lawful_flag (get := fun p => p.feed.enabled.get n)
    (put := fun p v => { p with feed := { p.feed with enabled := p.feed.enabled.set n v } }) (fun p v _ => PerPort.get_set ..)
    fun p => by rw [PerPort.set_get]

/-- An input that takes the priority which it has takes it from none. -/
theorem swapPriority_get (n : InputId) (x : PerInput Nat) : swapPriority n (x.get n) x = x := by
  have hmap : x.map (fun q => if q = x.get n then x.get n else q) = x := by
    have hid (q : Nat) : (if q = x.get n then x.get n else q) = q := by split <;> simp_all
    simp only [hid]
    rfl
  rw [swapPriority, hmap, PerInput.set_get]

theorem enabledSetting_lawful {n : InputId} (h : enabledSetting n = some x) : Lawful x :=
  clockFlag_lawful h (fun _ _ => PerInput.get_set ..) fun c => by rw [PerInput.set_get]

theorem prioritySetting_lawful {n : InputId} (h : prioritySetting n = some x) : Lawful x :=
  clockNum_lawful h (by decide) (by decide) (fun _ _ => PerInput.get_set ..) fun c => by rw [swapPriority_get]

theorem clockSetting_lawful (h : clockSetting i = some x) : Lawful x := by
  unfold clockSetting at h
  split at h
  case h_11 => exact clockFlag_lawful h (fun _ _ => rfl) fun _ => rfl
  case h_20 | h_21 | h_22 => exact enabledSetting_lawful h
  case h_23 | h_24 | h_25 => exact prioritySetting_lawful h
  case h_26 => exact absurd h nofun
  all_goals exact clockNum_lawful h (by decide) (by decide) (fun _ _ => rfl) fun _ => rfl

theorem feedSetting_lawful (h : feedSetting i = some x) : Lawful x := by
  unfold feedSetting at h
  split at h
  case h_1 | h_2 => exact portFlag_lawful h
  case h_10 => exact absurd h nofun
  all_goals exact feedNum_lawful h (by decide) (by decide) (fun _ _ => rfl) fun _ => rfl

theorem emSetting_lawful (h : emSetting i = some x) : Lawful x := by
  unfold emSetting at h
  split at h
  case h_4 | h_11 => exact emFlag_lawful h (fun _ _ => rfl) fun _ => rfl
  case h_12 => exact absurd h nofun
  all_goals exact emNum_lawful h (by decide) (by decide) (fun _ _ => rfl) fun _ => rfl

theorem spliceSetting_lawful (h : spliceSetting i = some x) : Lawful x := by
  unfold spliceSetting at h
  split at h
  · obtain rfl := Option.some.inj h
    exact lawful_number (get := (·.armingLead)) (put := fun p v => { p with armingLead := v }) (by decide) (by decide) (fun _ _ => rfl)
      fun _ => rfl
  · exact absurd h nofun

theorem driveSetting_lawful (h : driveSetting i = some x) : Lawful x := by
  unfold driveSetting at h
  split at h
  case h_3 =>
    obtain rfl := Option.some.inj h
    exact lawful_flag (get := (·.drive.smooth)) (put := fun p v => { p with drive := { p.drive with smooth := v } }) (fun _ _ _ => rfl)
      fun _ => rfl
  case h_23 => exact absurd h nofun
  all_goals exact driveNum_lawful h (by decide) (by decide) (fun _ _ => rfl) fun _ => rfl

theorem List.set_getD_self {α : Type} (l : List α) (k : Nat) (d : α) : l.set k (l.getD k d) = l := by
  by_cases hk : k < l.length
  · rw [List.getD_eq_getElem _ _ hk, List.set_getElem_self]
  · exact List.set_eq_of_length_le (by omega)

theorem List.getD_set_self {α : Type} {l : List α} {k : Nat} (hk : k < l.length) (a d : α) : (l.set k a).getD k d = a := by
  simp [List.getD, hk]

theorem reportSetting_lawful {item : Nat} (h1 : 1 ≤ item) (h36 : item ≤ 36) (h : reportSetting item = some x) : Lawful x := by
  obtain rfl := Option.some.inj h
  exact lawful_flag (get := fun p => p.alarm.report.getD (item - 1) false)
    (put := fun p v => { p with alarm := { p.alarm with report := p.alarm.report.set (item - 1) v } })
    (fun p v hl => List.getD_set_self (by rw [hl.1]; omega) v false) fun p => by rw [List.set_getD_self]

theorem noticeSetting_lawful {kind : Nat} (h8 : kind < 8) (h : noticeSetting kind = some x) : Lawful x := by
  obtain rfl := Option.some.inj h
  exact lawful_flag (get := fun p => p.alarm.notice.getD kind false)
    (put := fun p v => { p with alarm := { p.alarm with notice := p.alarm.notice.set kind v } })
    (fun p v hl => List.getD_set_self (by rw [hl.2]; omega) v false) fun p => by rw [List.set_getD_self]

/-- The settings with one record of an alarm line replaced. -/
def putLine (n : Four) (f : LineParams → LineParams) (p : Params) : Params :=
  { p with alarm := { p.alarm with lines := p.alarm.lines.set n (f (p.alarm.lines.get n)) } }

theorem putLine_get (n : Four) (f : LineParams → LineParams) (p : Params) :
    (putLine n f p).alarm.lines.get n = f (p.alarm.lines.get n) := PerFour.get_set_self ..

theorem putLine_same {n : Four} {f : LineParams → LineParams} {p : Params} (h : f (p.alarm.lines.get n) = p.alarm.lines.get n) :
    putLine n f p = p := by
  unfold putLine
  rw [h, PerFour.set_get]

theorem lineSetting_lawful {n : Four} {field : Nat} (h : lineSetting n field = some x) : Lawful x := by
  unfold lineSetting at h
  dsimp only at h
  split at h
  case h_5 => exact absurd h nofun
  all_goals obtain rfl := Option.some.inj h
  · exact lawful_codes (get := fun p => (p.alarm.lines.get n).source) (put := fun p v => putLine n ({ · with source := v }) p)
      (fun p v => by rw [putLine_get]) fun p => putLine_same rfl
  · exact lawful_flag (get := fun p => (p.alarm.lines.get n).activeLow) (put := fun p v => putLine n ({ · with activeLow := v }) p)
      (fun p v _ => by rw [putLine_get]) fun p => putLine_same rfl
  · exact lawful_flag (get := fun p => (p.alarm.lines.get n).openDrain) (put := fun p v => putLine n ({ · with openDrain := v }) p)
      (fun p v _ => by rw [putLine_get]) fun p => putLine_same rfl
  · exact lawful_flag (get := fun p => (p.alarm.lines.get n).direct) (put := fun p v => putLine n ({ · with direct := v }) p)
      (fun p v _ => by rw [putLine_get]) fun p => putLine_same rfl

theorem alarmSetting_lawful (h : alarmSetting i = some x) : Lawful x := by
  unfold alarmSetting at h
  split at h
  case isTrue hi => exact reportSetting_lawful hi.1 hi.2 h
  case isFalse =>
    split at h
    case isTrue hi => exact noticeSetting_lawful (by omega) h
    case isFalse =>
      split at h
      case isTrue =>
        obtain ⟨n, -, hn⟩ := Option.bind_eq_some_iff.mp h
        exact lineSetting_lawful hn
      case isFalse => exact absurd h nofun

theorem linkSetting_lawful (h : linkSetting i = some x) : Lawful x := by
  unfold linkSetting at h
  split at h
  · obtain rfl := Option.some.inj h
    exact lawful_codes (codes := [9600, 19200, 57600, 115200, 230400, 460800, 921600]) (get := (·.lineRate))
      (put := fun p v => { p with lineRate := v }) (fun _ _ => rfl) fun _ => rfl
  · exact absurd h nofun

/-- Every setting of the table is lawful (R178). -/
theorem settingOf_lawful {group : Nat} (h : settingOf group i = some x) : Lawful x := by
  unfold settingOf at h
  split at h
  · exact clockSetting_lawful h
  · exact feedSetting_lawful h
  · exact emSetting_lawful h
  · exact spliceSetting_lawful h
  · exact driveSetting_lawful h
  · exact alarmSetting_lawful h
  · exact linkSetting_lawful h
  · exact absurd h nofun

end

end Sys2Proof.Machine
end

section
/-! PROOF of O23: what a write of a setting leaves alone, and the settings after a revert (R179, R181). -/

namespace Sys2Proof.Machine
open Sys2Proof

/-! ## The settings in force after a write -/

section
variable (s : State)

theorem regovernFit_live : (regovernFit s).live = s.live := by rw [show regovernFit s = _ from regovernFit_only s]
theorem judgeGuard_live : (judgeGuard s).live = s.live := by rw [show judgeGuard s = _ from judgeGuard_only s]
theorem formatWrite_live : (formatWrite s).live = s.live := by rw [show formatWrite s = _ from formatWrite_only s]
theorem recomputeCeiling_live : (recomputeCeiling s).live = s.live := by rw [show recomputeCeiling s = _ from recomputeCeiling_only s]

theorem inputEnabledWrite_live (n : InputId) (on : Bool) : (inputEnabledWrite n on s).live =
    { s.live with clock := { s.live.clock with enabled := s.live.clock.enabled.set n on } } := by
  have hmode (t : State) : (setInputMode n .absent t).live = t.live := by rw [show setInputMode n .absent t = _ from setInputMode_only _ _ _]
  unfold inputEnabledWrite
  dsimp only
  rw [regovernFit_live, hmode]
  split <;> rfl

theorem portEnabledWrite_live (p : PortId) (on : Bool) : (portEnabledWrite p on s).live =
    { s.live with feed := { s.live.feed with enabled := s.live.feed.enabled.set p on } } := by
  have hmode (m : PortMode) (t : State) : (setPortMode p m t).live = t.live := by rw [show setPortMode p m t = _ from setPortMode_only _ _ _]
  unfold portEnabledWrite
  dsimp only
  split <;> rw [hmode] <;> rfl

theorem installedWrite_live (count : Nat) : (installedWrite count s).live =
    { s.live with drive := { s.live.drive with installed := count } } := by
  unfold installedWrite
  dsimp only
  rw [recomputeCeiling_live]
  split <;> rfl

end

/-- A write by its owner puts the value, and changes no other setting (R179). -/
theorem writeSetting_live {group index : Nat} {x : Setting} (h : settingOf group index = some x) (v : Int) (s : State) :
    (writeSetting group index x v s).live = x.put s.live v := by
  unfold writeSetting
  dsimp only
  split
  case h_16 => rfl
  all_goals obtain rfl := Option.some.inj h
  case h_1 | h_6 | h_7 | h_8 => exact regovernFit_live _
  case h_2 => exact (judgeFit_live _).trans (judgeGuard_live _)
  case h_3 | h_4 | h_5 => exact inputEnabledWrite_live ..
  case h_9 | h_10 => exact portEnabledWrite_live ..
  case h_11 | h_12 | h_13 => exact formatWrite_live _
  case h_14 => exact installedWrite_live ..
  case h_15 => rfl

/-! ## What a write leaves alone while emission is OFF -/

/-- What a revert leaves as it is (R181), with the emission state. -/
structure Spared where
  power : Nat
  rfEnabled : Bool
  mode : EmissionMode
  mute : MuteSet
  offset : Int
  pendingOffset : Option Int
  corr : Int
  services : List Service
  plans : List Plan
  held : Contents
  stored : Option Contents

def spared (s : State) : Spared :=
  ⟨s.drive.power, s.drive.rfEnabled, s.em.mode, s.em.mute, s.em.offset, s.em.pendingOffset, s.clock.corr, s.splice.services,
    s.splice.plans, s.link.held, s.link.stored⟩

theorem OnlyClock.spared {s t : State} (h : OnlyClock s t) (hc : t.clock.corr = s.clock.corr) : spared t = spared s := by
  unfold Machine.spared
  rw [hc, show t = _ from h]

section
variable {s : State}

theorem regovern_spared : spared (regovern s) = spared s :=
  (regovern_only s).spared (by rw [show (regovern s).clock = _ from (regovern_same s).1])

theorem judgeGuard_spared : spared (judgeGuard s) = spared s := by
  refine (judgeGuard_only s).spared ?_
  unfold judgeGuard
  split
  · rw [show (enterClock .expired s).clock = _ from (enterClock_same .expired s).1]
  · rfl

/-- While emission is OFF the clock's fitness is nothing to it. -/
theorem judgeFit_spared (hm : s.em.mode = .off) : spared (judgeFit s) = spared s := by rw [judgeFit_unstamped (.inr hm)]

theorem regovernFit_spared (hm : s.em.mode = .off) : spared (regovernFit s) = spared s :=
  (judgeFit_spared ((congrArg Spared.mode regovern_spared).trans hm)).trans regovern_spared

theorem setInputMode_spared (n : InputId) (m : InputMode) : spared (setInputMode n m s) = spared s := by
  refine (setInputMode_only n m s).spared ?_
  unfold setInputMode
  dsimp only
  split
  · rfl
  · split <;> rfl

theorem inputEnabledWrite_spared (n : InputId) (on : Bool) (hm : s.em.mode = .off) : spared (inputEnabledWrite n on s) = spared s := by
  unfold inputEnabledWrite
  dsimp only
  generalize hu : (if on then _ else _ : State) = u
  have hsame : spared u = spared s := by
    subst hu
    split <;> rfl
  have hmode := (setInputMode_spared n .absent (s := u)).trans hsame
  exact (regovernFit_spared ((congrArg Spared.mode hmode).trans hm)).trans hmode

theorem setPortMode_spared (p : PortId) (m : PortMode) : spared (setPortMode p m s) = spared s := by
  unfold setPortMode
  dsimp only
  split <;> rfl

theorem portEnabledWrite_spared (p : PortId) (on : Bool) : spared (portEnabledWrite p on s) = spared s := by
  unfold portEnabledWrite
  dsimp only
  split <;> exact setPortMode_spared ..

theorem formatWriteAt_spared (p : PortId) (s : State) : spared (formatWriteAt p s) = spared s := by
  unfold formatWriteAt
  split <;> rfl

theorem formatWrite_spared : spared (formatWrite s) = spared s := (formatWriteAt_spared ..).trans (formatWriteAt_spared ..)

theorem recomputeCeiling_spared : spared (recomputeCeiling s) = spared s := by
  have hdrive := recomputeCeiling_level s
  unfold spared
  rw [show (recomputeCeiling s).drive = _ from hdrive, show recomputeCeiling s = _ from recomputeCeiling_only s]
  rfl

theorem installedWrite_spared (count : Nat) : spared (installedWrite count s) = spared s := by
  unfold installedWrite
  dsimp only
  refine recomputeCeiling_spared.trans ?_
  split <;> rfl

/-- No write of a setting touches what a revert spares, with emission OFF. -/
theorem writeSetting_spared (hm : s.em.mode = .off) (group index : Nat) (x : Setting) (v : Int) :
    spared (writeSetting group index x v s) = spared s := by
  unfold writeSetting
  dsimp only
  split
  case h_1 | h_6 | h_7 | h_8 => exact regovernFit_spared (s := setClockParams _ s) hm
  case h_2 =>
    have hguard (p : ClockParams) : spared (judgeGuard (setClockParams p s)) = spared s := judgeGuard_spared
    exact (judgeFit_spared ((congrArg Spared.mode (hguard _)).trans hm)).trans (hguard _)
  case h_3 | h_4 | h_5 => exact inputEnabledWrite_spared _ _ hm
  case h_9 | h_10 => exact portEnabledWrite_spared ..
  case h_11 | h_12 | h_13 => exact formatWrite_spared.trans rfl
  case h_14 => exact installedWrite_spared _
  case h_15 | h_16 => rfl

end

/-! ## The held values put back, a group at a time -/

/-- The settings with one held value put back. -/
def putHeld (held : Params) (group : Nat) (p : Params) (index : Nat) : Params :=
  match settingOf group index with
  | none => p
  | some x => x.put p (x.get held)

theorem PerInput.set_all {α : Type} (x y : PerInput α) :
    ((x.set .in1 (y.get .in1)).set .in2 (y.get .in2)).set .in3 (y.get .in3) = y := rfl

theorem PerPort.set_all {α : Type} (x y : PerPort α) : (x.set .a (y.get .a)).set .b (y.get .b) = y := rfl

section
variable (held p : Params)

theorem putHeld_clock : (List.range 22).foldl (putHeld held 1) p =
    { p with clock := { held.clock with priority := p.clock.priority } } := by
  rw [show List.range 22 = [0, 1, 2, 3, 4, 5, 6, 7, 8, 9, 10, 11, 12, 13, 14, 15, 16, 17, 18, 19, 20, 21] from rfl]
  simp only [List.foldl_cons, List.foldl_nil, putHeld, settingOf, clockSetting, clockNum, clockFlag, enabledSetting, Int.toNat_natCast,
    boolCode_one, PerInput.set_all]

theorem putHeld_feed : (List.range 9).foldl (putHeld held 2) p = { p with feed := held.feed } := by
  rw [show List.range 9 = [0, 1, 2, 3, 4, 5, 6, 7, 8] from rfl]
  simp only [List.foldl_cons, List.foldl_nil, putHeld, settingOf, feedSetting, feedNum, portFlag, Int.toNat_natCast, boolCode_one,
    PerPort.set_all]

theorem putHeld_em : (List.range 11).foldl (putHeld held 3) p = { p with em := held.em } := by
  rw [show List.range 11 = [0, 1, 2, 3, 4, 5, 6, 7, 8, 9, 10] from rfl]
  simp only [List.foldl_cons, List.foldl_nil, putHeld, settingOf, emSetting, emNum, emFlag, Int.toNat_natCast, boolCode_one]

theorem putHeld_drive : (List.range 22).foldl (putHeld held 5) p = { p with drive := held.drive } := by
  rw [show List.range 22 = [0, 1, 2, 3, 4, 5, 6, 7, 8, 9, 10, 11, 12, 13, 14, 15, 16, 17, 18, 19, 20, 21] from rfl]
  simp only [List.foldl_cons, List.foldl_nil, putHeld, settingOf, driveSetting, driveNum, Int.toNat_natCast, boolCode_one]

end

theorem List.set_take_append_drop {α : Type} {xs ys : List α} {k : Nat} (hx : k < xs.length) (hl : ys.length = xs.length) (d : α) :
    (ys.take k ++ xs.drop k).set k (ys.getD k d) = ys.take (k + 1) ++ xs.drop (k + 1) := by
  have hy : k < ys.length := hl ▸ hx
  rw [List.set_append_right _ _ (by simp), List.length_take_of_le hy.le, Nat.sub_self, List.drop_eq_getElem_cons hx, List.set_cons_zero,
    List.getD_eq_getElem _ _ hy, List.take_add_one, List.getElem?_eq_getElem hy, List.append_assoc]
  rfl

section
variable {held p : Params}

theorem putHeld_report {k : Nat} (hk : k < 36) : putHeld held 6 p (1 + k) =
    { p with alarm := { p.alarm with report := p.alarm.report.set k (held.alarm.report.getD k false) } } := by
  have hx : settingOf 6 (1 + k) = reportSetting (1 + k) := if_pos ⟨by omega, by omega⟩
  unfold putHeld
  rw [hx]
  simp only [reportSetting, boolCode_one, Nat.add_sub_cancel_left]

theorem putHeld_notice {k : Nat} (hk : k < 8) : putHeld held 6 p (64 + k) =
    { p with alarm := { p.alarm with notice := p.alarm.notice.set k (held.alarm.notice.getD k false) } } := by
  have hx : settingOf 6 (64 + k) = noticeSetting (64 + k - 64) := (if_neg (by omega)).trans (if_pos ⟨by omega, by omega⟩)
  unfold putHeld
  rw [hx]
  simp only [noticeSetting, boolCode_one, Nat.add_sub_cancel_left]

theorem putHeld_reports (hh : EnablesOk held) (hp : EnablesOk p) {n : Nat} (hn : n ≤ 36) :
    (List.range' 1 n).foldl (putHeld held 6) p =
      { p with alarm := { p.alarm with report := held.alarm.report.take n ++ p.alarm.report.drop n } } := by
  induction n with
  | zero => rfl
  | succ k ih =>
    rw [List.range'_1_concat, List.foldl_append, ih (by omega), List.foldl_cons, List.foldl_nil, putHeld_report (by omega)]
    dsimp only
    rw [List.set_take_append_drop (by rw [hp.1]; omega) (by rw [hp.1, hh.1])]

theorem putHeld_notices (hh : EnablesOk held) (hp : EnablesOk p) {n : Nat} (hn : n ≤ 8) :
    (List.range' 64 n).foldl (putHeld held 6) p =
      { p with alarm := { p.alarm with notice := held.alarm.notice.take n ++ p.alarm.notice.drop n } } := by
  induction n with
  | zero => rfl
  | succ k ih =>
    rw [List.range'_1_concat, List.foldl_append, ih (by omega), List.foldl_cons, List.foldl_nil, putHeld_notice (by omega)]
    dsimp only
    rw [List.set_take_append_drop (by rw [hp.2]; omega) (by rw [hp.2, hh.2])]

theorem putHeld_line (n : Four) : [124 + 4 * n.num, 125 + 4 * n.num, 126 + 4 * n.num, 127 + 4 * n.num].foldl (putHeld held 6) p =
    { p with alarm := { p.alarm with lines := p.alarm.lines.set n (held.alarm.lines.get n) } } := by
  have h0 : settingOf 6 (124 + 4 * n.num) = lineSetting n 0 := by cases n <;> rfl
  have h1 : settingOf 6 (125 + 4 * n.num) = lineSetting n 1 := by cases n <;> rfl
  have h2 : settingOf 6 (126 + 4 * n.num) = lineSetting n 2 := by cases n <;> rfl
  have h3 : settingOf 6 (127 + 4 * n.num) = lineSetting n 3 := by cases n <;> rfl
  simp only [List.foldl_cons, List.foldl_nil, putHeld, h0, h1, h2, h3, lineSetting, Int.toNat_natCast, boolCode_one, PerFour.set_set,
    PerFour.get_set_self]

theorem putHeld_lines : (List.range' 128 16).foldl (putHeld held 6) p =
    { p with alarm := { p.alarm with lines := held.alarm.lines } } := by
  rw [show List.range' 128 16 = [124 + 4 * Four.n1.num, 125 + 4 * Four.n1.num, 126 + 4 * Four.n1.num, 127 + 4 * Four.n1.num] ++
    ([124 + 4 * Four.n2.num, 125 + 4 * Four.n2.num, 126 + 4 * Four.n2.num, 127 + 4 * Four.n2.num] ++
    ([124 + 4 * Four.n3.num, 125 + 4 * Four.n3.num, 126 + 4 * Four.n3.num, 127 + 4 * Four.n3.num] ++
    [124 + 4 * Four.n4.num, 125 + 4 * Four.n4.num, 126 + 4 * Four.n4.num, 127 + 4 * Four.n4.num])) from rfl]
  simp only [List.foldl_append, putHeld_line]
  rfl

/-- A gap in the indexes of group 6. -/
theorem putHeld_gap {a n : Nat} (h : a + n ≤ 1 ∨ (37 ≤ a ∧ a + n ≤ 64) ∨ (72 ≤ a ∧ a + n ≤ 128)) (q : Params) :
    (List.range' a n).foldl (putHeld held 6) q = q := by
  induction n with
  | zero => rfl
  | succ k ih =>
    have hnone : settingOf 6 (a + k) = none := (if_neg (by omega)).trans ((if_neg (by omega)).trans (if_neg (by omega)))
    rw [List.range'_1_concat, List.foldl_append, ih (by omega), List.foldl_cons, List.foldl_nil, putHeld, hnone]

theorem putHeld_alarm (hh : EnablesOk held) (hp : EnablesOk p) :
    (List.range 144).foldl (putHeld held 6) p = { p with alarm := held.alarm } := by
  have hreport : held.alarm.report.take 36 ++ p.alarm.report.drop 36 = held.alarm.report := by
    rw [List.take_of_length_le hh.1.le, List.drop_eq_nil_of_le hp.1.le, List.append_nil]
  have hnotice : held.alarm.notice.take 8 ++ p.alarm.notice.drop 8 = held.alarm.notice := by
    rw [List.take_of_length_le hh.2.le, List.drop_eq_nil_of_le hp.2.le, List.append_nil]
  have hmid : EnablesOk { p with alarm := { p.alarm with report := held.alarm.report } } := ⟨hh.1, hp.2⟩
  rw [show List.range 144 = List.range' 0 1 ++ (List.range' 1 36 ++ (List.range' 37 27 ++ (List.range' 64 8 ++
    (List.range' 72 56 ++ List.range' 128 16)))) from rfl]
  simp only [List.foldl_append]
  rw [putHeld_gap (a := 0) (n := 1) (by omega), putHeld_reports hh hp (le_refl 36), hreport, putHeld_gap (a := 37) (n := 27) (by omega),
    putHeld_notices hh hmid (le_refl 8), hnotice, putHeld_gap (a := 72) (n := 56) (by omega), putHeld_lines]

end

/-! ## A revert with emission OFF -/

/-- What a revert has made of the settings since it held `r`: the settings stand as `p`, and nothing else that a revert spares has moved
or is left. -/
structure RevertsTo (r : Reverted) (p : Params) (r' : Reverted) : Prop where
  live : r'.state.live = p
  spared : spared r'.state = spared r.state
  left : r'.left = r.left

section
variable {held : Params} {r : Reverted}

theorem revertOne_off (hm : r.state.em.mode = .off) (group index : Nat) :
    RevertsTo r (putHeld held group r.state.live index) (revertOne held group r index) := by
  unfold revertOne putHeld
  cases hx : settingOf group index with
  | none => exact ⟨rfl, rfl, rfl⟩
  | some x =>
    dsimp only
    by_cases hsame : x.get r.state.live = x.get held
    · rw [if_pos hsame, ← hsame, (settingOf_lawful hx).put_get]
      exact ⟨rfl, rfl, rfl⟩
    · rw [if_neg hsame, if_neg (by simp [hm])]
      exact ⟨writeSetting_live hx _ _, writeSetting_spared hm .., rfl⟩

theorem RevertsTo.trans {p q : Params} {r' r'' : Reverted} (h : RevertsTo r p r') (k : RevertsTo r' q r'') : RevertsTo r q r'' :=
  ⟨k.live, k.spared.trans h.spared, k.left.trans h.left⟩

theorem RevertsTo.off {p : Params} {r' : Reverted} (h : RevertsTo r p r') (hm : r.state.em.mode = .off) : r'.state.em.mode = .off :=
  (congrArg Spared.mode h.spared).trans hm

theorem revertGroup_off (hm : r.state.em.mode = .off) (group : Nat) (indexes : List Nat) :
    RevertsTo r (indexes.foldl (putHeld held group) r.state.live) (revertGroup held group indexes r) := by
  unfold revertGroup
  induction indexes generalizing r with
  | nil => exact ⟨rfl, rfl, rfl⟩
  | cons i is ih =>
    have hone := revertOne_off (held := held) hm group i
    have hrest := ih (hone.off hm)
    rw [hone.live] at hrest
    exact hone.trans hrest

/-- Three priorities of which none differs are the same. -/
theorem priorities_same {x y : PerInput Nat} (h : (InputId.all.filter (fun n => x.get n ≠ y.get n)).length = 0) : x = y := by
  have heq (n : InputId) : x.get n = y.get n := by
    have hnil := List.filter_eq_nil_iff.mp (List.eq_nil_of_length_eq_zero h) n (by cases n <;> decide)
    simpa using hnil
  have h1 : x.in1 = y.in1 := heq .in1
  have h2 : x.in2 = y.in2 := heq .in2
  have h3 : x.in3 = y.in3 := heq .in3
  cases x
  cases y
  simp_all

theorem revertPriorities_off (hm : r.state.em.mode = .off) : RevertsTo r
    { r.state.live with clock := { r.state.live.clock with priority := held.clock.priority } } (revertPriorities held r) := by
  unfold revertPriorities
  dsimp only
  split
  case isTrue h =>
    rw [← priorities_same h]
    exact ⟨rfl, rfl, rfl⟩
  case isFalse => exact ⟨regovernFit_live _, regovernFit_spared (s := setClockParams _ r.state) hm, rfl⟩

end

/-- A revert with emission OFF puts every held value in force and leaves none (R181). -/
theorem revertAll_off {s : State} {held : Params} (hm : s.em.mode = .off) (hs : EnablesOk s.live) (hh : EnablesOk held) :
    RevertsTo { state := s } held (revertAll held s) := by
  have h1 := revertGroup_off (held := held) (r := { state := s }) hm 1 (List.range 22)
  have hp := h1.trans (revertPriorities_off (held := held) (h1.off hm))
  have h2 := hp.trans (revertGroup_off (held := held) (hp.off hm) 2 (List.range 9))
  have h3 := h2.trans (revertGroup_off (held := held) (h2.off hm) 3 (List.range 11))
  have h4 := h3.trans (revertGroup_off (held := held) (h3.off hm) 4 [0])
  have h5 := h4.trans (revertGroup_off (held := held) (h4.off hm) 5 (List.range 22))
  have h6 := h5.trans (revertGroup_off (held := held) (h5.off hm) 6 (List.range 144))
  have h7 := h6.trans (revertGroup_off (held := held) (h6.off hm) 7 [0])
  rw [h6.live, h5.live, h4.live, h3.live, h2.live, hp.live, h1.live, putHeld_clock, putHeld_feed, putHeld_em, putHeld_drive,
    putHeld_alarm hh (by exact hs)] at h7
  exact h7

/-! ## O23 -/

theorem exec_revertSettings (tag : Byte) (s : State) : exec (.revertSettings tag) s = request 0x08 tag [] reqRevertSettings s := rfl

/-- A revert while the store is not busy. -/
theorem reqRevertSettings_free {s : State} (h : s.link.busy = none) : reqRevertSettings s =
    ok (revertAll s.link.held.params s).state
      (be 2 (revertAll s.link.held.params s).written ++ be 1 (revertAll s.link.held.params s).left) := by
  unfold reqRevertSettings
  rw [h]

theorem reqRevertSettings_busy {s : State} (h : s.link.busy.isSome = true) : reqRevertSettings s = turnDown s .busy := by
  obtain ⟨c, hc⟩ := Option.isSome_iff_exists.mp h
  unfold reqRevertSettings
  rw [hc]

/-- The end of an answered request leaves what a revert spares as its owner left it. -/
theorem request_spared {op : State → Answer} {s t : State} {kind tag : Byte} {bytes : List Byte} (hs : Ready s)
    (h : request kind tag bytes op s = .next t) : spared t = spared (op (s.setEv {})).state := by
  have ht : transmit (closeEvent (formReply kind tag (op (s.setEv {})))) = t :=
    Host.Outcome.next.inj ((request_ready hs kind tag bytes op).symm.trans h)
  rw [← ht]
  have hdrive := judgePermission_level (op (s.setEv {})).state
  unfold spared
  simp only [transmit_drive, closeEvent_drive, answered_drive, transmit_em, closeEvent_em, formReply_em, transmit_clock, closeEvent_clock,
    formReply_clock, transmit_splice, closeEvent_splice, formReply_splice, transmit_held, transmit_stored, closeEvent_link, formReply_link]
  rw [show (judgePermission (op (s.setEv {})).state).drive = _ from hdrive]

/-- Settles O23: in OFF the revert is a fold of puts of the held values, group by group, and every write keeps what a revert spares. -/
theorem revertRestoresTheHeldSettings : Obligations.RevertRestoresTheHeldSettings := by
  intro s tag hs
  refine ⟨fun hb hm hr hn hhr hhn => ?_, fun hb => ?_⟩
  · obtain ⟨t, hstep, hreply, hleft⟩ := request_left 0x08 tag [] hs (reqRevertSettings_free (s := s.setEv {}) hb)
    have hspared := request_spared hs hstep
    rw [reqRevertSettings_free (s := s.setEv {}) hb] at hspared
    have hall := revertAll_off (s := s.setEv {}) (held := (s.setEv {}).link.held.params) hm ⟨hr, hn⟩ ⟨hhr, hhn⟩
    generalize revertAll (s.setEv {}).link.held.params (s.setEv {}) = r at hall hspared hreply hleft
    have hkept : spared t = spared s := hspared.trans hall.spared
    have hzero : r.left = 0 := hall.left
    rw [hzero] at hreply
    exact ⟨t, r.written, (exec_revertSettings tag s).trans hstep, hleft.live.trans hall.live, hreply, congrArg Spared.power hkept,
      congrArg Spared.rfEnabled hkept, congrArg (·.mute.host) hkept, congrArg Spared.offset hkept, congrArg Spared.pendingOffset hkept,
      congrArg Spared.corr hkept, congrArg Spared.services hkept, congrArg Spared.plans hkept, congrArg Spared.held hkept,
      congrArg Spared.stored hkept⟩
  · rw [exec_revertSettings]
    exact request_turnedDown 0x08 tag [] hs (reqRevertSettings_busy (s := s.setEv {}) hb)

end Sys2Proof.Machine
end

section
/-! PROOF of O24: what SET SETTING and GET SETTING make of a listed id, and what the owners make of the writes that the statement names
(R179). -/

namespace Sys2Proof.Machine
open Sys2Proof

theorem exec_getSetting (tag : Byte) (id : BitVec 16) (s : State) :
    exec (.getSetting tag id) s = request 0x05 tag (word16Bytes id) (reqGetSetting id) s := rfl

/-! ## A listed id -/

section
variable {s : State} {id : BitVec 16} {x : Setting} {value : BitVec 32} {v : Int}

theorem reqGetSetting_listed (h : settingOf (groupOf id) (indexOf id) = some x) :
    reqGetSetting id s = ok s (be 4 (x.get s.live)) := by
  unfold reqGetSetting
  rw [h]

theorem reqGetSetting_unlisted (h : settingOf (groupOf id) (indexOf id) = none) : reqGetSetting id s = turnDown s .notFound := by
  unfold reqGetSetting
  rw [h]

theorem reqSetSetting_unlisted (h : settingOf (groupOf id) (indexOf id) = none) :
    reqSetSetting id value s = turnDown s .notFound := by
  unfold reqSetSetting
  dsimp only
  rw [h]

theorem reqSetSetting_noCode (h : settingOf (groupOf id) (indexOf id) = some x) (hv : judgeValue x.values value.toInt = none) :
    reqSetSetting id value s = turnDown s .badParameter := by
  unfold reqSetSetting
  dsimp only
  rw [h]
  dsimp only
  rw [hv]

theorem reqSetSetting_onAir (h : settingOf (groupOf id) (indexOf id) = some x) (hv : judgeValue x.values value.toInt = some v)
    (hn : needsOff (groupOf id) (indexOf id) = true) (hm : s.em.mode ≠ .off) :
    reqSetSetting id value s = turnDown s .refusedState := by
  unfold reqSetSetting
  dsimp only
  rw [h]
  dsimp only
  rw [hv]
  exact if_pos (by simp [hn, hm])

/-- A write that no check refuses: the owner's write, and the value then held (R179). -/
theorem reqSetSetting_writes (h : settingOf (groupOf id) (indexOf id) = some x) (hv : judgeValue x.values value.toInt = some v)
    (hoff : needsOff (groupOf id) (indexOf id) = true → s.em.mode = .off) :
    reqSetSetting id value s =
      ⟨writeIfNew (groupOf id) (indexOf id) x v s, if v = value.toInt then .ok else .adjusted,
        be 4 (x.get (writeIfNew (groupOf id) (indexOf id) x v s).live)⟩ := by
  have hrefused : ¬ (needsOff (groupOf id) (indexOf id) && s.em.mode != .off) = true := by
    simp only [Bool.and_eq_true, bne_iff_ne, ne_eq, not_and, not_not]
    exact hoff
  unfold reqSetSetting
  dsimp only
  rw [h]
  dsimp only
  rw [hv]
  exact if_neg hrefused

/-- After a write the setting holds the value, whether it was new or not. -/
theorem writeIfNew_holds {group index : Nat} (h : settingOf group index = some x) (hv : judgeValue x.values value.toInt = some v)
    (hl : EnablesOk s.live) : x.get (writeIfNew group index x v s).live = v := by
  unfold writeIfNew
  split
  case isTrue hsame => exact hsame
  case isFalse =>
    rw [writeSetting_live h]
    exact (settingOf_lawful h).get_put s.live _ v hv hl

theorem request_linesOk {op : State → Answer} {t : State} {kind tag : Byte} {bytes : List Byte} (hs : Ready s)
    (h : request kind tag bytes op s = .next t) : LinesOk t := by
  have ht : transmit (closeEvent (formReply kind tag (op (s.setEv {})))) = t :=
    Host.Outcome.next.inj ((request_ready hs kind tag bytes op).symm.trans h)
  rw [← ht]
  exact linesOk_transmit (closeEvent_linesOk _)

theorem setSetting_holds (tag : Byte) (hs : Ready s) (h : settingOf (groupOf id) (indexOf id) = some x)
    (hv : judgeValue x.values value.toInt = some v) (hoff : needsOff (groupOf id) (indexOf id) = true → s.em.mode = .off)
    (hl : EnablesOk s.live) :
    ∃ t, exec (.setSetting tag id value) s = .next t ∧ x.get t.live = v ∧
      Replied t 0x06 tag (if v = value.toInt then .ok else .adjusted) (be 4 v) ∧ LinesOk t := by
  obtain ⟨t, hstep, hreply, hleft⟩ := request_left 0x06 tag (word16Bytes id ++ word32Bytes value) hs
    (reqSetSetting_writes (s := s.setEv {}) h hv hoff)
  have hheld := writeIfNew_holds (s := s.setEv {}) h hv hl
  have hresult (r : Result) (hr : r = .ok ∨ r = .adjusted) (body : List Byte) : (if r = .ok ∨ r = .adjusted then body else []) = body :=
    if_pos hr
  refine ⟨t, (exec_setSetting ..).trans hstep, by rw [hleft.live]; exact hheld, ?_, request_linesOk hs hstep⟩
  dsimp only at hreply
  rw [hresult _ (by split <;> simp), hheld] at hreply
  exact hreply

/-- A write of another value leaves what its owner makes of it. -/
theorem setSetting_left (tag : Byte) (hs : Ready s) (h : settingOf (groupOf id) (indexOf id) = some x)
    (hv : judgeValue x.values value.toInt = some v) (hoff : needsOff (groupOf id) (indexOf id) = true → s.em.mode = .off)
    (hne : x.get s.live ≠ v) :
    ∃ t, exec (.setSetting tag id value) s = .next t ∧ Left (writeSetting (groupOf id) (indexOf id) x v (s.setEv {})) t := by
  obtain ⟨t, hstep, -, hleft⟩ := request_left 0x06 tag (word16Bytes id ++ word32Bytes value) hs
    (reqSetSetting_writes (s := s.setEv {}) h hv hoff)
  have hnew : writeIfNew (groupOf id) (indexOf id) x v (s.setEv {}) = writeSetting (groupOf id) (indexOf id) x v (s.setEv {}) :=
    if_neg hne
  exact ⟨t, (exec_setSetting ..).trans hstep, hnew ▸ hleft⟩

end

/-- A small number as a request carries it. -/
theorem toInt_ofNat_small {n : Nat} (h : n < 2147483648) : (BitVec.ofNat 32 n).toInt = n := by
  have hn : (BitVec.ofNat 32 n).toNat = n := by
    rw [BitVec.toNat_ofNat]
    omega
  rw [BitVec.toInt_eq_toNat_of_lt (by omega), hn]

theorem clamp_inside {lo hi w : Int} (hlo : lo ≤ w) (hhi : w ≤ hi) : clamp lo hi w = w := by
  unfold clamp
  rw [if_neg (by omega), if_neg (by omega)]

/-- A number inside the range of a numeric setting is judged as it is. -/
theorem judgeValue_inside {lo hi : Int} {n : Nat} (hlo : lo ≤ n) (hhi : n ≤ hi) (h : n < 2147483648) :
    judgeValue (.numeric lo hi) (BitVec.ofNat 32 n).toInt = some (n : Int) := by
  rw [toInt_ofNat_small h]
  exact congrArg some (clamp_inside hlo hhi)

/-! ## The owner of the time inputs (R10, R12) -/

section
variable {s t : State} {n : InputId}

/-- The choice made once more gives the same. -/
theorem chooseGoverning_again (hf : t.clock.forced = s.clock.forced) (hin : t.clock.inputs = s.clock.inputs) (hl : t.live = s.live)
    (hg : t.clock.governing = chooseGoverning s) : chooseGoverning t = t.clock.governing := by
  have hqualified : isQualified t = isQualified s := by
    funext m
    rw [isQualified, isQualified, inputRec, inputRec, hin]
  have hbest : bestQualified t = bestQualified s := by
    have hbetter : betterInput t = betterInput s := by
      funext best m
      unfold betterInput inputPriority
      rw [hl]
    rw [bestQualified, bestQualified, hqualified, hbetter]
  rw [hg]
  unfold chooseGoverning
  rw [hf, hqualified, hl, hbest, hg]
  cases hforced : s.clock.forced.filter (isQualified s) with
  | some f => rfl
  | none =>
    unfold chooseGoverning
    rw [hforced]
    dsimp only
    cases hkept : s.clock.governing.filter (fun g => s.live.clock.nonRevertive && isQualified s g) with
    | some g =>
      dsimp only
      rw [Option.filter_some, if_pos (Option.filter_eq_some_iff.mp hkept).2]
    | none =>
      dsimp only
      cases bestQualified s with
      | none => rfl
      | some b =>
        rw [Option.filter_some]
        split
        case h_1 g hb =>
          split at hb
          · exact hb.symm
          · cases hb
        case h_2 => rfl

/-- What a re-evaluation of the governing input leaves at the end of its command. -/
theorem Left.governs (h : Left (regovernFit s) t) : t.clock.governing = chooseGoverning t := by
  obtain ⟨hsame, hgov, -⟩ := regovernFit_same s
  refine (chooseGoverning_again (s := s) ?_ ?_ ?_ ?_).symm
  · rw [h.clock, hsame.forced]
  · rw [h.clock, hsame.inputs]
  · rw [h.live, regovernFit_live]
  · rw [h.clock, hgov]

theorem settingOf_enabled (n : InputId) :
    settingOf (groupOf (BitVec.ofNat 16 (0x0112 + n.num))) (indexOf (BitVec.ofNat 16 (0x0112 + n.num))) = enabledSetting n := by
  cases n <;> rfl

theorem settingOf_priority (n : InputId) :
    settingOf (groupOf (BitVec.ofNat 16 (0x0115 + n.num))) (indexOf (BitVec.ofNat 16 (0x0115 + n.num))) = prioritySetting n := by
  cases n <;> rfl

/-- SET SETTING of an input's enabled flag to another value. -/
theorem setEnabled_left (tag : Byte) (hs : Ready s) {on : Bool} (he : s.live.clock.enabled.get n = !on) :
    ∃ t, exec (.setSetting tag (BitVec.ofNat 16 (0x0112 + n.num)) (BitVec.ofNat 32 (if on then 1 else 0))) s = .next t ∧
      Left (inputEnabledWrite n on (s.setEv {})) t := by
  obtain ⟨t, hstep, hleft⟩ := setSetting_left tag hs (settingOf_enabled n) (value := BitVec.ofNat 32 (if on then 1 else 0))
    (v := boolCode on) (by cases on <;> rfl) (by cases n <;> exact nofun)
    (by show boolCode (s.live.clock.enabled.get n) ≠ _; rw [he]; cases on <;> decide)
  refine ⟨t, hstep, ?_⟩
  have hwrite (x : Setting) (u : State) : writeSetting (groupOf (BitVec.ofNat 16 (0x0112 + n.num)))
      (indexOf (BitVec.ofNat 16 (0x0112 + n.num))) x (boolCode on) u = inputEnabledWrite n (boolCode on == 1) u := by
    cases n <;> rfl
  rwa [hwrite, boolCode_one] at hleft

/-- The inputs and the force after a write of an input's enabled flag (R10, R13). -/
theorem inputEnabledWrite_inputs (on : Bool) : (inputEnabledWrite n on s).clock.inputs = s.clock.inputs.set n
    { s.clock.inputs.get n with
      mode := .absent
      lastPulse := if on then (s.clock.inputs.get n).lastPulse else none } := by
  unfold inputEnabledWrite
  dsimp only
  rw [(regovernFit_same _).1.inputs, setInputMode_inputs]
  cases on
  · show ((s.clock.inputs.set n _).set n _) = _
    rw [PerInput.set_set]
    show s.clock.inputs.set n { (s.clock.inputs.set n _).get n with mode := .absent } = _
    rw [PerInput.get_set]
    rfl
  · rfl

theorem inputEnabledWrite_forced (hm : (s.clock.inputs.get n).mode ≠ .absent) :
    (inputEnabledWrite n false s).clock.forced ≠ some n := by
  unfold inputEnabledWrite
  dsimp only
  rw [(regovernFit_same _).1.forced, setInputMode_forced (m := .absent) nofun]
  show (if ((s.clock.inputs.set n { s.clock.inputs.get n with lastPulse := none }).get n).mode ≠ .absent ∧ s.clock.forced = some n then none
    else s.clock.forced) ≠ some n
  rw [PerInput.get_set]
  split
  case isTrue => exact nofun
  case isFalse h => exact fun hf => h ⟨hm, hf⟩

theorem disableInput (tag : Byte) (hs : Ready s) (he : s.live.clock.enabled.get n = true) :
    ∃ t, exec (.setSetting tag (BitVec.ofNat 16 (0x0112 + n.num)) (BitVec.ofNat 32 0)) s = .next t ∧
      t.live.clock.enabled.get n = false ∧
      t.clock.inputs = s.clock.inputs.set n { s.clock.inputs.get n with mode := .absent, lastPulse := none } ∧
      ((s.clock.inputs.get n).mode ≠ .absent → t.clock.forced ≠ some n) ∧ t.clock.governing = chooseGoverning t := by
  obtain ⟨t, hstep, hleft⟩ := setEnabled_left tag hs (on := false) he
  refine ⟨t, hstep, ?_, ?_, fun hm => ?_, hleft.governs⟩
  · rw [hleft.live, inputEnabledWrite_live]
    exact PerInput.get_set ..
  · rw [hleft.clock, inputEnabledWrite_inputs]
    rfl
  · rw [hleft.clock]
    exact inputEnabledWrite_forced (s := s.setEv {}) hm

theorem enableInput (tag : Byte) (hs : Ready s) (he : s.live.clock.enabled.get n = false) :
    ∃ t, exec (.setSetting tag (BitVec.ofNat 16 (0x0112 + n.num)) (BitVec.ofNat 32 1)) s = .next t ∧
      t.live.clock.enabled.get n = true ∧
      t.clock.inputs = s.clock.inputs.set n { s.clock.inputs.get n with mode := .absent } := by
  obtain ⟨t, hstep, hleft⟩ := setEnabled_left tag hs (on := true) he
  refine ⟨t, hstep, ?_, ?_⟩
  · rw [hleft.live, inputEnabledWrite_live]
    exact PerInput.get_set ..
  · rw [hleft.clock, inputEnabledWrite_inputs]
    rfl

theorem swapPriority_self (p : Nat) (x : PerInput Nat) : (swapPriority n p x).get n = p := PerInput.get_set ..

theorem swapPriority_other {m : InputId} (h : m ≠ n) (p : Nat) (x : PerInput Nat) :
    (swapPriority n p x).get m = if x.get m = p then x.get n else x.get m := by
  unfold swapPriority
  rw [PerInput.get_set_ne _ h, PerInput.get_map]

theorem setPriority {p : Nat} (tag : Byte) (hs : Ready s) (h1 : 1 ≤ p) (h3 : p ≤ 3) (hne : s.live.clock.priority.get n ≠ p) :
    ∃ t, exec (.setSetting tag (BitVec.ofNat 16 (0x0115 + n.num)) (BitVec.ofNat 32 p)) s = .next t ∧
      t.live.clock.priority.get n = p ∧ t.clock.inputs = s.clock.inputs ∧
      (∀ m, m ≠ n → t.live.clock.priority.get m =
        if s.live.clock.priority.get m = p then s.live.clock.priority.get n else s.live.clock.priority.get m) ∧
      t.clock.governing = chooseGoverning t := by
  obtain ⟨t, hstep, hleft⟩ := setSetting_left tag hs (settingOf_priority n) (judgeValue_inside (by omega) (by omega) (by omega))
    (by cases n <;> exact nofun) (fun h => hne (Int.ofNat.inj h))
  have hwrite (x : Setting) (u : State) : writeSetting (groupOf (BitVec.ofNat 16 (0x0115 + n.num)))
      (indexOf (BitVec.ofNat 16 (0x0115 + n.num))) x (p : Int) u = priorityWrite n p u := by
    cases n <;> rfl
  rw [hwrite] at hleft
  have hpriority : t.live.clock.priority = swapPriority n p s.live.clock.priority := by
    rw [hleft.live, priorityWrite, regovernFit_live]
    rfl
  refine ⟨t, hstep, by rw [hpriority, swapPriority_self], ?_, fun m hm => by rw [hpriority, swapPriority_other hm], hleft.governs⟩
  rw [hleft.clock, priorityWrite, (regovernFit_same _).1.inputs]
  rfl

end

/-! ## The owner of the ports (R24) -/

theorem settingOf_port (p : PortId) :
    settingOf (groupOf (BitVec.ofNat 16 (0x01FF + p.num))) (indexOf (BitVec.ofNat 16 (0x01FF + p.num))) = portFlag p := by
  cases p <;> rfl

/-- A port's record after a write of its enabled setting to another value (R24). -/
def enabledPort (on : Bool) (cycles : Nat) (x : PortRec) : PortRec :=
  if on then { x with mode := .dark, lastByte := cycles, degrade := 0, recover := 0 }
  else
    { x with
      mode := .disabled, runs := List.replicate 188 0, phase := 0, packetPhase := none, firstByte := none, wrongSync := 0,
      assembling := false, opened := none, continuity := [], deadline := none, degrade := 0, recover := 0 }

/-- The settings after such a write. -/
def portLive (p : PortId) (on : Bool) (q : Params) : Params := { q with feed := { q.feed with enabled := q.feed.enabled.set p on } }

theorem portEnabledWrite_event {s : State} {p : PortId} {on : Bool}
    (h : (s.feed.ports.get p).mode ≠ (enabledPort on s.clock.cycles (s.feed.ports.get p)).mode) :
    portEnabledWrite p on (s.setEv {}) = portEvent (s.setLive (portLive p on s.live)) p
      (enabledPort on s.clock.cycles (s.feed.ports.get p))
      (some ⟨(s.feed.ports.get p).mode, (s.feed.ports.get p).average⟩) [] := by
  have hstart : (s.setEv {}).setLive (portLive p on s.live) =
      portEvent (s.setLive (portLive p on s.live)) p (s.feed.ports.get p) none [] := portEvent_start (s.setLive (portLive p on s.live)) p
  show (if on then setPortMode p .dark (setPort p { portRec ((s.setEv {}).setLive (portLive p on s.live)) p with
      lastByte := s.clock.cycles } ((s.setEv {}).setLive (portLive p on s.live)))
    else setPortMode p .disabled (loseAlignment p ((s.setEv {}).setLive (portLive p on s.live)))) = _
  rw [hstart]
  cases on
  · rw [if_neg (by decide), loseAlignment_portEvent, setPortMode_portEvent, inMode_of_ne (by exact h), noteAfter_of_ne (by exact h)]
    rfl
  · rw [if_pos rfl, portRec_portEvent, setPort_portEvent, setPortMode_portEvent, inMode_of_ne (by exact h), noteAfter_of_ne (by exact h)]
    rfl

theorem setPortEnabled {s : State} {p : PortId} {on : Bool} (tag : Byte) (hs : Ready s) (he : s.live.feed.enabled.get p = !on)
    (h : (s.feed.ports.get p).mode ≠ (enabledPort on s.clock.cycles (s.feed.ports.get p)).mode) :
    ∃ t, exec (.setSetting tag (BitVec.ofNat 16 (0x01FF + p.num)) (BitVec.ofNat 32 (if on then 1 else 0))) s = .next t ∧
      AfterRequest [] { s with
        live := portLive p on s.live
        feed := { s.feed with ports := s.feed.ports.set p (enabledPort on s.clock.cycles (s.feed.ports.get p)) } } t := by
  have hne : ¬ boolCode (s.live.feed.enabled.get p) = boolCode on := by
    rw [he]
    cases on <;> decide
  have hwrite (x : Setting) (u : State) : writeSetting (groupOf (BitVec.ofNat 16 (0x01FF + p.num)))
      (indexOf (BitVec.ofNat 16 (0x01FF + p.num))) x (boolCode on) u = portEnabledWrite p (boolCode on == 1) u := by
    cases p <;> rfl
  have hop := reqSetSetting_writes (s := s.setEv {}) (settingOf_port p) (value := BitVec.ofNat 32 (if on then 1 else 0))
    (v := boolCode on) (by cases on <;> rfl) (by cases p <;> exact nofun)
  have hnew (x : Setting) (hx : x.get s.live = boolCode (s.live.feed.enabled.get p)) :
      writeIfNew (groupOf (BitVec.ofNat 16 (0x01FF + p.num))) (indexOf (BitVec.ofNat 16 (0x01FF + p.num))) x (boolCode on) (s.setEv {}) = _ :=
    (if_neg (hx ▸ hne)).trans ((hwrite x _).trans (by rw [boolCode_one, portEnabledWrite_event h]))
  rw [hnew _ rfl] at hop
  obtain ⟨t, hstep, -, hafter⟩ := afterRequest_intro
    (u := { s with
      live := portLive p on s.live
      feed := { s.feed with ports := s.feed.ports.set p (enabledPort on s.clock.cycles (s.feed.ports.get p)) } })
    0x06 tag (word16Bytes (BitVec.ofNat 16 (0x01FF + p.num)) ++ word32Bytes (BitVec.ofNat 32 (if on then 1 else 0))) hs hop rfl (.inr rfl)
  exact ⟨t, (exec_setSetting ..).trans hstep, hafter⟩

/-! ## The owners of the frame period (R34, R35, R80) -/

/-- A port's record after a write of F, N or the timing stream (R34, R35). -/
def reformed (s : State) (x : PortRec) : PortRec :=
  if isAligned x.mode then
    { x with
      assembling := false, opened := none,
      continuity := (feedStreams s).map (fun stream => (stream, (x.continuity.lookup stream).join)),
      deadline := x.deadline.map (fun _ => s.clock.time + 2 * (s.live.em.period : Int)) }
  else x

theorem formatWriteAt_eq (p : PortId) (s : State) :
    formatWriteAt p s = s.setFeed { s.feed with ports := s.feed.ports.set p (reformed s (s.feed.ports.get p)) } := by
  unfold formatWriteAt reformed
  by_cases h : isAligned (s.feed.ports.get p).mode
  · rw [if_pos (by exact h), if_pos h]
    cases p <;> rfl
  · rw [if_neg (by exact h), if_neg h, PerPort.set_get]
    rfl

theorem formatWrite_eq (s : State) :
    formatWrite s = s.setFeed { s.feed with ports := ⟨reformed s s.feed.ports.a, reformed s s.feed.ports.b⟩ } := by
  rw [formatWrite, formatWriteAt_eq .a, formatWriteAt_eq .b]
  rfl

theorem setPeriod {s : State} {f : Nat} (tag : Byte) (hs : Ready s) (hm : s.em.mode = .off) (h1 : 100000 ≤ f) (h2 : f ≤ 10000000)
    (hne : s.live.em.period ≠ f) :
    ∃ t, exec (.setSetting tag (BitVec.ofNat 16 0x0300) (BitVec.ofNat 32 f)) s = .next t ∧
      t.live = { s.live with em := { s.live.em with period := f } } ∧
      t.em = { s.em with origin := s.clock.time, freePeriod := 0, freePacket := 0 } ∧ t.store = s.store ∧
      ∀ p, t.feed.ports.get p =
        let x := s.feed.ports.get p
        if isAligned x.mode then
          { x with
            assembling := false, opened := none,
            continuity := (feedStreams s).map (fun stream => (stream, (x.continuity.lookup stream).join)),
            deadline := x.deadline.map (fun _ => s.clock.time + 2 * f) }
        else x := by
  have hx : settingOf (groupOf (BitVec.ofNat 16 0x0300)) (indexOf (BitVec.ofNat 16 0x0300)) =
      emNum 100000 10000000 (·.period) (fun c v => { c with period := v }) := rfl
  obtain ⟨t, hstep, hleft⟩ := setSetting_left tag hs hx (judgeValue_inside (by omega) (by omega) (by omega))
    (fun _ => hm) (fun h => hne (Int.ofNat.inj h))
  have hwrite (x : Setting) (u : State) : writeSetting (groupOf (BitVec.ofNat 16 0x0300)) (indexOf (BitVec.ofNat 16 0x0300)) x (f : Int) u =
      formatWrite (restartGrid (u.setLive (x.put u.live f))) := rfl
  rw [hwrite, formatWrite_eq] at hleft
  refine ⟨t, hstep, hleft.live, hleft.em, hleft.store, fun p => ?_⟩
  rw [hleft.feed]
  cases p <;> rfl

/-! ## The owner of the modules (R135, R138) -/

theorem PerFour.get_each {α : Type} (f : Four → α → α) (x : PerFour α) (n : Four) :
    (PerFour.mk (f .n1 x.n1) (f .n2 x.n2) (f .n3 x.n3) (f .n4 x.n4)).get n = f n (x.get n) := by cases n <;> rfl

/-- A module after a write of the installed count (R135). -/
theorem installedWrite_modules (count : Nat) (s : State) (n : Four) : (installedWrite count s).drive.modules.get n =
    if decide (n.num ≤ count) = decide (n.num ≤ s.live.drive.installed) then s.drive.modules.get n
    else
      { latchedOff := false, overRun := 0, opened := 0, current := (s.drive.modules.get n).current, enable := decide (n.num ≤ count) } := by
  unfold installedWrite
  dsimp only
  rw [(recomputeCeiling_level _).modules]
  refine (PerFour.get_each (f := fun (n : Four) (m : Module) =>
    if n.num ≤ count ∧ ¬ n.num ≤ s.live.drive.installed then { m with latchedOff := false, enable := true, overRun := 0, opened := 0 }
    else if ¬ n.num ≤ count ∧ n.num ≤ s.live.drive.installed then { m with latchedOff := false, enable := false, overRun := 0, opened := 0 }
    else m) s.drive.modules n).trans ?_
  by_cases hnew : n.num ≤ count <;> by_cases hold : n.num ≤ s.live.drive.installed <;> simp [hnew, hold]

theorem setInstalled {s : State} {count : Nat} (tag : Byte) (hs : Ready s) (h1 : 1 ≤ count) (h4 : count ≤ 4)
    (hne : s.live.drive.installed ≠ count) :
    ∃ t, exec (.setSetting tag (BitVec.ofNat 16 0x0500) (BitVec.ofNat 32 count)) s = .next t ∧
      t.live = { s.live with drive := { s.live.drive with installed := count } } ∧
      t.drive.ceiling = ceilingOf t ∧ (LevelOk s → LevelOk t) ∧
      ∀ n, t.drive.modules.get n =
        let m := s.drive.modules.get n
        if decide (n.num ≤ count) = decide (n.num ≤ s.live.drive.installed) then m
        else { latchedOff := false, overRun := 0, opened := 0, current := m.current, enable := decide (n.num ≤ count) } := by
  have hx : settingOf (groupOf (BitVec.ofNat 16 0x0500)) (indexOf (BitVec.ofNat 16 0x0500)) =
      driveNum 1 4 (·.installed) (fun c v => { c with installed := v }) := rfl
  obtain ⟨t, hstep, hleft⟩ := setSetting_left tag hs hx (judgeValue_inside (by omega) (by omega) (by omega))
    nofun (fun h => hne (Int.ofNat.inj h))
  have hwrite (x : Setting) (u : State) : writeSetting (groupOf (BitVec.ofNat 16 0x0500)) (indexOf (BitVec.ofNat 16 0x0500)) x (count : Int) u =
      installedWrite count u := rfl
  rw [hwrite] at hleft
  have hfresh : (installedWrite count (s.setEv {})).drive.ceiling = ceilingOf (installedWrite count (s.setEv {})) := recomputeCeiling_fresh _
  refine ⟨t, hstep, hleft.live.trans (installedWrite_live ..), ?_, fun h => ?_, fun n => ?_⟩
  · rw [hleft.level.ceiling, hfresh, hleft.level.ceilingOf hleft.live]
  · exact hleft.levelOk ((keeps_installedWrite count (s.setEv {})).level h)
  · rw [hleft.level.modules, installedWrite_modules]
    rfl

/-! ## O24 -/

/-- Settles O24: the laws of the table give what a listed id holds; the owners' writes are those of the blocks. -/
theorem settingsAreWrittenAndRead : Obligations.SettingsAreWrittenAndRead := by
  refine ⟨fun s tag id x hs hx => ⟨fun value v hv hoff hr hn => ?_, ?_⟩, fun s tag id value hs => ⟨fun hx => ⟨?_, ?_⟩, fun x hx hv => ?_,
    fun x v hx hv hn hm => ?_⟩, fun s tag hs => ⟨fun n he => ?_, fun n he => ?_, fun n p h1 h3 hne => ?_, fun p on he => ?_,
    fun f hm h1 h2 hne => ?_, fun count h1 h4 hne => ?_⟩⟩
  · exact setSetting_holds tag hs hx hv hoff ⟨hr, hn⟩
  · rw [exec_getSetting]
    exact request_report 0x05 tag _ hs (reqGetSetting_listed (s := s.setEv {}) hx)
  · rw [exec_setSetting]
    exact request_turnedDown 0x06 tag _ hs (reqSetSetting_unlisted (s := s.setEv {}) hx)
  · rw [exec_getSetting]
    exact request_turnedDown 0x05 tag _ hs (reqGetSetting_unlisted (s := s.setEv {}) hx)
  · rw [exec_setSetting]
    exact request_turnedDown 0x06 tag _ hs (reqSetSetting_noCode (s := s.setEv {}) hx hv)
  · rw [exec_setSetting]
    exact request_turnedDown 0x06 tag _ hs (reqSetSetting_onAir (s := s.setEv {}) hx hv hn hm)
  · exact disableInput tag hs he
  · exact enableInput tag hs he
  · exact setPriority tag hs h1 h3 hne
  · exact fun h => setPortEnabled tag hs he h
  · exact setPeriod tag hs hm h1 h2 hne
  · exact setInstalled tag hs h1 h4 hne

end Sys2Proof.Machine
end
